-- ==== Sys2Proof/Word.lean ====
section
/-!
DEFINITION. The words of the reel (R10, R58, R111): the 64-bit word, the byte, the 128-bit value with its capability
tag, the 128-byte line with its eight tags and its poison marker, and the sparse tables in which State keeps the
registers and memories that come in large numbers.
-/

namespace Sys2Proof

/-- A 64-bit word (R10). -/
abbrev Word := BitVec 64

/-- A byte. -/
abbrev Byte := BitVec 8

/-- A 128-bit value with its capability tag: a capability register, a socket, a 16-byte granule (R58, R111, R115). -/
structure Cap where
  bits : BitVec 128
  tag  : Bool
deriving DecidableEq, Repr

/-- The untagged zero of R119. -/
def Cap.zero : Cap := ⟨0, false⟩

/-- A line of 128 bytes, the lowest byte in the lowest bits, with the tag of each granule and the poison marker
(R115, R130, R304). -/
structure LineVal where
  data   : BitVec 1024
  tags   : BitVec 8
  poison : Bool
deriving DecidableEq, Repr

/-- A line of zeros, untagged and not poisoned. -/
def LineVal.zero : LineVal := ⟨0, 0, false⟩

/-- A sparse table: key and value pairs with keys strictly rising; a key that is not listed holds the table's default
value, and no listed value equals it (Machine/Table.lean keeps this form). -/
abbrev Tbl (α : Type) := List (Nat × α)

end Sys2Proof
end

