-- ==== Sys2Proof/Syntax.lean ====
section
/-!
DEFINITION. The commands of the reel, one constructor of Instr for each row of spec/opcode_table.json, and the types of
their operands. The table gives no row any bits, so a command is a term of Instr and never a word.
-/

namespace Sys2Proof

/-- Spindle 0 to 479 (R15, R16). -/
abbrev SpId := Fin 480
/-- Skein S0 to S11 (R15). -/
abbrev SkId := Fin 12
/-- A ply of a skein (R15). -/
abbrev PlId := Fin 20
/-- A die: 0 to 11 a skein, 12 the hub. -/
abbrev DieId := Fin 13
/-- One of the 96 units a socket address can name (R58). -/
abbrev UnitId := Fin 96
/-- One of the four ALUs, units 0 to 3 (R65). -/
abbrev AluId := Fin 4
/-- One of the two binary floating-point units, units 6 and 7 here numbered 0 and 1 (R65). -/
abbrev FpuId := Fin 2
/-- One of the two load/store units, units 10 and 11 here numbered 0 and 1 (R65). -/
abbrev LsId := Fin 2
/-- One of the 16 coprocessor units, units 80 to 95 here numbered 0 to 15 (R73). -/
abbrev CopId := Fin 16
/-- A trigger socket 4 to 15 of a unit, here numbered 0 to 11 (R58). -/
abbrev TrigId := Fin 12
/-- A capability register c0 to c63 (R55). -/
abbrev CapReg := Fin 64
/-- The 13-bit modifier of a slot that names a trigger (R52). -/
abbrev Modifier := BitVec 13
/-- Home slice H0 to H3 (R246). -/
abbrev SliceId := Fin 4
/-- DDR5 channel (R297). -/
abbrev ChId := Fin 16
/-- Tenant page (R334). -/
abbrev PageId := Fin 4096
/-- Partition 0 to 48. -/
abbrev PartId := Fin 49
/-- Channel engine (R330). -/
abbrev EngId := Fin 128
/-- Flex root port (R366). -/
abbrev FlexId := Fin 24
/-- Rack port K0 to K11 (R379). -/
abbrev RackId := Fin 12
/-- Guest site G0 or G1 (R287). -/
abbrev SiteId := Fin 2
/-- A ledger slot (R339). -/
abbrev SlotId := Fin 65536

/-- What a ply detects in PLY_RETRY (R148, R156): a comparator mismatch of a group, a parity error, or a hang. -/
inductive PlyEvent where
  | mismatch (groups : Word)
  | parity
  | hang
deriving DecidableEq, Repr

/-- Why a skein is lost (R197): what the hub finds, or a cause a rule names. -/
inductive LossCause where
  | heartbeat | meshHeader | rung3 | tooFewPlies | checkpoint | clock | rail | reset | cacheTag | hubLink | other
deriving DecidableEq, Repr

/-- Where an L1 parity error is found (R222). -/
inductive L1Place where
  | l1d (fibre : Fin 2) | l1i (fibre : Fin 2) | side
deriving DecidableEq, Repr

/-- The two shared units of a skein (R391). -/
inductive PcUnit where
  | press | cipher
deriving DecidableEq, Repr

/-- A fabric domain (R282): a skein, a guest site, a flex port, a rack port, a channel engine, a DDR5 channel, a
press or cipher unit, a ply, or an L3 slice of a skein. -/
inductive FDomain where
  | skein (n : SkId) | guest (n : SiteId) | flex (n : FlexId) | rack (n : RackId)
  | engine (n : EngId) | channel (n : ChId) | unitOf (n : SkId) (u : PcUnit)
  | ply (n : SkId) (p : PlId) | slice (n : SkId) (j : Fin 4)
deriving DecidableEq, Repr

/-- A fabric packet (R271 to R273): the header's fields and the data it carries, with the skein whose fasten a FASTEN_DONE or
JOURNAL_WR belongs to, the tick at which it was sent and the one at which it last aged (log 13). -/
structure Packet where
  cmd    : Nat := 0
  age    : Nat := 0
  tag    : Nat := 0
  src    : Nat := 12
  srcNode : Nat := 0
  dst    : Nat := 12
  dstNode : Nat := 0
  tenant : Option Nat := none
  part   : Nat := 0
  line   : Nat := 0
  aux    : Nat := 0
  hint   : Nat := 0
  dirty  : Bool := false
  len    : Nat := 0
  val    : LineVal := LineVal.zero
  mask   : BitVec 128 := 0
  epoch  : Nat := 0
  lines  : List Nat := []
  owner  : Nat := 12
  since  : Nat := 0
  agedAt : Nat := 0
deriving DecidableEq, Repr

/-- An uncached access of a spindle (R40, R272): address, size in bytes, store data with its tag. -/
structure Uc where
  sp   : SpId
  addr : Nat
  size : Nat
  data : BitVec 128
  tag  : Bool
deriving DecidableEq, Repr

/-- What the decoder of a DDR5 channel finds in a line it has read (R304, R305): the position of a corrected symbol; or an
uncorrectable line, by the code or by its ADDR, and whether the partner's copy in a mirrored pair is uncorrectable too. -/
inductive ReadResult where
  | clean
  | corrected (position : Fin 20)
  | uncorrectable (addrCheck partnerBad : Bool)
deriving DecidableEq, Repr

/-- What training finds on one channel (R298, R299). -/
structure ChTrain where
  ok      : Bool
  rate    : Nat
  dimms   : Nat
  x8      : Bool
  gib     : Nat
  serials : List Nat
deriving DecidableEq, Repr

/-- What a device reports for an attempt (R347, R352): success with the bytes moved, and the bytes that an engine copied from
a PCIe function for READ and SENSE; or an error with its status. -/
inductive DevResult where
  | done (bytes : Nat) (data : List Byte)
  | error (status : Word) (bytes : Nat)
deriving DecidableEq, Repr

/-- How an NVMe Abort ends (R346). -/
inductive AbortResult where
  | aborted | completed (r : DevResult) | noAnswer
deriving DecidableEq, Repr

/-- What a flex port trains to (R369, R371). -/
structure FlexTrain where
  rate  : Nat
  width : Nat
  cxl   : Bool
  busFirst : Nat
  busLast  : Nat
deriving DecidableEq, Repr

/-- An upstream request of a device below a flex port (R372). -/
structure Inbound where
  port  : FlexId
  rid   : Nat
  addr  : Nat
  write : Bool
  data  : List Byte
  len   : Nat
  ep    : Bool
deriving DecidableEq, Repr

/-- The identity block of a rack port's peer (R382). -/
structure RackIdentity where
  reel : Nat
  incarnation : Nat
  widthMask : Nat
deriving DecidableEq, Repr

/-- A rack message (R383), with the SEQ, the ACK and the credits of the trailer of the block that brought it (R379); of several
messages in one block the last carries the credits. -/
structure RackMsg where
  port : RackId
  attempt : Nat
  tag  : Nat
  endpoint : Nat
  devaddr : Nat := 0
  total : Nat := 0
  devcmd : BitVec 256 := 0
  offset : Nat := 0
  last : Bool := false
  code : Nat := 0
  incarnation : Nat := 0
  doneBytes : Nat := 0
  hint : Nat := 0
  data : List Byte := []
  seq : Nat := 0
  ack : Nat := 0
  reqCredit : Nat := 0
  rspCredit : Nat := 0
deriving DecidableEq, Repr

/-- Why a block is replayed (R381): the reel has received one with a bad CRC or out of sequence, here as its 512 bytes; or the peer
asks for replay from ACK + 1. -/
inductive RackReplay where
  | bad (block : List Byte) | nak (ack : Nat)
deriving DecidableEq, Repr

/-- A replay on a rack port, and why (R381). -/
structure PortReplay where
  port  : RackId
  cause : RackReplay
deriving DecidableEq, Repr

/-- The retries of a channel within 1 ms, as its controller counts them (R315). -/
structure ChRetries where
  ch      : ChId
  retries : Nat
deriving DecidableEq, Repr

/-- An event a block raises with the collector (R424, R430): source ID, INSTANCE, the spindle it names, and DETAIL. -/
structure EventIn where
  src     : Nat
  inst    : Nat
  spindle : Option Nat
  detail  : Word
deriving DecidableEq, Repr

/-- Where a mailbox command came from and its SEQ (R451, R454): page 0 to 48, or 49 for the BMC mailbox. -/
structure Mb where
  page : Nat
  slot : Nat
  seq  : Nat
deriving DecidableEq, Repr

/-- A buffer a command names (R454), or the payload that stands for it on the BMC mailbox (R459). -/
structure Buf where
  addr : Nat
  len  : Nat
  payload : List Byte
deriving DecidableEq, Repr

/-- A draft image (R167): VERSION, CRC, CODE in words of 64 bits, and SIGNATURE. -/
structure DraftImage where
  version : Nat := 0
  crc     : Nat := 0
  code    : List Word := []
  sig     : BitVec 768 := 0
deriving DecidableEq, Repr

/-- LENGTH: the bytes of code (R167). -/
def DraftImage.length (d : DraftImage) : Nat := 8 * d.code.length

/-- A firmware bank image (R449): whether its signature verifies, its VERSION, the draft image it carries and whether that image's
own SIGNATURE verifies under DRAFT_KEY (log 92). -/
structure BankImage where
  sigOk    : Bool
  version  : Nat
  draft    : DraftImage
  draftSigOk : Bool
  engineVer : Nat
deriving DecidableEq, Repr

/-- What one die reports every 100 µs (R483): its highest sensor in °C, its metered current in 1/32 bead. -/
structure DieSample where
  temp : Nat
  current : Nat
deriving DecidableEq, Repr

/-- A telemetry sample (R483): one entry for each die, and the rails whose regulator reports a fault. -/
structure Telemetry where
  dies : List DieSample
  faults : List Nat
deriving DecidableEq, Repr

/-- The good-lane masks that the two ends of one role of a strand link report in training (R278): the skein's, and that of the hub
or of its buddy. -/
structure EndMasks where
  near : BitVec 96
  far  : BitVec 96
deriving DecidableEq, Repr

/-- The good-lane masks of both roles of a strand link in training (R278). -/
structure TrainMasks where
  hub   : EndMasks
  buddy : EndMasks
deriving DecidableEq, Repr

/-- What boot steps 2 to 8 find (R473, R500, R501, R508, R512): MFR_IOUT_MAX of each core regulator in amperes, self-tests, the power-good pins, the rails whose regulator
does not answer, whether the
MRAM record and its copy read back valid, PLLs, lane masks by skein (of the hub role the skein's and the hub's, of the buddy role the
skein's), good plies, the masks of groups of the plies (20 * skein + ply) whose
comparator test failed, and draft loads. -/
structure BootIn where
  iout : List Nat
  recovery : Bool
  selfTestOk : Bool
  pgCore : BitVec 13
  pgAux : Bool
  regMissing : BitVec 24
  recGood : Bool
  copyGood : Bool
  hubPllOk : Bool
  skeinPllOk : BitVec 12
  skeinTestOk : BitVec 12
  hubMasks : List (BitVec 96)
  hubFars : List (BitVec 96)
  buddyMasks : List (BitVec 96)
  plyGood : List (BitVec 20)
  cmpBad : List (Nat × Word)
  draftOk : List (BitVec 20)
  plyErrors : List Nat
  refA : Bool
  refB : Bool
deriving DecidableEq, Repr

/-- What re-admission of a skein finds (R498, R499): cmpBad holds the masks of groups of the plies whose comparator test failed. -/
structure AdmitResult where
  pgHigh : Bool
  refRuns : Bool
  pllOk : Bool
  masks : TrainMasks
  testOk : Bool
  plyGood : BitVec 20
  cmpBad : List (Nat × Word)
  draftOk : BitVec 20
deriving DecidableEq, Repr

/-- What a guest's UCIe link trains to (R287, R288). -/
structure GuestTrain where
  ok   : Bool
  rate : Nat
  x32  : Bool
deriving DecidableEq, Repr

/-- A command of the reel: one constructor for each row of the table. -/
inductive Instr where
  /-- BUNDLE_NORMAL (R50): A fibre issues a normal bundle: it evaluates the guards, reads the sources, writes the destinations and starts the triggers. -/
  | bundleNormal (sp : SpId)
  /-- BUNDLE_LONG_IMMEDIATE (R49): A bundle of KIND 0b01 moves a 64-bit immediate from slots 1 and 2 through slot 0. -/
  | bundleLongImmediate (sp : SpId)
  /-- BUNDLE_COPROCESSOR (R74): A bundle of KIND 0b10 forwards slot 0's trigger and 84 opaque bits to the bound guest unit. -/
  | bundleCoprocessor (sp : SpId)
  /-- UNIT_COMPLETION (R60): A unit operation completes after its latency; it writes the result socket, sets flags and releases interlocks. -/
  | unitCompletion (sp : SpId) (u : UnitId)
  /-- ADD (R79): The ALU adds a and b modulo 2^64 and sets C and V. -/
  | add (sp : SpId) (u : AluId) (a : Word)
  /-- SUB (R79): The ALU subtracts b from a and sets the borrow and V. -/
  | sub (sp : SpId) (u : AluId) (a : Word)
  /-- ADDT (R79): The ALU adds a and b; a signed overflow sets V and raises an integer-overflow event. -/
  | addt (sp : SpId) (u : AluId) (a : Word)
  /-- SUBT (R79): The ALU subtracts b from a; a signed overflow sets V and raises an integer-overflow event. -/
  | subt (sp : SpId) (u : AluId) (a : Word)
  /-- AND (R79): The ALU computes a AND b. -/
  | and (sp : SpId) (u : AluId) (a : Word)
  /-- OR (R79): The ALU computes a OR b. -/
  | or (sp : SpId) (u : AluId) (a : Word)
  /-- XOR (R79): The ALU computes a XOR b. -/
  | xor (sp : SpId) (u : AluId) (a : Word)
  /-- ANDN (R79): The ALU computes a AND NOT b. -/
  | andn (sp : SpId) (u : AluId) (a : Word)
  /-- SHL (R80): The ALU shifts a left by b[5:0]. -/
  | shl (sp : SpId) (u : AluId) (a : Word)
  /-- SHR (R80): The ALU shifts a right logically by b[5:0]. -/
  | shr (sp : SpId) (u : AluId) (a : Word)
  /-- SAR (R80): The ALU shifts a right arithmetically by b[5:0]. -/
  | sar (sp : SpId) (u : AluId) (a : Word)
  /-- ADDC (R80): The ALU adds a, b and its own C flag. -/
  | addc (sp : SpId) (u : AluId) (a : Word)
  /-- MUL (R81): The multiplier returns the low 64 bits of a times b. -/
  | mul (sp : SpId) (a : Word)
  /-- UMUL (R81): The multiplier returns the unsigned 128-bit product. -/
  | umul (sp : SpId) (a : Word)
  /-- SMUL (R81): The multiplier returns the signed 128-bit product. -/
  | smul (sp : SpId) (a : Word)
  /-- MULT (R81): The multiplier returns the signed product; a product outside 64 bits sets V and raises an integer-overflow event. -/
  | mult (sp : SpId) (a : Word)
  /-- UDIV (R83): The divider returns the unsigned quotient, with the fixed edge results. -/
  | udiv (sp : SpId) (a : Word)
  /-- SDIV (R83): The divider returns the signed quotient rounded toward zero. -/
  | sdiv (sp : SpId) (a : Word)
  /-- UREM (R83): The divider returns the unsigned remainder. -/
  | urem (sp : SpId) (a : Word)
  /-- SREM (R83): The divider returns the signed remainder, which takes the sign of a. -/
  | srem (sp : SpId) (a : Word)
  /-- FADD (R89): The FPU adds two binary floating-point values. -/
  | fadd (sp : SpId) (u : FpuId) (m : Modifier) (a : BitVec 128)
  /-- FSUB (R89): The FPU subtracts two binary floating-point values. -/
  | fsub (sp : SpId) (u : FpuId) (m : Modifier) (a : BitVec 128)
  /-- FMUL (R89): The FPU multiplies two binary floating-point values. -/
  | fmul (sp : SpId) (u : FpuId) (m : Modifier) (a : BitVec 128)
  /-- FDIV (R89): The FPU divides two binary floating-point values. -/
  | fdiv (sp : SpId) (u : FpuId) (m : Modifier) (a : BitVec 128)
  /-- FSQRT (R89): The FPU returns the square root of a. -/
  | fsqrt (sp : SpId) (u : FpuId) (m : Modifier) (a : BitVec 128)
  /-- FMA (R89): The FPU computes a times b plus the result-socket addend, with one rounding. -/
  | fma (sp : SpId) (u : FpuId) (m : Modifier) (a : BitVec 128)
  /-- CVTFI (R90): The FPU converts a floating-point value to a 64-bit integer, with saturation. -/
  | cvtfi (sp : SpId) (u : FpuId) (m : Modifier) (a : BitVec 128)
  /-- CVTIF (R89): The FPU converts an integer to floating point. -/
  | cvtif (sp : SpId) (u : FpuId) (m : Modifier) (a : BitVec 128)
  /-- CVTFF (R89): The FPU converts between binary formats. -/
  | cvtff (sp : SpId) (u : FpuId) (m : Modifier) (a : BitVec 128)
  /-- FMIN (R90): The FPU returns IEEE minimumNumber of a and b. -/
  | fmin (sp : SpId) (u : FpuId) (m : Modifier) (a : BitVec 128)
  /-- FMAX (R90): The FPU returns IEEE maximumNumber of a and b. -/
  | fmax (sp : SpId) (u : FpuId) (m : Modifier) (a : BitVec 128)
  /-- FCLASS (R91): The FPU writes the class mask of a. -/
  | fclass (sp : SpId) (u : FpuId) (m : Modifier) (a : BitVec 128)
  /-- DADD (R94): The decimal FPU adds two decimal values. -/
  | dadd (sp : SpId) (m : Modifier) (a : BitVec 128)
  /-- DSUB (R94): The decimal FPU subtracts two decimal values. -/
  | dsub (sp : SpId) (m : Modifier) (a : BitVec 128)
  /-- DMUL (R94): The decimal FPU multiplies two decimal values. -/
  | dmul (sp : SpId) (m : Modifier) (a : BitVec 128)
  /-- DDIV (R94): The decimal FPU divides two decimal values. -/
  | ddiv (sp : SpId) (m : Modifier) (a : BitVec 128)
  /-- DFMA (R94): The decimal FPU computes a times b plus the addend, with one rounding. -/
  | dfma (sp : SpId) (m : Modifier) (a : BitVec 128)
  /-- DQUANT (R94): The decimal FPU quantizes a to the exponent of b. -/
  | dquant (sp : SpId) (m : Modifier) (a : BitVec 128)
  /-- DRRND (R96): The decimal FPU rounds a to n significant digits. -/
  | drrnd (sp : SpId) (m : Modifier) (a : BitVec 128)
  /-- DCVTID (R94): The decimal FPU converts a signed integer to decimal. -/
  | dcvtid (sp : SpId) (m : Modifier) (a : BitVec 128)
  /-- DCVTDI (R96): The decimal FPU converts a decimal value to a saturated signed integer. -/
  | dcvtdi (sp : SpId) (m : Modifier) (a : BitVec 128)
  /-- DCVTDD (R96): The decimal FPU widens or narrows between decimal64 and decimal128. -/
  | dcvtdd (sp : SpId) (m : Modifier) (a : BitVec 128)
  /-- DLDIV (R97): A long operation returns the exact decimal remainder of a truncated division. -/
  | dldiv (sp : SpId) (m : Modifier) (a : BitVec 128)
  /-- DSQRT (R94): The decimal FPU returns the square root of a. -/
  | dsqrt (sp : SpId) (m : Modifier) (a : BitVec 128)
  /-- EXTU (R85): The bit unit extracts a field of a, zero-extended. -/
  | extu (sp : SpId) (a : Word)
  /-- EXTS (R85): The bit unit extracts a field of a, sign-extended. -/
  | exts (sp : SpId) (a : Word)
  /-- INS (R85): The bit unit inserts a field into the result-socket target. -/
  | ins (sp : SpId) (a : Word)
  /-- CLZ (R85): The bit unit counts the leading zero bits of a. -/
  | clz (sp : SpId) (a : Word)
  /-- CTZ (R85): The bit unit counts the trailing zero bits of a. -/
  | ctz (sp : SpId) (a : Word)
  /-- POPC (R85): The bit unit counts the 1 bits of a. -/
  | popc (sp : SpId) (a : Word)
  /-- PERM (R86): The bit unit permutes the bytes of a under the selectors in b. -/
  | perm (sp : SpId) (a : Word)
  /-- BSWAP (R85): The bit unit reverses the bytes of a. -/
  | bswap (sp : SpId) (a : Word)
  /-- ROL (R85): The bit unit rotates a left. -/
  | rol (sp : SpId) (a : Word)
  /-- ROR (R85): The bit unit rotates a right. -/
  | ror (sp : SpId) (a : Word)
  /-- EQ (R87): The compare unit tests a = b and may write a predicate. -/
  | cmpEq (sp : SpId) (m : Modifier) (a : Word)
  /-- NE (R87): The compare unit tests a ≠ b. -/
  | cmpNe (sp : SpId) (m : Modifier) (a : Word)
  /-- LT (R87): The compare unit tests a < b, signed. -/
  | cmpLt (sp : SpId) (m : Modifier) (a : Word)
  /-- LE (R87): The compare unit tests a ≤ b, signed. -/
  | cmpLe (sp : SpId) (m : Modifier) (a : Word)
  /-- LTU (R87): The compare unit tests a < b, unsigned. -/
  | cmpLtu (sp : SpId) (m : Modifier) (a : Word)
  /-- LEU (R87): The compare unit tests a ≤ b, unsigned. -/
  | cmpLeu (sp : SpId) (m : Modifier) (a : Word)
  /-- FEQ (R88): The compare unit tests floating-point equality and sets UO. -/
  | cmpFeq (sp : SpId) (m : Modifier) (a : BitVec 128)
  /-- FLT (R88): The compare unit tests floating-point less-than. -/
  | cmpFlt (sp : SpId) (m : Modifier) (a : BitVec 128)
  /-- FLE (R88): The compare unit tests floating-point less-or-equal. -/
  | cmpFle (sp : SpId) (m : Modifier) (a : BitVec 128)
  /-- FUN (R88): The compare unit tests whether a and b are unordered. -/
  | cmpFun (sp : SpId) (m : Modifier) (a : BitVec 128)
  /-- TBIT (R87): The compare unit tests bit b[5:0] of a. -/
  | tbit (sp : SpId) (m : Modifier) (a : Word)
  /-- LD8U (R112): A checked load of one byte, zero-extended. -/
  | ld8u (sp : SpId) (u : LsId) (m : Modifier) (a : Word)
  /-- LD8S (R112): A checked load of one byte, sign-extended. -/
  | ld8s (sp : SpId) (u : LsId) (m : Modifier) (a : Word)
  /-- LD16U (R112): A checked load of two bytes, zero-extended. -/
  | ld16u (sp : SpId) (u : LsId) (m : Modifier) (a : Word)
  /-- LD16S (R112): A checked load of two bytes, sign-extended. -/
  | ld16s (sp : SpId) (u : LsId) (m : Modifier) (a : Word)
  /-- LD32U (R112): A checked load of four bytes, zero-extended. -/
  | ld32u (sp : SpId) (u : LsId) (m : Modifier) (a : Word)
  /-- LD32S (R112): A checked load of four bytes, sign-extended. -/
  | ld32s (sp : SpId) (u : LsId) (m : Modifier) (a : Word)
  /-- LD64 (R112): A checked load of eight bytes. -/
  | ld64 (sp : SpId) (u : LsId) (m : Modifier) (a : Word)
  /-- LD128 (R114): A checked load of 16 bytes with the tag cleared. -/
  | ld128 (sp : SpId) (u : LsId) (m : Modifier) (a : Word)
  /-- LDCAP (R114): A checked load of a capability that keeps the memory tag under LOADCAP. -/
  | ldcap (sp : SpId) (u : LsId) (m : Modifier) (a : Word)
  /-- ST (R114): A checked store, released at retirement, that clears the tags of the granules it touches. -/
  | st (sp : SpId) (u : LsId) (m : Modifier) (a : Word)
  /-- STCAP (R114): A checked capability store that writes the tag under STORECAP and the GLOBAL rule. -/
  | stcap (sp : SpId) (u : LsId) (m : Modifier) (a : Word)
  /-- ATOM_CAS (R256): An atomic compare-and-swap against the result-socket expected value. -/
  | atomCas (sp : SpId) (u : LsId) (m : Modifier) (a : Word)
  /-- ATOM_FETCH_ADD (R256): An atomic fetch-and-add. -/
  | atomFetchAdd (sp : SpId) (u : LsId) (m : Modifier) (a : Word)
  /-- ATOM_SWAP (R256): An atomic swap. -/
  | atomSwap (sp : SpId) (u : LsId) (m : Modifier) (a : Word)
  /-- ATOM_BIT_SET (R256): An atomic OR into memory. -/
  | atomBitSet (sp : SpId) (u : LsId) (m : Modifier) (a : Word)
  /-- ATOM_BIT_CLEAR (R256): An atomic AND NOT into memory. -/
  | atomBitClear (sp : SpId) (u : LsId) (m : Modifier) (a : Word)
  /-- BR (R68): A relative branch counted in bundles. -/
  | br (sp : SpId) (a : Word)
  /-- BRA (R68): A branch to an absolute bundle from the CODECAP base. -/
  | bra (sp : SpId) (a : Word)
  /-- CALL (R68): A relative call that writes the link. -/
  | call (sp : SpId) (a : Word)
  /-- CALLA (R68): An absolute call that writes the link. -/
  | calla (sp : SpId) (a : Word)
  /-- JCAP (R117): A transfer through a memory or entry capability; it replaces CODECAP and is a sync point. -/
  | jcap (sp : SpId) (c : CapReg) (a : Word)
  /-- CALLCAP (R118): A transfer through a capability that writes a return entry capability to ctl.r. -/
  | callcap (sp : SpId) (c : CapReg) (a : Word)
  /-- LOOP (R69): Pushes a hardware loop level, or skips the body when the count is 0. -/
  | loopPush (sp : SpId) (a : Word)
  /-- BREAK (R70): Pops the innermost loop level without a transfer. -/
  | breakLoop (sp : SpId)
  /-- NARROW (R116): Shrinks the range of a memory capability. -/
  | narrow (sp : SpId) (a : Cap)
  /-- PDROP (R116): Clears permission bits of a capability. -/
  | pdrop (sp : SpId) (a : Cap)
  /-- WRAP (R116): Seals a memory capability under a sealing authority. -/
  | wrap (sp : SpId) (a : Cap)
  /-- UNWRAP (R116): Unseals a sealed capability under a matching authority. -/
  | unwrap (sp : SpId) (a : Cap)
  /-- TAGQ (R116): Returns the tag of a capability. -/
  | tagq (sp : SpId) (a : Cap)
  /-- BASEQ (R116): Returns the BASE of a capability. -/
  | baseq (sp : SpId) (a : Cap)
  /-- LENQ (R116): Returns the LENGTH of a capability. -/
  | lenq (sp : SpId) (a : Cap)
  /-- INFOQ (R116): Returns the PERMS, OTYPE, KIND and tag of a capability. -/
  | infoq (sp : SpId) (a : Cap)
  /-- UNTAG (R116): Clears the tag of a capability. -/
  | untag (sp : SpId) (a : Cap)
  /-- MKENTRY (R116): Makes an entry capability at a bundle offset. -/
  | mkentry (sp : SpId) (a : Cap)
  /-- AUTHQ (R116): Tests whether a capability would authorise a given access. -/
  | authq (sp : SpId) (a : Cap)
  /-- TRAP (R131): A system call delivered through descriptor t after the bundle's other moves. -/
  | trap (sp : SpId) (a : Word)
  /-- ERET_TSB (R138): ERET variant 0 or 3 restores the state from the TSB and continues at SAVED_BA. -/
  | eretTsb (sp : SpId) (resume : Bool)
  /-- ERET_SLOT_TO_TSB (R138): ERET variant 1 writes the save-slot state to the TSB and clears SLOT_BUSY. -/
  | eretSlotToTsb (sp : SpId)
  /-- ERET_SLOT (R138): ERET variant 2 restores the state from the save slot. -/
  | eretSlot (sp : SpId)
  /-- SYNC (R103): Waits for earlier operations and delivers any pending imprecise arithmetic event. -/
  | sync (sp : SpId)
  /-- FENCE_ORDER (R259): FENCE variant 0 orders the spindle's earlier accesses before its later ones. -/
  | fenceOrder (sp : SpId)
  /-- FENCE_VISIBLE (R259): FENCE variant 1 also waits until the spindle's earlier stores are globally visible. -/
  | fenceVisible (sp : SpId)
  /-- TIME (R135): Returns the timebase and, when a is non-zero, sets DEADLINE. -/
  | time (sp : SpId) (a : Word)
  /-- ENTROPY (R150): Returns a single-sampled entropy value. -/
  | entropy (sp : SpId)
  /-- WAIT (R135): Stalls the spindle until the timebase reaches a or a deliverable event is pending. -/
  | waitUntil (sp : SpId) (a : Word)
  /-- WAIT_END (R135): A WAIT ends when the timebase reaches its value, with result 0. -/
  | waitEnd (sp : SpId)
  /-- DEADLINE_REACHED (R135): The timebase reaches DEADLINE; interrupt 255 is raised and DEADLINE is cleared. -/
  | deadlineReached (sp : SpId)
  /-- CLEAN (R227): CACHEOP COP 0 writes back the dirty lines of the range in the skein. -/
  | clean (sp : SpId) (a : Word)
  /-- INVAL (R227): CACHEOP COP 1 writes back and then invalidates the lines of the range. -/
  | inval (sp : SpId) (a : Word)
  /-- DISCARD (R228): CACHEOP COP 2 invalidates the lines of the range without writeback. -/
  | discard (sp : SpId) (a : Word)
  /-- LOCK_WAY (R232): CACHEOP COP 3 locks a way of the L2 or L3 for the partition. -/
  | lockWay (sp : SpId) (a : Word)
  /-- LOCK_FILL (R233): CACHEOP COP 4 fills the range into a locked way with exclusive ownership. -/
  | lockFill (sp : SpId) (a : Word)
  /-- UNLOCK_WAY (R232): CACHEOP COP 5 unlocks a way. -/
  | unlockWay (sp : SpId) (a : Word)
  /-- CACHEOP_COMPLETE (R230): A cache operation completes in the controllers and writes its result to unit 15. -/
  | cacheopComplete (sp : SpId)
  /-- FASTEN (R190): Requests a fasten; the result is the committed epoch that covers the trigger bundle. -/
  | fasten (sp : SpId)
  /-- BMOVE (R522): A long block copy between capabilities, carrying tags under the stated conditions. -/
  | bmove (sp : SpId) (src : CapReg) (dst : CapReg) (len : Word)
  /-- BFILL (R522): A long block fill with a byte. -/
  | bfill (sp : SpId) (dst : CapReg) (len : Word) (fillByte : Byte)
  /-- COMPRESS (R405): A long DEFLATE compression on the page's press stream. -/
  | compress (sp : SpId) (src : CapReg) (dst : CapReg) (len : Word)
  /-- DECOMPRESS (R405): A long DEFLATE decompression on the page's press stream. -/
  | decompress (sp : SpId) (src : CapReg) (dst : CapReg) (len : Word)
  /-- PRESS_FINISH (R403): Closes the press stream, writing the final block and trailer when compressing. -/
  | pressFinish (sp : SpId) (src : CapReg) (dst : CapReg) (len : Word)
  /-- ENCRYPT (R404): A long AES encryption on the page's cipher stream. -/
  | encrypt (sp : SpId) (src : CapReg) (dst : CapReg) (len : Word)
  /-- DECRYPT (R404): A long AES decryption on the page's cipher stream. -/
  | decrypt (sp : SpId) (src : CapReg) (dst : CapReg) (len : Word)
  /-- CIPHER_FINISH (R403): Closes the cipher stream, writing or checking the GCM tag. -/
  | cipherFinish (sp : SpId) (src : CapReg) (dst : CapReg) (len : Word)
  /-- COPROCESSOR_REQUEST (R73): A trigger of units 80–95 sends a request to the bound guest, serialising on a Fastened skein. -/
  | coprocessorRequest (sp : SpId) (cop : CopId) (trig : TrigId) (m : Modifier) (a : Word)
  /-- COPROCESSOR_RESPONSE (R76): The guest's answer enters the result socket as a single-sampled input. -/
  | coprocessorResponse (sp : SpId) (cop : CopId) (val : BitVec 128)
  /-- COPROCESSOR_TIMEOUT (R76): No answer within the response limit: the hub writes 0, sets TO and records a fault. -/
  | coprocessorTimeout (sp : SpId) (cop : CopId)
  /-- LONG_OP_PROGRESS_POINT (R139): A long operation reaches a progress point, where a due event is taken with RESUME_PENDING. -/
  | longOpProgressPoint (sp : SpId)
  /-- LONG_OP_COMPLETE (R72): A long operation completes and its bundle retires. -/
  | longOpComplete (sp : SpId)
  /-- INTERRUPT_DELIVERY (R136): At a bundle boundary the highest deliverable interrupt is delivered through the descriptor table. -/
  | interruptDelivery (sp : SpId)
  /-- NOTICE_DELIVERY (R128): A pending hardware notice 1, 2 or 5 is entered at EVENT_BASE once NOTICE is 0. -/
  | noticeDelivery (sp : SpId)
  /-- PLY_RETRY (R156): A mismatch or parity error discards unretired work and restores both fibres from the retry checkpoint. -/
  | plyRetry (sk : SkId) (pl : PlId) (ev : PlyEvent)
  /-- SPARE_ISSUE_START (R160): After cleaning and preparation, the spare begins issuing, and notice 1 is raised. -/
  | spareIssueStart (sp : SpId)
  /-- L2_CLEAN_TIMEOUT (R162): A failed ply's L2 not cleaned within 100 µs is itself taken as failed. -/
  | l2CleanTimeout (sk : SkId) (pl : PlId)
  /-- AGREEMENT_TIMEOUT (R149): An agreed input not registered by the other fibre in time causes a group 60/61 mismatch. -/
  | agreementTimeout (sk : SkId) (pl : PlId)
  /-- CHECKPOINT_UNCORRECTABLE (R154): An uncorrectable checkpoint chunk causes skein loss, spindle stop or a region rewrite. -/
  | checkpointUncorrectable (sk : SkId) (pl : PlId) (region : Fin 4) (fibre : Fin 2)
  /-- DRAFT_WORD_UNCORRECTABLE (R169): An uncorrectable draft-store word is reloaded, and the ply retries. -/
  | draftWordUncorrectable (sk : SkId) (pl : PlId)
  /-- SPLIT_PLY_FAILED (R172): An error on a Split ply fails the ply, causing skein loss when Fastened and stopping its spindles when Loose. -/
  | splitPlyFailed (sk : SkId) (pl : PlId)
  /-- COMPARATOR_TEST (R164): A waking or admitted Twin ply runs the injection test over all 64 groups. -/
  | comparatorTest (sk : SkId) (pl : PlId) (flagged : Word)
  /-- DRAFT_LOAD (R168): A ply is loaded from the held draft image and checks the CRC. -/
  | draftLoad (sk : SkId) (pl : PlId) (crcOk : Bool)
  /-- EPOCH_TICK (R175): The fasten controller raises the tick on epoch expiry, the line limit or a request, and the fibres stop for the barrier. -/
  | epochTick (sk : SkId)
  /-- BARRIER_COMPLETE (R177): All hosting fibres have joined; epoch e closes, e + 1 opens and doubling starts. -/
  | barrierComplete (sk : SkId) (ns : Nat)
  /-- BARRIER_TIMEOUT (R181): A fibre not joined within fasten.barrier_limit_cycles forces a retry or a Split ply failure. -/
  | barrierTimeout (sk : SkId) (pl : PlId) (fibre : Fin 2)
  /-- GATHERING_WINDOW_CLOSE (R189): A 64-cycle gathering window for serialising outputs closes and the barrier begins. -/
  | gatheringWindowClose (sk : SkId)
  /-- DBL_LINE (R192): The buddy receives a doubled line and places it in a reserved way, a recycled way or a spill. -/
  | dblLine (sk : SkId) (line : Nat)
  /-- DBL_IMAGE (R191): The buddy receives a chunk of a fasten image into its checkpoint store. -/
  | dblImage (sk : SkId) (sp : SpId) (chunk : Nat)
  /-- EPOCH_COMMIT (R179): The buddy holds every line, image and journal ack of the epoch and marks it committed. -/
  | epochCommit (sk : SkId)
  /-- DBL_ACK (R179): The doubling skein moves the epoch's lines from closing to fastened-dirty and sends held serial outputs. -/
  | dblAck (sk : SkId)
  /-- FASTEN_DONE (R196): The home slices receive the epoch's line list and mark the doubled lines Owned-doubled. -/
  | fastenDone (slice : SliceId) (p : Packet)
  /-- JOURNAL_WR (R193): A home slice writes a spilled line to the fasten journal and marks the entry journaled. -/
  | journalWr (p : Packet)
  /-- JOURNAL_COPY_WRITEBACK (R193): After FASTEN_DONE, the home copies a journal line to its own address in the background. -/
  | journalCopyWriteback (sk : SkId) (line : Nat)
  /-- RELEASE (R195): The buddy frees the committed copy of a line that its owner wrote back, dropped or gave away. -/
  | release (sk : SkId) (line : Nat)
  /-- SERIAL_OUTPUT_GATE (R188): The hub gate performs a serial output once, or returns the held response for a repeated sequence number. -/
  | serialOutputGate (sp : SpId)
  /-- SNOOP_HOLD_EXPIRE (R185): A hold on a line for a NACKed requester ends after fasten.snoop_hold_cycles. -/
  | snoopHoldExpire (sk : SkId) (line : Nat)
  /-- SKEIN_LOSS (R197): The hub fences a lost skein, reads the committed epoch, promotes the buddy's copies and begins re-hosting. -/
  | skeinLoss (sk : SkId) (cause : LossCause)
  /-- PROMOTION_WRITEBACK_COMPLETE (R197): The buddy finishes writing promoted lines to memory, and solo protection is complete. -/
  | promotionWritebackComplete (sk : SkId)
  /-- DIRECTORY_SWEEP (R198): A background sweep resolves the directory entries that still name a lost skein. -/
  | directorySweep (slice : SliceId) (line : Nat)
  /-- REHOST_PLACEMENT (R202): Jalif places a lost skein's spindle from its fasten image; notice 2 is raised. -/
  | rehostPlacement (sp : SpId)
  /-- SUSPENDED_SPINDLE_PLACE (R203): A suspended spindle is placed once a spare and its beads appear. -/
  | suspendedSpindlePlace (sp : SpId)
  /-- REPAIRING_COMPLETE (R205): Both skeins have committed a fasten into each other, and the pair is paired again. -/
  | repairingComplete (sk : SkId)
  /-- L1_PARITY_ERROR (R222): An L1 or side-buffer parity error invalidates the line, which is fetched again. -/
  | l1ParityError (sk : SkId) (pl : PlId) (where_ : L1Place) (line : Nat)
  /-- CACHE_UNCORRECTABLE (R222): An uncorrectable L2/L3 chunk is refetched, restored from the buddy or poisoned, by the line's state. -/
  | cacheUncorrectable (sk : SkId) (pl : Option PlId) (line : Nat)
  /-- CACHE_TAG_DOUBLE_FAILURE (R223): Both tag copies of a way fail; the way is invalidated, or the skein is lost when it is an L3 way of a Fastened skein. -/
  | cacheTagDoubleFailure (sk : SkId) (pl : Option PlId) (slot : Nat)
  /-- BUDDY_COPY_LOST (R222): An uncorrectable committed copy in a reserved way is dropped, and the owner doubles the line again. -/
  | buddyCopyLost (sk : SkId) (line : Nat)
  /-- PREFETCH_ISSUE (R218): The ply prefetcher requests a Shared line into the side buffer. -/
  | prefetchIssue (sk : SkId) (pl : PlId) (line : Nat)
  /-- PREFETCH_AGE_EXPIRE (R219): A side-buffer line unused within cache.prefetch_age_cycles is invalidated. -/
  | prefetchAgeExpire (sk : SkId) (pl : PlId) (line : Nat)
  /-- CACHE_DRAIN_COMPLETE (R235): A draining cache holds nothing dirty and reports disabled. -/
  | cacheDrainComplete (sk : SkId) (pl : Option PlId)
  /-- WAY_POWER_OFF_COMPLETE (R236): A cleaned way's gate reports off and its beads return. -/
  | wayPowerOffComplete (sk : SkId) (pl : Option PlId) (way : Fin 16)
  /-- CLEAN_LIMIT_TIMEOUT (R237): A cleaning not finished within cache.clean_limit_us raises the clean-limit fault. -/
  | cleanLimitTimeout (sk : SkId) (pl : Option PlId)
  /-- RD_SHARED (R254): The home serves a read miss with a GRANT_E or GRANT_S, snooping the owner when needed. -/
  | rdShared (p : Packet)
  /-- RD_OWN (R254): The home grants ownership, invalidating the other holders. -/
  | rdOwn (p : Packet)
  /-- UPGRADE (R254): The home upgrades a Shared holder to Modified, or serves the request as RD_OWN. -/
  | upgrade (p : Packet)
  /-- MARK_M (R243): The home changes an Exclusive entry to Modified. -/
  | markM (p : Packet)
  /-- WB (R254): The home writes a written-back line to memory, ordering it ahead of a crossing snoop. -/
  | wb (p : Packet)
  /-- EVICT_CLEAN (R254): The home removes the skein as holder of a clean line. -/
  | evictClean (p : Packet)
  /-- RD_PEEK (R254): The home returns the current value of a line to a hub agent. -/
  | rdPeek (p : Packet)
  /-- WR_FULL (R254): The home invalidates the holders and writes a whole line from a hub agent, clearing tags. -/
  | wrFull (p : Packet)
  /-- WR_PART (R273): The home merges a byte-enabled partial write, or a pair of them, as one transaction. -/
  | wrPart (p : Packet)
  /-- SNP_SHARE (R254): A skein supplies a line and keeps it Shared, or NACKs an unfastened line. -/
  | snpShare (p : Packet)
  /-- SNP_INV (R254): A skein supplies a dirty line and invalidates it, or NACKs an unfastened one. -/
  | snpInv (p : Packet)
  /-- SNP_PEEK (R254): A skein supplies a line and keeps its state. -/
  | snpPeek (p : Packet)
  /-- RECALL (R264): A skein writes back and invalidates every line of a recalled directory set. -/
  | recall (p : Packet)
  /-- HOLD_RELEASE (R185): A skein ends a line hold for a cancelled request. -/
  | holdRelease (p : Packet)
  /-- DATA (R254): The home receives snoop data and writes dirty data to memory within the transaction. -/
  | data (p : Packet)
  /-- ACK (R246): The home receives a data-less snoop answer. -/
  | ack (p : Packet)
  /-- NACK (R247): A requester receives a refusal with a reason and a hint, and raises the request's age. -/
  | nack (p : Packet)
  /-- NACK_RETRY (R247): After the hint elapses, the requester sends the request again with its raised age. -/
  | nackRetry (p : Packet)
  /-- EVICTING (R255): The home receives a snoop answer for a line already leaving, and waits for the WB or uses memory. -/
  | evicting (p : Packet)
  /-- GRANT_S (R254): A skein receives a Shared line. -/
  | grantS (p : Packet)
  /-- GRANT_E (R254): A skein receives an exclusive line. -/
  | grantE (p : Packet)
  /-- GRANT_UPG (R254): A skein receives ownership of a line it holds Shared. -/
  | grantUpg (p : Packet)
  /-- WB_ACK (R255): A skein clears the eviction record of a writeback or clean eviction. -/
  | wbAck (p : Packet)
  /-- WR_ACK (R254): A hub agent receives the completion of its write. -/
  | wrAck (p : Packet)
  /-- PEEK_DATA (R254): A hub agent receives the current value of a line. -/
  | peekData (p : Packet)
  /-- PROGRESS_LIMIT (R251): A top-age request unserved within coh.progress_limit_us raises the progress-limit fault. -/
  | progressLimit (p : Packet)
  /-- DIR_ENTRY_UNCORRECTABLE (R264): An uncorrectable directory entry starts a set recall. -/
  | dirEntryUncorrectable (slice : SliceId) (line : Nat)
  /-- CXL_BACK_INVALIDATE (R262): The home serves a device back-invalidate snoop, delaying the response through a fasten when needed. -/
  | cxlBackInvalidate (line : Nat) (shared : Bool)
  /-- CXL_RESPONSE_LATE (R376): A back-invalidate response beyond its limit raises the CXL-response-late fault. -/
  | cxlResponseLate (line : Nat)
  /-- UC_LD (R40): An uncached load to register space or a window reaches its target. -/
  | ucLd (r : Uc)
  /-- UC_ST (R40): An uncached store to register space or a window reaches its target. -/
  | ucSt (r : Uc)
  /-- UC_DATA (R272): The data of an uncached load returns to the spindle. -/
  | ucData (sp : SpId) (val : BitVec 128) (poisoned : Bool)
  /-- UC_ACK (R272): An uncached store is acknowledged. -/
  | ucAck (sp : SpId)
  /-- INTR (R133): An interrupt is raised for a spindle: its pending bit is set and the router keeps a copy. -/
  | intr (sp : SpId) (n : Fin 256)
  /-- REFUSED (R284): A requester receives a refusal and takes the outcome for its kind. -/
  | refused (p : Packet)
  /-- MESH_HEADER_UNCORRECTABLE (R274): An uncorrectable header flit causes skein loss or, on the hub, a reel-fatal fault. -/
  | meshHeaderUncorrectable (die : DieId)
  /-- PACKET_AGE_INCREMENT (R275): A packet waiting 256 fabric cycles in a router buffer gains one age step. -/
  | packetAgeIncrement (p : Packet)
  /-- STRAND_BLOCK_REPLAY (R277): A strand block that fails its CRC, or is missing from the sequence, is replayed from the sender. -/
  | strandBlockReplay (sk : SkId)
  /-- HEARTBEAT_MISSING (R277): No valid strand block for 2 µs declares the heartbeat missing. -/
  | heartbeatMissing (sk : SkId)
  /-- STRAND_TRAINING (R278): The hub trains both roles of a strand link and sets the widths from the intersection of good lanes. -/
  | strandTraining (sk : SkId) (hubMask : EndMasks) (buddyMask : EndMasks)
  /-- LANE_RETIRE (R280): A lane exceeding strand.lane_err_limit is replaced by a spare or the role narrows. -/
  | laneRetire (sk : SkId) (buddy : Bool) (mask : BitVec 96)
  /-- DRAIN (R282): A domain receives DRAIN, refuses new work and completes what it holds. -/
  | drain (d : FDomain)
  /-- FENCED (R282): A drained domain answers FENCED to its owner. -/
  | fenced (d : FDomain)
  /-- FORCE_FENCE (R282): A domain not fenced within its drain limit is force-fenced. -/
  | forceFence (d : FDomain)
  /-- UNFENCE (R282): A restarted domain rejoins the fabric. -/
  | unfence (d : FDomain)
  /-- PROBE_MATCH (R285): A header flit matches a probe, which counts it and acts by its ACTION. -/
  | probeMatch (die : DieId) (probe : Fin 32) (header : BitVec 128) (payload : List (BitVec 128))
  /-- GUEST_PACKET (R289): The firewall checks a guest packet in order and forwards or refuses it. -/
  | guestPacket (site : SiteId) (p : Packet)
  /-- GUEST_LINK_LOST (R288): A failed guest link, or one whose heartbeat is lost, force-fences the site. -/
  | guestLinkLost (site : SiteId)
  /-- GUEST_UC_TIMEOUT (R291): An uncached load to a guest gets no UC_DATA within guest.uc_limit_us and ends REFUSED. -/
  | guestUcTimeout (sp : SpId) (site : SiteId)
  /-- MEMORY_READ_COMPLETE (R305): A line read returns and is decoded, corrected, repaired or poisoned. -/
  | memoryReadComplete (ch : ChId) (off : Nat) (r : ReadResult)
  /-- SCRUB_READ (R311): The scrubber reads the next line in an idle cycle within its rate. -/
  | scrubRead (ch : ChId) (r : ReadResult)
  /-- SCRUB_LAP_LATE (R312): A lap passing mem.scrub_lap_limit_s raises the late fault once. -/
  | scrubLapLate (ch : ChId)
  /-- FILL (R310): FILL writes every installed line, or only the reserve at a warm reset. -/
  | fill
  /-- FILL_COMPLETE (R310): FILL and link bring-up end and the scrubber starts. -/
  | fillComplete (p0 : List Byte)
  /-- DDR_TRAINING_COMPLETE (R33): DDR5 training completes on every installed channel and the reel enters FILL. -/
  | ddrTrainingComplete (res : List ChTrain)
  /-- CHANNEL_LOSS (R315): A failing channel is drained, fenced and lost, and the reel enters DEGRADED. -/
  | channelLoss (c : ChRetries)
  /-- CHANNEL_RESTORE_COMPLETE (R317): A retrained channel finishes re-silvering or filling and sets CHANNEL_UP. -/
  | channelRestoreComplete (ch : ChId) (ok : Bool)
  /-- ARM (R318): Arms the flip-mask of a channel in Service mode. -/
  | arm (ch : ChId) (w : Word)
  /-- DISARM (R318): Clears ARM without applying the flip. -/
  | disarm (ch : ChId)
  /-- SUBMIT (R336): A SUBMIT store runs the submission checks and enters the operation QUEUED or posts a rejection. -/
  | submit (pg : PageId) (part : PartId) (w : Word) (token : Word)
  /-- CANCEL (R357): A CANCEL store acts on a current tag by its ledger state. -/
  | cancel (pg : PageId) (part : PartId) (tag : Word)
  /-- SLOT_WRITE (R335): A 16-byte store to a submission capability slot sets it valid or invalid. -/
  | slotWrite (pg : PageId) (k : Fin 16) (c : Cap)
  /-- CHANNEL_DISPATCH (R344): The hub dispatches a QUEUED or REDRIVE entry to an engine and a path. -/
  | channelDispatch (slot : SlotId)
  /-- ENGINE_ISSUE (R342): The engine writes ISSUING and hands the command to the device. -/
  | engineIssue (slot : SlotId)
  /-- DEVICE_ACCEPT (R342): The device accepts the command and the entry becomes ISSUED. -/
  | deviceAccept (slot : SlotId)
  /-- DEVICE_COMPLETION (R347): The device completes the command and the entry becomes TERMINAL, or a late completion is discarded. -/
  | deviceCompletion (slot : SlotId) (attempt : Nat) (r : DevResult)
  /-- ATTEMPT_TIMEOUT (R346): An ISSUED attempt past its timeout is aborted and handled as a path failure. -/
  | attemptTimeout (slot : SlotId)
  /-- NVME_ABORT_COMPLETE (R346): The NVMe Abort completes or its wait ends, and the attempt is handled as a path failure. -/
  | nvmeAbortComplete (slot : SlotId) (r : AbortResult)
  /-- ATTEMPT_FAILURE (R347): An engine, path, port or link failure ends the attempt in REDRIVE or TERMINAL by its state. -/
  | attemptFailure (slot : SlotId)
  /-- PATH_WAIT_EXPIRE (R348): An entry in REDRIVE with no usable path for chan.path_wait_ms ends. -/
  | pathWaitExpire (slot : SlotId)
  /-- ENGINE_MISMATCH (R350): An engine whose halves disagree, or whose watchdog expires, is force-fenced and reset. -/
  | engineMismatch (e : EngId)
  /-- ENGINE_RESET_COMPLETE (R350): A reset engine passes self-test and returns to service. -/
  | engineResetComplete (e : EngId) (ok : Bool)
  /-- COMPLETION_POST (R354): The hub posts a TERMINAL entry to the ring when there is room, and frees the ledger slot. -/
  | completionPost (pg : PageId)
  /-- CONSUMED_POLL (R354): With the ring full, the hub reads CONSUMED again every 1 µs. -/
  | consumedPoll (pg : PageId)
  /-- COALESCE_TIMEOUT (R355): COALESCE_US elapses since the oldest unnotified posting and the notification is sent. -/
  | coalesceTimeout (pg : PageId)
  /-- LEDGER_WORD_UNCORRECTABLE (R363): An uncorrectable ledger word is rebuilt, ends its entry outcome-unknown, or is reel-fatal. -/
  | ledgerWordUncorrectable (slot : SlotId) (w : Fin 32) (second : Bool) (both : Bool)
  /-- RESET_DRAIN_EXPIRE (R362): After chan.reset_drain_ms the remaining ledger entries are written to the reset log. -/
  | resetDrainExpire
  /-- FLEX_PORT_TRAINING (R369): A flex root port trains at the highest rate both ends support. -/
  | flexPortTraining (port : FlexId) (r : FlexTrain)
  /-- INBOUND_REQUEST (R372): A device's upstream request is decoded and checked, then performed as a hub agent or refused. -/
  | inboundRequest (r : Inbound)
  /-- FLEX_UNCORRECTABLE_FATAL (R374): A fatal PCIe error or an unplanned link down triggers DPC, containment and DEGRADED. -/
  | flexUncorrectableFatal (port : FlexId)
  /-- FLEX_RETRAIN (R374): A contained port retrains every flex.retrain_ms. -/
  | flexRetrain (port : FlexId) (r : Option FlexTrain)
  /-- FLEX_UC_TIMEOUT (R371): An uncached load through a flex window gets no completion in time and ends REFUSED. -/
  | flexUcTimeout (sp : SpId) (port : FlexId)
  /-- CXL_CAPACITY_EVENT (R375): A dynamic capacity event is posted as notice 4 to partition 0. -/
  | cxlCapacityEvent (port : FlexId) (rec : List Nat)
  /-- RACK_BLOCK_REPLAY (R381): A rack block with a bad CRC or a SEQ gap is replayed after a NAK. -/
  | rackBlockReplay (r : PortReplay)
  /-- RACK_PORT_DOWN (R381): No valid block for 20 µs, or 8 failed replays, takes the port down. -/
  | rackPortDown (k : RackId)
  /-- RACK_RETRAIN (R381): A down rack port retrains every rack.retrain_ms. -/
  | rackRetrain (k : RackId) (width : Option Nat)
  /-- IDENTITY_BLOCK (R382): A trained port exchanges identities and comes up only on the right peer. -/
  | identityBlock (k : RackId) (id : RackIdentity)
  /-- OP_READ (R384): An endpoint deduplicates and performs a rack read. -/
  | opRead (m : RackMsg)
  /-- OP_WRITE (R384): An endpoint deduplicates and performs a rack write. -/
  | opWrite (m : RackMsg)
  /-- OP_CONTROL (R387): An endpoint delivers 32 DEVCMD bytes to its message ring. -/
  | opControl (m : RackMsg)
  /-- OP_SENSE (R387): An endpoint returns its 64-byte status record. -/
  | opSense (m : RackMsg)
  /-- ABORT (R384): An endpoint stops a performing operation, or sends the held result again. -/
  | abort (m : RackMsg)
  /-- RACK_DATA (R384): An endpoint or source receives data flits of an operation. -/
  | rackData (m : RackMsg)
  /-- RESULT (R383): The source receives a rack result and ends the ledger entry. -/
  | result (m : RackMsg)
  /-- CLEAR (R384): An endpoint frees a deduplication entry. -/
  | clear (m : RackMsg)
  /-- RETRY_LATER (R384): The source waits the hint and resends the same attempt. -/
  | retryLater (m : RackMsg)
  /-- DEDUP_ENTRY_EXPIRE (R384): A DONE deduplication entry without CLEAR is freed after 3,600 s. -/
  | dedupEntryExpire (tag : Nat)
  /-- RACK_OPERATION_TIMEOUT (R385): A rack operation not TERMINAL 3,000 s after first issue ends outcome-unknown. -/
  | rackOperationTimeout (slot : SlotId)
  /-- HIST_CAP (R398): A 16-byte store sets the tenant page's history capability valid or invalid. -/
  | histCap (pg : PageId) (c : Cap)
  /-- KEY_COMMIT (R396): KEY_CTL with CLEAR 0 moves KEY_DATA into a key slot and zeroes KEY_DATA. -/
  | keyCommit (pg : PageId) (w : Word)
  /-- KEY_CLEAR (R396): KEY_CTL with CLEAR 1 empties a key slot. -/
  | keyClear (pg : PageId) (w : Word)
  /-- PC_UNIT_IDLE_OFF (R392): A skein press or cipher unit idle for pc.idle_off_us powers off. -/
  | pcUnitIdleOff (sk : SkId) (u : PcUnit)
  /-- CONTEXT_RECALL (R409): The hub recalls a tenant context from the skein holding it, after its fasten. -/
  | contextRecall (pg : PageId) (u : PcUnit)
  /-- UNIT_MISMATCH (R421): A press or cipher unit mismatch repeats the work, and three within 1 ms take the unit out of service. -/
  | unitMismatch (sk : SkId) (u : PcUnit)
  /-- ENTROPY_HEALTH_FAIL (R411): The entropy source fails its health test and the cipher unit starts no block. -/
  | entropyHealthFail (sk : SkId)
  /-- CONTEXT_UNCORRECTABLE (R422): An uncorrectable context word loses the page context. -/
  | contextUncorrectable (pg : PageId)
  /-- FAULT_EVENT (R430): The collector counts an event, computes its severity with carries, logs it and applies its reaction. -/
  | faultEvent (e : EventIn)
  /-- COUNTDOWN_EXPIRE (R433): An unacknowledged countdown expires and the hub applies the next rung. -/
  | countdownExpire (seq : Nat)
  /-- FAULT_FORCE (R439): In Service mode, a store raises REPEAT forced events of a named source. -/
  | faultForce (w : Word)
  /-- FAULT_CARRY_CLR (R431): A store clears the carries of a group or of every instance of a block. -/
  | faultCarryClr (w : Word)
  /-- SNAP_TRIGGER (R440): A write of 1 to SNAP_CTL TRIGGER requests a snapshot. -/
  | snapTrigger (w : Word)
  /-- SNAPSHOT_DRAIN_COMPLETE (R441): The latched registers are in an MRAM slot, and a merged pending snapshot starts. -/
  | snapshotDrainComplete
  /-- LOG_SECOND_BOUNDARY (R443): A new timebase second begins; source 0x0C06 reports any records suppressed. -/
  | logSecondBoundary
  /-- SERVICE_LIMIT_EXPIRE (R438): Service mode lasting fault.service_limit_s is left as if on SERVICE_EXIT. -/
  | serviceLimitExpire
  /-- JALIF_MISMATCH (R425): Jalif's halves disagree; it restores and repeats, and a third within 1 ms is reel-fatal. -/
  | jalifMismatch
  /-- HUB_COMPARE_MISMATCH (R425): A twin-compared hub control block disagrees, which is reel-fatal. -/
  | hubCompareMismatch (block : Nat)
  /-- PARAM_READ (R461): Returns 32 bytes of a parameter's effective value and any pending value. -/
  | paramRead (mb : Mb) (id : Nat) (idx : Nat) (off : Nat)
  /-- REEL_INFO (R456): Returns the reel number, life state, versions and configuration generation. -/
  | reelInfo (mb : Mb)
  /-- FAULT_ACK (R435): Acknowledges an active record and stops its following countdown. -/
  | faultAck (mb : Mb) (seq : Nat)
  /-- FAULT_CLEAR (R435): Clears an active record within the caller's authority. -/
  | faultClear (mb : Mb) (seq : Nat)
  /-- FAULT_READ (R444): Copies the partition's own fault records to its buffer. -/
  | faultRead (mb : Mb) (buf : Buf) (first : Nat) (count : Nat)
  /-- OPEN_CHANGE (R462): Opens the change set. -/
  | openChange (mb : Mb)
  /-- STAGE (R463): Checks and stages one parameter value in the open set. -/
  | stage (mb : Mb) (id : Nat) (idx : Nat) (val : Nat)
  /-- CHECK (R464): Tests the staged configuration against the CHECK rules. -/
  | check (mb : Mb)
  /-- COMMIT (R465): Rechecks the set and loads the staged values into each die's staging fields. -/
  | commit (mb : Mb)
  /-- COMMIT_STAGING_ACK (R465): All dies acknowledge their loads and the commit's tally pulse is scheduled. -/
  | commitStagingAck (die : DieId)
  /-- COMMIT_ACK_TIMEOUT (R465): An admitted die fails to acknowledge within 1 ms; the commit is ABORTED. -/
  | commitAckTimeout
  /-- ABORT_CHANGE (R462): Discards the open or checked set. -/
  | abortChange (mb : Mb)
  /-- CHANGE_IDLE_EXPIRE (R463): A set idle for cfg.change_idle_s is aborted with notice 2. -/
  | changeIdleExpire
  /-- CHANGE_STATUS (R456): Returns the change set's state. -/
  | changeStatus (mb : Mb)
  /-- CENSUS (R467): Reads every die's digest and generation and reports the differences. -/
  | census (mb : Mb)
  /-- FREEZE (R470): Stops a partition's or page's spindles, contexts and channel work at their freeze points. -/
  | freeze (mb : Mb) (scope : Nat) (target : Nat)
  /-- FREEZE_COMPLETE (R31): Every covered spindle and context has stopped, and Jalif answers the freeze. -/
  | freezeComplete (scope : Nat) (target : Nat)
  /-- THAW (R470): Resumes a frozen target, or ends a freeze in progress. -/
  | thaw (mb : Mb) (scope : Nat) (target : Nat)
  /-- SPINDLE_SAVE (R471): Writes an encrypted image of a frozen spindle's state. -/
  | spindleSave (mb : Mb) (sp : Nat) (key : Nat) (buf : Buf) (rel : Bool)
  /-- SPINDLE_RESTORE (R471): Loads a verified spindle image, tagging only what the partition could grant. -/
  | spindleRestore (mb : Mb) (sp : Nat) (buf : Buf)
  /-- TENANT_SAVE (R416): Writes an encrypted context image of a frozen tenant page. -/
  | tenantSave (mb : Mb) (c : Cap) (buf : Buf) (rel : Bool)
  /-- TENANT_RESTORE (R418): Loads a verified, unreplayed context image into a frozen page. -/
  | tenantRestore (mb : Mb) (c : Cap) (buf : Buf)
  /-- CHANNEL_EXPORT (R361): Exports a frozen page's FROZEN and TERMINAL ledger entries. -/
  | channelExport (mb : Mb) (pg : Nat) (buf : Buf)
  /-- CHANNEL_IMPORT (R361): Re-enters exported entries on the destination reel. -/
  | channelImport (mb : Mb) (pg : Nat) (buf : Buf)
  /-- TAGS_SAVE (R471): Records every tagged granule of a range. -/
  | tagsSave (mb : Mb) (addr : Nat) (len : Nat) (key : Nat) (buf : Buf)
  /-- TAGS_RESTORE (R471): Sets tags on granules that match and are allowed. -/
  | tagsRestore (mb : Mb) (addr : Nat) (len : Nat) (buf : Buf)
  /-- MIGRATION_KEY_SET (R417): Provisions a migration key and returns its KCV. -/
  | migrationKeySet (mb : Mb) (key : Nat) (val : BitVec 256)
  /-- MIGRATION_KEY_CLEAR (R417): Removes a migration key. -/
  | migrationKeyClear (mb : Mb) (key : Nat)
  /-- SPINDLE_RESTART (R469): Resumes a stopped spindle from its kept state or its save slot. -/
  | spindleRestart (mb : Mb) (sp : Nat) (fromSlot : Bool)
  /-- SPINDLE_RELEASE (R469): Discards a spindle's state and starts it from the start record. -/
  | spindleRelease (mb : Mb) (sp : Nat)
  /-- SPINDLE_SLOT_READ (R143): Copies a spindle's save-slot state to a buffer. -/
  | spindleSlotRead (mb : Mb) (sp : Nat) (buf : Buf)
  /-- SPINDLE_MOVE (R469): Moves a spindle to a named skein by the sparing steps. -/
  | spindleMove (mb : Mb) (sp : Nat) (sk : Nat) (dest : Option (Nat × Nat))
  /-- SERVICE_ENTER (R438): Enters Service mode. -/
  | serviceEnter (mb : Mb)
  /-- SERVICE_EXIT (R438): Leaves Service mode, disarms flip-masks and zeroes trace data. -/
  | serviceExit (mb : Mb)
  /-- CMP_TEST (R165): Runs the comparator test on a named spindle's ply and raises notice 5. -/
  | cmpTest (mb : Mb) (sp : Nat)
  /-- CMP_INJECT (R166): Injects real comparator mismatches on a named spindle's ply. -/
  | cmpInject (mb : Mb) (sp : Nat) (group : Nat) (bit : Nat) (count : Nat)
  /-- SNAPSHOT (R440): Requests a snapshot by mailbox. -/
  | snapshot (mb : Mb)
  /-- LOG_READ (R444): Copies fault, memory, reset log or snapshot entries to partition 0. -/
  | logRead (mb : Mb) (log : Nat) (slot : Nat) (start : Nat) (count : Nat) (buf : Buf)
  /-- RETIRE_PAGE (R320): Adds a page to the retire list and applies it at a pulse of its own. -/
  | retirePage (mb : Mb) (addr : Nat)
  /-- MEM_CHANNEL_RETRAIN (R317): Retrains a lost channel and restores it. -/
  | memChannelRetrain (mb : Mb) (ch : Nat)
  /-- RESET_REEL_COLD (R457): Drains the ledger and starts a reel cold reset 1 ms after the answer. -/
  | resetReelCold (mb : Mb)
  /-- RESET_REEL_WARM (R457): Drains the ledger and starts a reel warm reset 1 ms after the answer. -/
  | resetReelWarm (mb : Mb)
  /-- RESET_SKEIN (R457): Resets a skein as a skein loss followed by re-admission. -/
  | resetSkein (mb : Mb) (sk : Nat)
  /-- RESET_RACK_PORT (R495): Resets a rack port's link and credits. -/
  | resetRackPort (mb : Mb) (k : Nat)
  /-- RESET_FLEX_GROUP (R495): Resets a flex group and its devices. -/
  | resetFlexGroup (mb : Mb) (g : Nat)
  /-- BOOT_RECORD_WRITE (R473): Verifies and writes a new boot record, copy first. -/
  | bootRecordWrite (mb : Mb) (buf : Buf)
  /-- BOOT_RECORD_READ (R456): Copies the boot record to a buffer. -/
  | bootRecordRead (mb : Mb) (buf : Buf)
  /-- FIRMWARE_WRITE (R450): Verifies and writes a signed bank into the bank not running. -/
  | firmwareWrite (mb : Mb) (buf : Buf) (img : BankImage)
  /-- OWNER_KEY_FUSE (R473): Fuses the digest of the owner public key once, over the BMC mailbox. -/
  | ownerKeyFuse (mb : Mb) (digest : BitVec 384)
  /-- FIRMWARE_RECOVER (R449): Receives and verifies a bank image over the BMC mailbox in recovery. -/
  | firmwareRecover (mb : Mb) (img : BankImage)
  /-- NOTICE_CONS (R458): A write of NOTICE_CONS frees ring room and held notices are posted. -/
  | noticeCons (p : PartId) (w : Word)
  /-- TALLY_PULSE (R493): At the announced tick every admitted die latches snapshots and then applies the committed set. -/
  | tallyPulse
  /-- PARTITION_RELEASE (R468): Jalif reads a start record and releases the partition's spindles. -/
  | partitionRelease (p : PartId)
  /-- REGISTER_WRITE (R12): A store to a register without a row of its own takes effect by its access code. -/
  | registerWrite (r : Uc)
  /-- BEAD_GRANT (R479): A keeper grants a waiting bead request in priority and arrival order. -/
  | beadGrant (d : DieId)
  /-- GRANT_WAIT_TIMEOUT (R479): A request waiting longer than power.grant_wait_us raises the grant-wait fault. -/
  | grantWaitTimeout (d : DieId)
  /-- STEP_CHANGE_COMPLETE (R480): A ply finishes a frequency step of 0.95 µs and takes the next step of its raise. -/
  | stepChangeComplete (sk : SkId) (pl : PlId)
  /-- WAIT_DROP (R482): A spindle in WAIT for power.wait_drop_us drops its ply to step 0. -/
  | waitDrop (sk : SkId) (pl : PlId)
  /-- TELEMETRY_SAMPLE (R483): Every 100 µs the dies and regulators report temperature, grants and current. -/
  | telemetrySample (t : Telemetry)
  /-- REBALANCE (R483): Every 1 ms the power manager lends, recalls, withdraws and returns beads. -/
  | rebalance
  /-- DOMAIN_POWER_UP_TIMEOUT (R478): A domain not on within 100 µs stays off and is handled as failed. -/
  | domainPowerUpTimeout (d : Nat)
  /-- THERMAL_THROTTLE (R488): A sensor at 95 °C throttles the die in hardware. -/
  | thermalThrottle (d : DieId)
  /-- THROTTLE_RELEASE (R488): The die has stayed below 93 °C for 1 ms and the throttle ends. -/
  | throttleRelease (d : DieId)
  /-- THERMAL_TRIP (R516): A sensor at 105 °C drives THERMTRIP_N low, gates the domains and enters HALT. -/
  | thermalTrip (d : DieId)
  /-- REFCLK_SWITCH (R491): REFCLK_A stops or drifts, and the hub switches to REFCLK_B. -/
  | refclkSwitch
  /-- BOTH_REFERENCES_LOST (R491): Both references fail; after the 100 µs holdover the reel halts. -/
  | bothReferencesLost
  /-- TALLY_MARK_OUT (R494): A source or follower issues an alignment pulse and drives a mark on TALLY_OUT. -/
  | tallyMarkOut
  /-- TALLY_MARK_IN (R494): A follower measures a mark on TALLY_IN and steps or slews its timebase. -/
  | tallyMarkIn (bit : Bool) (off : Int)
  /-- TALLY_MARK_LOSS (R494): A follower with no mark for four periods unlocks and runs free. -/
  | tallyMarkLoss
  /-- PWR_OK_FALL (R510): PWR_OK low takes the reel to OFF within 10 µs. -/
  | pwrOkFall
  /-- RESET_N_FALL (R33): RESET_N low takes the reel to OFF. -/
  | resetNFall
  /-- RESET_N_RISE (R500): With PWR_OK high, the rising RESET_N samples the strap and starts a cold reset and the boot sequence. -/
  | resetNRise (b : BootIn)
  /-- VDD_AON_RISE (R492): Power-on: the timebase starts at 0. -/
  | vddAonRise
  /-- PG_CORE_FALL (R511): A core rail's power-good falls and its skein is lost. -/
  | pgCoreFall (d : DieId)
  /-- PG_AUX_FALL (R511): PG_AUX falls; Jalif finds the rail and applies its outcome. -/
  | pgAuxFall (rail : Nat)
  /-- PMB_ALERT (R512): PMB_ALERT_N low makes Jalif read every regulator's status and raise regulator faults. -/
  | pmbAlert (rails : List Nat)
  /-- SKEIN_READMISSION (R498): A lost skein whose conditions hold is re-admitted: floor grant, training, self-test and configuration. -/
  | skeinReadmission (sk : SkId) (r : AdmitResult)
  /-- BYPASS (R518): The TAP selects the bypass register. -/
  | bypass
  /-- IDCODE (R518): The TAP returns IDCODE 0x1A4E_04D3. -/
  | idcode
  /-- SAMPLE_PRELOAD (R518): The TAP samples or preloads the boundary scan cells. -/
  | samplePreload
  /-- EXTEST (R518): The TAP drives pins by boundary scan, only while RESET_N is low. -/
  | extest
  /-- CLAMP (R518): The TAP clamps outputs, only while RESET_N is low. -/
  | clamp
  /-- HIGHZ (R518): The TAP floats outputs, only while RESET_N is low. -/
  | highz
  /-- PWR_OK_RISE (R33): PWR_OK rises while RESET_N is already high, and the reel leaves OFF for ROM. -/
  | pwrOkRise (b : BootIn)
  /-- RESET_BEGIN (R457): A reel cold or warm reset requested by mailbox begins 1 ms after the RESET answer and runs the boot steps. -/
  | resetBegin (b : BootIn)
  /-- JALIF_WATCHDOG_EXPIRE (R425): Jalif's hardware watchdog expires, raising Jalif lost, which is reel-fatal. -/
  | jalifWatchdogExpire
  /-- RETRY_LATER_WAIT_END (R384): The RETRY_LATER hint elapses and the source resends the same attempt, which is not a redrive. -/
  | retryLaterWaitEnd (slot : SlotId)
  /-- PCIE_CORRECTABLE_ERROR (R374): A flex port or its device reports a correctable PCIe error, which is logged. -/
  | pcieCorrectableError (port : FlexId)
  /-- DOMAIN_POWER_ON_COMPLETE (R478): A power domain's gate reports on after its grant, and the domain (a way, a unit or a PHY) is initialised and admitted to use. -/
  | domainPowerOnComplete (d : Nat)
  /-- RUNTIME_SELF_TEST_COMPLETE (R163): The 300 ms run-time self-test of a follow-the-work ply ends, and the ply returns as a spare or stays failed. -/
  | runtimeSelfTestComplete (sk : SkId) (pl : PlId) (pass : Bool)
  /-- RESERVED_WAY_CLEAN_COMPLETE (R208): On a Loose-to-Fastened switch, both skeins finish cleaning the four ways to be reserved and then take their first barrier. -/
  | reservedWayCleanComplete (sk : SkId)
  /-- ENTROPY_TEST_PASS (R411): The entropy source passes its health test again, and the cipher unit resumes starting blocks. -/
  | entropyTestPass (sk : SkId)
  /-- GUEST_LINK_TRAINING (R287): A guest UCIe link trains after guest.enable is set, and it unfences the site or fails below 16 GT/s or x32. -/
  | guestLinkTraining (site : SiteId) (r : GuestTrain)
deriving DecidableEq, Repr

end Sys2Proof
end

