-- ==== Sys2Proof/Config.lean ====
section
/-!
DEFINITION. What the spec leaves to the outside or to each part: values without a body, so that no proof can see one.
-/

namespace Sys2Proof

/-- The k-th 64-bit value that an entropy source delivers (R150, R411): free (log 9). -/
opaque Config.entropy : Nat → BitVec 64

/-- A byte that the spec does not state, for the k-th free value taken (log 9, log 11). -/
opaque Config.freeByte : Nat → BitVec 8

/-- A 64-bit value that the spec does not state, for the k-th free value taken (log 9). -/
opaque Config.freeWord : Nat → BitVec 64

/-- The DEFLATE block that the press unit chooses for the k-th block it writes (R405, R406): free among the blocks that
decode to the input (log 11). -/
opaque Config.deflateBlock : Nat → List Bool

/-- Byte j of the frame that a hub press lane writes for a segment, for the k-th free value: the stream is the lane's choice, as
the press unit's is (R405, R414; log 11, log 97). -/
opaque Config.laneByte : Nat → Nat → BitVec 8

/-- The result of a DRRND whose rounding leaves the range of the format, for the operand, the digit count and the
attribute: the spec states none (log 17). -/
opaque Config.drrndRange : BitVec 128 → Nat → Nat → BitVec 128

/-- The bytes that a long operation under Constant-time mode has done by its next progress point, 1,024 cycles on, for the
k-th free value: the count of cycles is not modelled (R139, R412; log 6). -/
opaque Config.ctBytes : Nat → Nat

/-- Whether a bundle that was fetched ahead of issue executes as its old bytes, for the k-th free value: the spec allows the old
and the new ones (R216; log 94). -/
opaque Config.staleFetch : Nat → Bool

/-- The DETAIL of a fault event whose source's rule states none, for the source and the k-th free value (R426; log 9). -/
opaque Config.faultDetail : Nat → Nat → BitVec 64

/-- The row of a block's fault group under which a store of a reserved encoding is recorded, for the block and the k-th free
value (R14): the spec lists no source for it (log 9). -/
opaque Config.reservedSource : Nat → Nat → Nat

/-- What a load from PCIe configuration space returns, for its offset and the k-th free value (R371): the devices' own
registers, which the spec does not give (log 9). -/
opaque Config.configSpace : Nat → Nat → BitVec 64

/-- Rank, 3DS die, bank group, bank, row and column of a channel's line, as bits 42 to 5 of param 0x0A12 (R328): the spec
does not say how a DIMM's lines are laid out (log 9). -/
opaque Config.locate : Nat → Nat → Nat

/-- The k-th 64-bit field that the decrypted body of another reel's image gives, where the spec states no layout of it (R416,
R471; log 9). -/
opaque Config.bodyWord : List Nat → Nat → BitVec 64

/-- The k-th string of bytes that such a body gives. -/
opaque Config.bodyBytes : List Nat → Nat → List (BitVec 8)

/-- Where the hub's search for a free ledger slot begins, for the k-th free value (R336): the spec names no order (log 9). -/
opaque Config.ledgerStart : Nat → Nat

/-- The k-th estimate, in fabric cycles, of the time until an obstacle clears, as the hint of a NACK gives it (R184, R247): the
spec gives no formula (log 31). -/
opaque Config.retryHint : Nat → BitVec 16

/-- Where in its skein's journal area the hub keeps the copy of a line, in lines, for the skein and the line: the spec does not say
(R193, R300; log 98). -/
opaque Config.journalPlace : Nat → Nat → Nat

/-- Where in the reserve's 16 MiB of images the hub keeps a spindle's image, in images of 4 KiB: the spec does not say (R300;
log 98). -/
opaque Config.imagePlace : Nat → Nat

/-- What a read gives for byte j of a log entry or snapshot slot that is marked unreadable, for the entry's MRAM offset: the spec
gives the mark no form (R444; log 99). -/
opaque Config.unreadable : Nat → Nat → BitVec 8

/-- SHA-384 (FIPS 180-4), which the spec uses and does not restate (R473; log 10). -/
opaque Config.sha384 : List (BitVec 8) → BitVec 384

/-- Whether an ECDSA P-384 signature over SHA-384 of a message verifies under a public key, for the key, the message and the
signature (FIPS 186-5; R472, R473; log 10). -/
opaque Config.ecdsaOk : List (BitVec 8) → List (BitVec 8) → List (BitVec 8) → Bool

end Sys2Proof
end

