-- ==== Sys2Proof/Machine/State.lean ====
section
/-!
DEFINITION. The state of the reel as plain data: every register, memory, queue, counter and pin that the spec names, and
the reasons a step can stop. INVENTORY.md lists every field with the rule that names it and its reset value.
-/

namespace Sys2Proof.Machine

/-- The package life states (R33). -/
inductive Life where
  | off | rom | fill | staged | run | degraded | halt
deriving DecidableEq, Repr

/-- The fasten states of a held line (R182). -/
inductive FState where
  | clean | fastenedDirty | unfastened | closing
deriving DecidableEq, Repr

/-- The right with which a skein holds a line (R243). -/
inductive Own where
  | shared | exclusive | modified
deriving DecidableEq, Repr

/-- The states of a ledger entry (R342). -/
inductive LState where
  | free | queued | active | issuing | issued | redrive | terminal | frozen
deriving DecidableEq, Repr

/-- What an operation in flight still awaits (R60). -/
inductive OpKind where
  /-- nothing but its latency: the result is known -/
  | value
  /-- a load of n bytes: its line (R217), with the place of the access in the spindle's order -/
  | load (addr n : Nat) (signed keep : Bool) (order : Nat)
  /-- an atomic: its line with ownership (R256) -/
  | atomic (op addr n : Nat) (d e : BitVec 128) (order : Nat)
  /-- the answer to an uncached load of n bytes, with its place in the spindle's order, or with n 0 the answer to a request
  to a guest (R76, R187, R260) -/
  | answer (addr n : Nat) (signed : Bool) (order : Nat)
  /-- a cache operation over a range, or on one way, in the controllers of the skein and ply that issued it (R226 to R233) -/
  | cacheop (cop addr len way : Nat) (l3 : Bool) (skein ply : Nat)
  /-- the commit of an epoch (R190) -/
  | fasten (epoch : Nat)
  /-- the performance of earlier accesses and, where epoch is not 0, the fasten of that epoch (R259) -/
  | fence (order epoch : Nat)
  /-- the end of every earlier operation (R135) -/
  | sync
  /-- a FINISH of unit 18 or 19 on a tenant page, its capabilities latched (R403) -/
  | finish (page gen : Nat) (src dst : Cap)
  /-- the end of a WAIT (R135) -/
  | wait (until_ : Word)
deriving DecidableEq, Repr

/-- The kinds of serial output (R187). -/
inductive SerialKind where
  | ucStore | ucLoad | cop | cacheop
deriving DecidableEq, Repr

/-- What a bead request is for (R479). -/
inductive BeadFor where
  | ply (skein ply : Nat) | step (skein ply goal : Nat) | domain (n : Nat) | l2Way (skein ply way : Nat)
  | pcUnit (skein : Nat) (cipher : Bool) | l3Way (skein way : Nat) | floor (skein : Nat) | edge (skein : Nat)
deriving DecidableEq, Repr

/-- A reaction that an event calls for (R427, R433): the rest of the command carries it out. -/
inductive React where
  /-- another event, with the rung it reports (R433) -/
  | event (e : EventIn) (rung : Nat)
  /-- stop a spindle, with the CAUSE of R458, the SEQ of the record and the TSB_CAUSE of a double event -/
  | stop (sp cause seq tsbCause : Nat)
  /-- stop every spindle of a partition (rung 2) -/
  | stopPart (part seq : Nat)
  /-- the skein is lost (rung 3, R197) -/
  | loseSkein (skein : Nat) (why : LossCause)
  /-- HALT (rung 4) -/
  | halt
  /-- the snapshot of a reel-fatal event (R440) -/
  | fatalSnap (source seq : Nat)
deriving DecidableEq, Repr

/-- The sockets of one move-architecture unit (R58, R65), the result's poison marker beside it (R130). -/
structure UnitSock where
  /-- Operand 0 (R58, R59). -/
  o0 : Cap := .zero
  /-- Operand 1 (R58, R524). -/
  o1 : Cap := .zero
  /-- Result socket (R58, R61). -/
  r : Cap := .zero
  /-- Status socket (R62, R65). -/
  st : Word := 0
  /-- Line number of the poisoned line the result came from (units 10, 11) (R130). -/
  poison : Option Nat := none
deriving DecidableEq, Repr

/-- The unit progress area of R139. -/
structure Progress where
  /-- UNIT: 8, 17, 18, 19, or 0 for none (R139). -/
  unit : Nat := 0
  /-- DONE (R139). -/
  done : Nat := 0
  /-- REMAIN (R139). -/
  remain : Nat := 0
  /-- CONTEXT: tenant page in [11:0], generation in [63:32] (place of the two: log 16) (R139). -/
  ctx : Word := 0
  /-- SRC as latched (R139). -/
  src : Cap := .zero
  /-- DST as latched (R139). -/
  dst : Cap := .zero
  /-- Unit-specific state (BFILL's fill byte, DLDIV's partial remainder, the output count of a press or cipher operation) (R139). -/
  ustate : BitVec 1536 := 0
deriving DecidableEq, Repr

/-- The architectural state that the TSB saves (R122). -/
structure Arch where
  /-- General registers (R55). -/
  g : Tbl Word := []
  /-- Capability registers (R55, R119). -/
  c : Tbl Cap := []
  /-- Predicates; p0 is bit 0 and reads 1 (R54). -/
  p : BitVec 16 := 1
  /-- CODECAP (R56, R119). -/
  codecap : Cap := .zero
  /-- MODE PRECISE (R57). -/
  precise : Bool := false
  /-- MODE CONST_TIME (R57). -/
  constTime : Bool := false
  /-- IMASK, with TSB_BUSY and SLOT_BUSY in bits 16 and 17 (R132). -/
  imask : Word := 0x110
  /-- LOOP_START k (R56). -/
  loopStart : Tbl Word := []
  /-- LOOP_END k (R56). -/
  loopEnd : Tbl Word := []
  /-- LOOP_COUNT k (R56). -/
  loopCount : Tbl Word := []
  /-- LOOP_DEPTH (R56, R71). -/
  loopDepth : Nat := 0
  /-- DEADLINE (R135). -/
  deadline : Word := 0
  /-- Unit sockets (R58, R65). -/
  units : Tbl UnitSock := []
  /-- ARITH_BA of the pending imprecise record (R102). -/
  pendBa : Word := 0
  /-- ARITH_INFO of the pending imprecise record; 0 when none (R102). -/
  pendInfo : Word := 0
  /-- Long-operation progress (R139). -/
  progress : Progress := {}
deriving DecidableEq, Repr

/-- A delivered state as the TSB or the save slot holds it (R122). -/
structure Saved where
  /-- The registers (R122). -/
  arch : Arch := {}
  /-- EVENT_CODE (R122). -/
  eventCode : Word := 0
  /-- SAVED_BA (R122, R127). -/
  savedBa : Word := 0
  /-- FLAGS (R122). -/
  flags : Word := 0
  /-- FAULT_ADDR (R120). -/
  faultAddr : Word := 0
  /-- FAULT_INFO (R120). -/
  faultInfo : Word := 0
  /-- ARITH_BA (R100). -/
  arithBa : Word := 0
  /-- ARITH_INFO (R100). -/
  arithInfo : Word := 0
deriving DecidableEq, Repr

/-- One operation in flight on a unit (R60): its result is entered when it completes. -/
structure OpRec where
  /-- Unit number (R60). -/
  unit : Nat := 0
  /-- Trigger socket 4 to 15 (R60). -/
  trig : Nat := 0
  /-- What is still awaited (R60). -/
  kind : OpKind := .value
  /-- The result, where known (R58). -/
  res : Cap := .zero
  /-- Status bits the completion sets (R98). -/
  orSt : Word := 0
  /-- Status bits the completion clears first (C, UO) (R79, R88). -/
  clrSt : Word := 0
  /-- Causes that enter the pending record, as ARITH_INFO bits (R102). -/
  cause : Word := 0
  /-- Causes delivered precisely, as ARITH_INFO bits (R101). -/
  pcause : Word := 0
  /-- No later bundle issues until it completes (R101, R104). -/
  serial : Bool := false
  /-- A sync point waits for it (R103). -/
  arith : Bool := false
  /-- It was triggered while PRECISE was 0, so that its causes enter the pending record (R104). -/
  imprec : Bool := false
  /-- It was triggered before the operation that ARITH_BA of the pending record names (R100). -/
  early : Bool := false
  /-- Its initiation interval equals its latency (R66, R105). -/
  excl : Bool := false
  /-- Address of the trigger bundle (R100). -/
  ba : Word := 0
  /-- Predicate the compare writes; 0 none (R87). -/
  pred : Nat := 0
  /-- Poisoned line the result came from (R130). -/
  poison : Option Nat := none
  /-- Sequence number of the serial output that it makes (R188). -/
  ser : BitVec 48 := 0
  /-- Published latency in ply cycles (R66, R82, R84, R105). -/
  lat : Nat := 0
deriving DecidableEq, Repr

/-- A retired store that waits for ownership of its line (R145, R176). -/
structure StoreRec where
  /-- Byte address (R176). -/
  addr : Nat := 0
  /-- Order among the spindle's accesses, the MODEL's own (R258). -/
  order : Nat := 0
  /-- Bytes, 1 to 128 (R176). -/
  n : Nat := 0
  /-- Bytes, the lowest first (R176). -/
  data : BitVec 1024 := 0
  /-- The granule's tag (STCAP) (R114). -/
  tag : Bool := false
  /-- STCAP (R114). -/
  isCap : Bool := false
  /-- Tags of a whole-line store by the TSB save (R121). -/
  tags : BitVec 8 := 0
deriving DecidableEq, Repr

/-- A pending serial output of a spindle (R187, R188). -/
structure Serial where
  /-- Store, load, coprocessor request or cache operation (R187). -/
  kind : SerialKind := .ucStore
  /-- Sequence number (R188). -/
  seq : BitVec 48 := 0
  /-- Byte address (unit and trigger for a coprocessor request) (R187). -/
  addr : Nat := 0
  /-- Bytes (R187). -/
  size : Nat := 0
  /-- Data, or operand 0 and operand 1 (R187). -/
  data : BitVec 256 := 0
  /-- The tag of an STCAP (R335). -/
  tag : Bool := false
  /-- Trigger socket, modifier and the 84 opaque bits (R73). -/
  extra : BitVec 128 := 0
  /-- Epoch whose completed fasten releases it; 0 when it may leave (R187). -/
  waitEpoch : Nat := 0
  /-- The output has left the skein (R187). -/
  sent : Bool := false
  /-- Tick at which it left (R371). -/
  sentAt : Nat := 0
  /-- Order of an uncached access among the spindle's, the MODEL's own (R260). -/
  order : Nat := 0
deriving DecidableEq, Repr

/-- The ply and fibre that host a spindle (R16, R174). -/
structure Place where
  /-- Skein (R174). -/
  skein : Nat := 0
  /-- Ply (R174). -/
  ply : Nat := 0
  /-- 0 A, 1 B (R174). -/
  fibre : Nat := 0
deriving DecidableEq, Repr

/-- A spindle: its architectural state (R153) and where it runs. -/
structure Spindle where
  /-- The state the TSB saves (R153). -/
  arch : Arch := {}
  /-- TSB (R56, R119). -/
  tsb : Cap := .zero
  /-- TDT (R56, R119). -/
  tdt : Cap := .zero
  /-- EVENT_BASE (R56, R119). -/
  eventBase : Cap := .zero
  /-- Address of the next bundle to issue (R56, R68). -/
  ba : Word := 0
  /-- A precise arithmetic event due: ARITH_BA and ARITH_INFO (R101, R137). -/
  precPend : Option (Word × Word) := none
  /-- Order of the spindle's accesses, the MODEL's own count (R258). -/
  memSeq : Nat := 0
  /-- Interrupt pending bits (R133). -/
  intPending : BitVec 256 := 0
  /-- Hardware notice 1 pending (R128). -/
  notice1 : Bool := false
  /-- Hardware notice 2 pending (R128). -/
  notice2 : Bool := false
  /-- Hardware notice 5 pending, with the mask of groups (R128, R165). -/
  notice5 : Option Word := none
  /-- Hardware event 3 due (R128, R163). -/
  exhausted : Bool := false
  /-- Operations in flight, in trigger order (R60, R151). -/
  ops : List OpRec := []
  /-- Retired stores waiting for ownership, oldest first (R176, R261). -/
  stores : List StoreRec := []
  /-- Pending serial output (R187, R188). -/
  serial : Option Serial := none
  /-- Further serial outputs of the same bundle, in slot order (R187, R188). -/
  serialNext : List Serial := []
  /-- Sequence number of the last serial output (R188). -/
  serialSeq : BitVec 48 := 0
  /-- Trigger socket of the long operation in progress (R72). -/
  longTrig : Nat := 0
  /-- Slot of its trigger move (R120). -/
  longSlot : Nat := 0
  /-- Modifier of its trigger move (R64). -/
  longMod : Nat := 0
  /-- PRECISE as it held when its trigger issued (R57, R104). -/
  longPrec : Bool := false
  /-- CONST_TIME as it held when its trigger issued (R57, R105). -/
  longCt : Bool := false
  /-- A long operation runs (R72, R155). -/
  longOn : Bool := false
  /-- Bundles fetched ahead of issue, with their addresses (R216). -/
  ahead : List (Word × BitVec 128) := []
  /-- RESUME_PENDING read back at a return (R140). -/
  resume : Bool := false
  /-- The reserved save slot (R142, R152). -/
  slot : Option Saved := none
  /-- A WAIT stalls the spindle until this tick (R135). -/
  waitUntil : Option Nat := none
  /-- Tick at which the last WAIT began (R482). -/
  waitFrom : Nat := 0
  /-- A system call whose bundle has retired and which is not yet delivered (R131, R136). -/
  trapPend : Option Nat := none
  /-- Target and CODECAP of a transfer that the bundle of the running long operation made (R72). -/
  longJump : Option (Word × Cap) := none
  /-- System call that the bundle of the running long operation made (R72). -/
  longTrap : Option Nat := none
  /-- Hosting ply and fibre (R174). -/
  host : Option Place := none
  /-- The spindle has been released (R35, R119). -/
  released : Bool := false
  /-- 0 running, else the CAUSE of R458 for which it is stopped (R143, R434, R458). -/
  stopped : Nat := 0
  /-- Frozen (R470). -/
  frozen : Bool := false
  /-- A freeze request not yet at its freeze point (R470). -/
  freezeReq : Bool := false
  /-- Suspended for want of a place (R162, R203). -/
  suspended : Bool := false
  /-- A move is under way (R160). -/
  moving : Bool := false
  /-- Slot of the SPINDLE_MOVE command to answer (50 * slot + page) (R469). -/
  moveMb : Option Nat := none
  /-- Epoch that the source skein commits before a cross-skein move ends; 0 for none (R160). -/
  moveEpoch : Nat := 0
  /-- Destination of the move (R160). -/
  target : Option Place := none
  /-- Frozen with no saved state (R466, R471). -/
  noSave : Bool := false
  /-- Skein whose loss took its place (R201). -/
  lostFrom : Option Nat := none
  /-- Epoch of the image it was re-hosted from (R202). -/
  saved2 : Nat := 0
  /-- First epoch of its skein that includes it (R202). -/
  firstEpoch : Nat := 0
deriving DecidableEq, Repr

/-- One slot of an L2 or L3 set (R217). -/
structure CacheSlot where
  /-- Line number + 1; 0 empty (R217). -/
  line : Nat := 0
  /-- Re-reference value (R217). -/
  rrpv : Nat := 0
  /-- The access that filled it has not yet been served (R220). -/
  fresh : Bool := false
deriving DecidableEq, Repr

/-- A ply of a skein (R15, R174). -/
structure Ply where
  /-- 0 hosting, 1 warm spare, 2 cold spare, 3 failed, 4 testing, 5 moving, 6 excluded at start-up (R174). -/
  state : Nat := 6
  /-- Timebase stamps of the most recent retries (R157). -/
  stamps : List Nat := []
  /-- Bundle addresses of the counted retries (R163). -/
  retryBas : List Word := []
  /-- Retries, saturating (R174). -/
  retryTotal : Nat := 0
  /-- Mask of groups flagged at the last comparator test (R174). -/
  cmpMask : Word := 0
  /-- VERSION of the loaded draft image (R174). -/
  draftVersion : Nat := 0
  /-- Failed loads in a row (R168, R170). -/
  draftLoads : Nat := 0
  /-- The draft store: the microcode words loaded (R167). -/
  draft : List Word := []
  /-- Tick at which a moved spindle began issuing here (R163). -/
  movedAt : Nat := 0
  /-- Ply index the spindle moved from (R163). -/
  movedFrom : Option Nat := none
  /-- Bundle addresses of the failed ply's counted retries (R163). -/
  fromBas : List Word := []
  /-- Tick at which the ply was declared failed (R162). -/
  failedAt : Nat := 0
  /-- Comparator injections still to make (R166). -/
  inject : Nat := 0
  /-- Group of the injections (R166). -/
  injectGroup : Nat := 0
  /-- Bit of the injections (R166). -/
  injectBit : Nat := 0
  /-- Frequency step; 15 while the ply is off (R476, R503). -/
  step : Nat := 15
  /-- Step granted and not yet reached (R480). -/
  wantStep : Nat := 15
  /-- 0 enabled, 1 draining, 2 disabled (R239). -/
  l2State : Nat := 0
  /-- A disable or way power-down is cleaning (R239). -/
  cleaning : Bool := false
  /-- L2 ways powered (R239). -/
  l2On : BitVec 16 := 0xFFFF
  /-- L2 ways being powered down (R236). -/
  l2Off : BitVec 16 := 0
  /-- L2 ways granted whose gates are not yet on; bit 16 the whole cache (R236, R478). -/
  l2Wait : BitVec 17 := 0
  /-- Way to partition + 1 holding its lock (R232). -/
  l2Lock : Tbl Nat := []
  /-- Corrected chunks, saturating (R239). -/
  corrected : Nat := 0
  /-- The L2 itself is taken as failed (R162). -/
  l2Failed : Bool := false
  /-- A comparator test or self-test is under way (R163, R165). -/
  testPend : Bool := false
  /-- Spindle for which CMP_TEST runs (R165). -/
  testFor : Option Nat := none
  /-- Mailbox slot that awaits the CMP_TEST (50 * slot + page) (R165). -/
  testMb : Option Nat := none
  /-- L2 slots by set * 16 + way (R213). -/
  l2 : Tbl CacheSlot := []
  /-- Prefetch side buffer, oldest first (R213, R218). -/
  sb : List Nat := []
  /-- Tick + 1 at which each line of the side buffer came (R219). -/
  sbAt : Tbl Nat := []
  /-- L1 slots by ((2 * fibre + side) * 128 + set) * 8 + way, side 0 L1D and 1 L1I: line number + 1 (R213). -/
  l1 : Tbl Nat := []
  /-- Tree pseudo-LRU bits by (2 * fibre + side) * 128 + set (R217). -/
  l1t : Tbl (BitVec 7) := []
  /-- The last L2 miss of each fibre, as line number + 1, and the one before it (R218). -/
  strides : Tbl Nat := []
  /-- Tick at which a cleaning began (R237). -/
  cleanAt : Nat := 0
deriving DecidableEq, Repr

/-- A line that a skein holds: value, fasten state (R182) and coherence right (R243). -/
structure SkLine where
  /-- Data, tags and poison marker (R182). -/
  val : LineVal := .zero
  /-- Clean, fastened-dirty, unfastened or closing (R182). -/
  fst : FState := .clean
  /-- Shared, exclusive or modified (R243). -/
  own : Own := .shared
  /-- The doubling engine has not yet sent the line: a write of it stalls (R178, R526). -/
  due : Bool := false
  /-- Plies whose L2 holds the line (R213, R245). -/
  l2 : BitVec 20 := 0
  /-- Plies whose side buffer holds the line (R218, R245). -/
  sbh : BitVec 20 := 0
  /-- Fibres whose L1D holds the line (R213, R215). -/
  l1d : BitVec 40 := 0
  /-- Fibres whose L1I holds the line (R213, R216). -/
  l1i : BitVec 40 := 0
  /-- The L3 holds the line (R214). -/
  l3 : Bool := false
  /-- The request's own buffer holds the line: no cache allocates it, or a lock-fill is to place it (R233, R235). -/
  buf : Bool := false
  /-- Plies in whose L2 it was hit after the access that filled it (R220). -/
  hit : BitVec 20 := 0
  /-- 0 none, 1 held on a timer, 2 held for a top-age request (R185). -/
  hold : Nat := 0
  /-- 0 none, 1 a snoop was NACKed, 2 by a top-age request (R184, R185). -/
  nacked : Nat := 0
  /-- Epoch whose fasten the NACKed snoop waits on (R185). -/
  nackEpoch : Nat := 0
  /-- Tick at which the hold began (R185). -/
  holdAt : Nat := 0
deriving DecidableEq, Repr

/-- A doubled line in the buddy's reserved ways (R191). -/
structure Dbl where
  /-- Committed copy (R191). -/
  cVal : Option LineVal := none
  /-- Epoch of the committed copy (R192). -/
  cAge : Nat := 0
  /-- Pending copy (R191). -/
  pVal : Option LineVal := none
deriving DecidableEq, Repr

/-- A fasten image of a spindle (R176, R191). -/
structure Image where
  /-- The state at the barrier (R191). -/
  sp : Spindle := {}
  /-- Its epoch (R191). -/
  epoch : Nat := 0
  /-- Its copies in the hub reserve were both uncorrectable (R322). -/
  bad : Bool := false
deriving DecidableEq, Repr

/-- A fabric probe (R285, R286). -/
structure Probe where
  /-- PROBE_CTL (R286). -/
  ctl : Word := 0
  /-- PROBE_MATCH (R286). -/
  mtch : BitVec 128 := 0
  /-- PROBE_MASK (R286). -/
  mask : BitVec 128 := 0
  /-- PROBE_COUNT (R286). -/
  count : Nat := 0
  /-- PROBE_THRESH with SPINDLE (R286). -/
  thresh : Word := 0
deriving DecidableEq, Repr

/-- The trace buffer of a die (R286). -/
structure Trace where
  /-- Entries (R286). -/
  buf : Tbl (BitVec 128) := []
  /-- Entry holds captured data (R286). -/
  isData : Tbl Bool := []
  /-- TRACE_PTR NEXT (R286). -/
  next : Nat := 0
  /-- TRACE_PTR WRAPPED (R286). -/
  wrapped : Bool := false
deriving DecidableEq, Repr

/-- A request of a skein to a home slice that is not yet served (R247, R249). -/
structure Req where
  /-- The request as sent, with its age (R271). -/
  pkt : Packet := {}
  /-- Ply that needs the line (R217). -/
  ply : Nat := 0
  /-- It is a prefetch (R218). -/
  pf : Bool := false
  /-- It is that of a lock-fill (R233). -/
  lock : Bool := false
  /-- It waits to be sent again (R247, R249). -/
  wait : Bool := false
  /-- Tick before which it is not sent again (R247). -/
  until_ : Nat := 0
deriving DecidableEq, Repr

/-- A bead request waiting at a keeper (R479). -/
structure BeadReq where
  /-- Priority 1 to 5 (R479). -/
  prio : Nat := 5
  /-- What the beads are for (R479). -/
  what : BeadFor := .ply 0 0
  /-- Size in 1/32 bead (R479). -/
  beads : Nat := 0
  /-- Tick of arrival (R479). -/
  since : Nat := 0
  /-- The grant-wait fault has been raised (R479). -/
  late : Bool := false
deriving DecidableEq, Repr

/-- A compute die (R15, R20). -/
structure Skein where
  /-- Admitted (R37 REEL_STATUS). -/
  present : Bool := false
  /-- Booted Split (R37). -/
  split : Bool := false
  /-- In Loose mode (R37). -/
  loose : Bool := false
  /-- Marked lost (R197, R266). -/
  lost : Bool := false
  /-- Lost because its forwarded reference failed (R498). -/
  lostClock : Bool := false
  /-- Out until the next reel reset (R499). -/
  outForGood : Bool := false
  /-- Failed attempts to lock its PLL (R499). -/
  admitTries : Nat := 0
  /-- Open epoch (R175). -/
  openEpoch : Nat := 1
  /-- Committed epoch number (R210). -/
  committed : Nat := 0
  /-- Epoch that is doubling; 0 none (R177). -/
  closingEpoch : Nat := 0
  /-- IN_BARRIER (R211). -/
  inBarrier : Bool := false
  /-- TICK_HELD (R211). -/
  tickHeld : Bool := false
  /-- LAST_BARRIER_NS (R211). -/
  lastBarrier : Nat := 0
  /-- Tick at which the last barrier began, or at which the skein was admitted (R175, R177). -/
  barrierAt : Nat := 0
  /-- Fasten.epoch_cycles as the running epoch count takes it (R175, R210). -/
  epochCycles : Nat := 16384
  /-- Tick at which the gathering window opened (R189). -/
  gather : Option Nat := none
  /-- An early fasten has been requested (R175). -/
  early : Bool := false
  /-- Lines made unfastened in the open epoch (R175). -/
  newLines : Nat := 0
  /-- 0 paired, 1 solo, 2 pairing, 3 Loose (R210, R211). -/
  pair : Nat := 0
  /-- Fasten.count (R210). -/
  fastens : Nat := 0
  /-- Fasten.forced_count (R210). -/
  forced : Nat := 0
  /-- Fasten.spill_lines (R210). -/
  spills : Nat := 0
  /-- Journal writes of the doubling epoch not yet acknowledged (R194). -/
  spillOpen : Nat := 0
  /-- The doubling epoch has spilled (R212). -/
  spilled : Bool := false
  /-- Lines of the closing epoch not yet doubled (R178). -/
  toSend : List Nat := []
  /-- Spindles whose image is not yet doubled (R178). -/
  imgSend : List Nat := []
  /-- A fasten into the new buddy has committed (R205). -/
  pairFirst : Bool := false
  /-- The doubling goes to the hub (R526). -/
  toHub : Bool := false
  /-- Lines whose copy in the buddy was lost and which the next fasten doubles again (R222). -/
  redouble : List Nat := []
  /-- Epoch whose fasten, the last one, makes the skein Loose (R28). -/
  looseAt : Option Nat := none
  /-- The pair was Loose and has not yet committed its first fastens (R208). -/
  fromLoose : Bool := false
  /-- Re-admitted, and not yet in the pairing state (R205). -/
  returned : Bool := false
  /-- Lines held, by line number (R245). -/
  lines : Tbl SkLine := []
  /-- Doubled lines held for the buddy, by line number (R191). -/
  dbl : Tbl Dbl := []
  /-- Committed images held for the buddy, by spindle (R191). -/
  imgC : Tbl Image := []
  /-- Pending images held for the buddy, by spindle (R191). -/
  imgP : Tbl Image := []
  /-- Fasten images in the skein's checkpoint arrays, by spindle (R152). -/
  imgOwn : Tbl Image := []
  /-- Lines promoted and not yet written to memory (R197). -/
  promo : List Nat := []
  /-- Lines that the lost buddy held dirty, while promoted lines are not yet in memory (R201). -/
  lostDirty : List Nat := []
  /-- L3 slots by (slice * 12288 + set) * 16 + way (R213). -/
  l3 : Tbl CacheSlot := []
  /-- L3_STATE (R239). -/
  l3State : Nat := 0
  /-- CLEANING (R239). -/
  cleaning : Bool := false
  /-- L3 ways powered (R239). -/
  l3On : BitVec 16 := 0xFFFF
  /-- L3 ways being powered down (R236). -/
  l3Off : BitVec 16 := 0
  /-- L3 ways granted whose gates are not yet on; bit 16 the whole cache (R236, R478). -/
  l3Wait : BitVec 17 := 0
  /-- Way to partition + 1 holding its lock (R232). -/
  l3Lock : Tbl Nat := []
  /-- Cache.l3_corrected (R238). -/
  l3Corrected : Nat := 0
  /-- Tick at which a cleaning of the L3 began (R237). -/
  cleanAt : Nat := 0
  /-- The four ways to be reserved are being cleaned (R208). -/
  resvClean : Bool := false
  /-- CACHE_ERR_LOG (R239). -/
  errLog : Word := 0
  /-- Requests not yet served, oldest first (R247, R249). -/
  reqs : List Req := []
  /-- Lines whose release is on its way to the buddy, oldest first (R195). -/
  releases : List Nat := []
  /-- Eviction records: the WB or EVICT_CLEAN sent (R255). -/
  evicts : List Packet := []
  /-- Good lanes at the last training (R294). -/
  hubMask : BitVec 96 := 0
  /-- Good lanes of both roles, less those retired (R276, R280). -/
  lanes : BitVec 96 := 0
  /-- HUB_WIDTH (R295). -/
  hubWidth : Nat := 0
  /-- BUDDY_WIDTH (R295). -/
  buddyWidth : Nat := 0
  /-- VIA_HUB (R295). -/
  viaHub : Bool := false
  /-- LINK_STATE (R295). -/
  linkState : Nat := 0
  /-- HUB_SPARES (R295). -/
  hubSpares : Nat := 0
  /-- BUDDY_SPARES (R295). -/
  buddySpares : Nat := 0
  /-- REPLAYS (R295). -/
  replays : Nat := 0
  /-- Strand.replays (R294). -/
  replayTot : Nat := 0
  /-- Ticks of the latest block replays, newest first, no more than strand.lane_err_limit and one (R280). -/
  replayAt : List Nat := []
  /-- Tick at which the link came up (R277). -/
  upAt : Nat := 0
  /-- Tick at which the narrowing of a role ends (R280). -/
  narrowEnd : Nat := 0
  /-- Lanes of a buddy role that waits for its edge beads; 0 none (R23, R279). -/
  pendLanes : BitVec 96 := 0
  /-- The buddy role fell below 16 lanes while running (R281). -/
  buddyLost : Bool := false
  /-- Probes (R285). -/
  probes : Tbl Probe := []
  /-- Trace buffer (R286). -/
  trace : Trace := {}
  /-- PRESS_STATE (R420). -/
  press : Nat := 0
  /-- CIPHER_STATE (R420). -/
  cipher : Nat := 0
  /-- Units granted whose gates are not yet on: bit 0 press, bit 1 cipher (R392, R478). -/
  pcGate : BitVec 2 := 0
  /-- ENTROPY_OK (R420). -/
  entropyOk : Bool := false
  /-- Pages cached by the press unit, least recent first (R409). -/
  pCache : List Nat := []
  /-- Pages cached by the cipher unit, least recent first (R409). -/
  cCache : List Nat := []
  /-- Stamps of press-unit mismatches (R421). -/
  pMis : List Nat := []
  /-- Stamps of cipher-unit mismatches (R421). -/
  cMis : List Nat := []
  /-- Tick at which the press unit last worked or powered on (R392). -/
  pIdleAt : Nat := 0
  /-- Tick at which the cipher unit last worked or powered on (R392). -/
  cIdleAt : Nat := 0
  /-- Pages whose context is modified and not fastened (R409, R410). -/
  ctxDirty : List Nat := []
  /-- ALLOWANCE, beads (R503). -/
  allowance : Nat := 132
  /-- Beads withdrawn under R487 (R487). -/
  heat : Nat := 0
  /-- GRANTED, 1/32 bead (R503). -/
  granted : Nat := 0
  /-- LENT (R503). -/
  lent : Nat := 0
  /-- TEMP_C (R503). -/
  temp : Nat := 0
  /-- SOFT (R503). -/
  soft : Bool := false
  /-- HARD (R503). -/
  hard : Bool := false
  /-- Tick at which the hardware throttle last came into force (R488). -/
  hardAt : Nat := 0
  /-- RAIL_STEP (R503). -/
  railStep : Nat := 0
  /-- Samples in a row above the margin (R486). -/
  overGrant : Nat := 0
  /-- Waiting bead requests, in queue order (R479). -/
  waiting : List BeadReq := []
  /-- Reset.last (R502). -/
  resetLast : Nat := 0
  /-- Configuration generation held by the die (R467). -/
  dieGen : Nat := 0
deriving DecidableEq, Repr

/-- A directory entry (R243, R244). -/
structure DirEntry where
  /-- 0 Invalid, 1 Shared, 2 Exclusive, 3 Modified, 4 Owned-doubled (R244). -/
  state : Nat := 0
  /-- Owner skein; 15 none (R244). -/
  owner : Nat := 15
  /-- Sharers (R244). -/
  sharers : BitVec 12 := 0
  /-- JOURNALED (R244). -/
  journaled : Bool := false
  /-- RESERVED (R244). -/
  resv : Bool := false
  /-- Victim ineligible until the holder's next FASTEN_DONE (R253). -/
  inelig : Bool := false
  /-- WAY (R244). -/
  way : Nat := 0
deriving DecidableEq, Repr

/-- An open transaction at a home slice (R247). -/
structure Txn where
  /-- Line (R247). -/
  line : Nat := 0
  /-- The request being served (R247). -/
  req : Packet := {}
  /-- TAG of its snoops, by which an answer names it (R271, R272). -/
  tag : Nat := 0
  /-- Directory way that it pins; 20 none (R252). -/
  way : Nat := 20
  /-- Skeins whose snoop answer is awaited (R247). -/
  await : BitVec 12 := 0
  /-- Skeins that answered EVICTING and whose WB is awaited (R255). -/
  evicting : BitVec 12 := 0
  /-- WBs and EVICT_CLEANs of the line that arrived while their skein's answer was awaited (R255). -/
  got : List Packet := []
  /-- Skeins that answered DATA to a SNP_SHARE and keep a Shared copy (R254). -/
  kept : BitVec 12 := 0
  /-- Data received (R255). -/
  data : Option LineVal := none
  /-- A snoop was NACKed UNFASTENED (R247). -/
  nack : Bool := false
  /-- The owner's hint (R247). -/
  hint : Nat := 0
  /-- It holds a reserved slot (R249). -/
  top : Bool := false
  /-- It recalls a victim for a waiting request (R252). -/
  recallFor : Bool := false
deriving DecidableEq, Repr

/-- HOME_ERR_LOG and the run bits of a home slice (R266). -/
structure HomeLog where
  /-- SET (R266). -/
  set : Nat := 0
  /-- WAY (R266). -/
  way : Nat := 0
  /-- UNCORR (R266). -/
  uncorr : Bool := false
  /-- VALID (R266). -/
  valid : Bool := false
  /-- SWEEP (R266). -/
  sweep : Bool := false
  /-- Skeins whose recall is awaited (R264). -/
  awaits : BitVec 12 := 0
  /-- Coh.nack_count (R265). -/
  nacks : Nat := 0
  /-- Coh.recall_count (R265). -/
  recalls : Nat := 0
  /-- Coh.top_age_count (R265). -/
  tops : Nat := 0
  /-- Set being recalled (R264). -/
  recallSet : Nat := 0
  /-- RECALL: a set recall runs (R264, R266). -/
  recallOn : Bool := false
  /-- Top-age requests in reserved slots, in order of arrival (R250). -/
  topq : List Packet := []
deriving DecidableEq, Repr

/-- A copy in a skein's fasten journal (R193). -/
structure JEntry where
  /-- Owner skein (R193). -/
  skein : Nat := 0
  /-- Epoch (R193). -/
  epoch : Nat := 0
  /-- Line (R193). -/
  line : Nat := 0
  /-- The copy (R193). -/
  val : LineVal := .zero
  /-- Its epoch has had FASTEN_DONE (R196). -/
  done : Bool := false
deriving DecidableEq, Repr

/-- The serial-output gate's record of a spindle (R188). -/
structure GateEntry where
  /-- Last sequence number accepted (R188). -/
  seq : BitVec 48 := 0
  /-- Held response (R188). -/
  resp : BitVec 128 := 0
  /-- The response has been returned (R188). -/
  done : Bool := true
  /-- It is that of a coprocessor request that was refused or timed out (R76, R188). -/
  timedOut : Bool := false
deriving DecidableEq, Repr

/-- A fabric domain in the drain-and-fence handshake (R282). -/
structure FenceSt where
  /-- 0 open, 1 draining, 2 fenced (R282). -/
  st : Nat := 0
  /-- Tick of the DRAIN (R282). -/
  since : Nat := 0
  /-- Force-fenced (R282). -/
  forced : Bool := false
deriving DecidableEq, Repr

/-- A guest site (R287, R295). -/
structure Site where
  /-- STATE (R295). -/
  state : Nat := 0
  /-- RATE (R295). -/
  rate : Nat := 0
  /-- X32 (R295). -/
  x32 : Bool := false
  /-- VIOLATIONS (R295). -/
  viol : Nat := 0
  /-- FW_VIOL_LOG (R295). -/
  log : Word := 0
  /-- FW_VIOL_ADDR (R295). -/
  addr : Word := 0
  /-- Guest.late (R294). -/
  late : Nat := 0
  /-- Open requests of the reel to the site (R289). -/
  opens : List Packet := []
  /-- Tags of requests that ended by timeout and whose response may still come (R289). -/
  ended : List Nat := []
  /-- The current microsecond, and the flits admitted in it (R293). -/
  flow : Nat × Nat := (0, 0)
deriving DecidableEq, Repr

/-- An entry of a channel's repeat detector (R308). -/
structure RepEntry where
  /-- Line offset (R308). -/
  off : Nat := 0
  /-- Count (R308). -/
  count : Nat := 0
  /-- Tick at which its window opened (R308). -/
  start : Nat := 0
deriving DecidableEq, Repr

/-- A DDR5 channel (R297, R329). -/
structure MemCh where
  /-- STATE (R329). -/
  state : Nat := 0
  /-- MIRRORED (R329). -/
  mirrored : Bool := false
  /-- PARTNER_LOST (R329). -/
  partnerLost : Bool := false
  /-- RATE (R329). -/
  rate : Nat := 0
  /-- DIMMS (R329). -/
  dimms : Nat := 0
  /-- X8 (R329). -/
  x8 : Bool := false
  /-- CAPACITY, GiB (R329). -/
  capacity : Nat := 0
  /-- DIMM serial numbers (R321). -/
  serials : List Nat := []
  /-- MEM_ERR_LOG (R329). -/
  errLog : Word := 0
  /-- LAP_S (R329). -/
  lapS : Nat := 0
  /-- Next line offset the scrubber reads (R311). -/
  scrubAt : Nat := 0
  /-- Tick at which the lap began (R312). -/
  lapStart : Nat := 0
  /-- The current millisecond, and the lines scrubbed in it (R311). -/
  scrubFlow : Nat × Nat := (0, 0)
  /-- Tick at which its re-silvering began (R317). -/
  resilverAt : Nat := 0
  /-- LATE (R329). -/
  late : Bool := false
  /-- The scrubber runs (R311). -/
  scrubbing : Bool := false
  /-- MEM_FLIP_CTL (R329). -/
  flipCtl : Word := 0
  /-- MEM_FLIP_MASK0 (R329). -/
  flip0 : Word := 0
  /-- MEM_FLIP_MASK1 (R329). -/
  flip1 : Word := 0
  /-- MEM_FLIP_ADDR (R329). -/
  flipAddr : Word := 0
  /-- MEM_FLIP_LAST (R329). -/
  flipLast : Word := 0
  /-- Lines written flipped, with the positions inverted as a mask (R318). -/
  flipped : Tbl Nat := []
  /-- Repeat detector (R308). -/
  reps : List RepEntry := []
  /-- Corrections by device position in the window (R309). -/
  posCnt : Tbl Nat := []
  /-- Start of that window (R309). -/
  posStart : Nat := 0
  /-- Mem.corrected (R328). -/
  corrected : Nat := 0
  /-- Lines with uncorrectable reads in the last 1 ms, each with the tick of the last plus 1 (R315). -/
  badLines : Tbl Nat := []
  /-- The channel was filled with poisoned lines at its restoration (R317). -/
  pfill : Bool := false
  /-- Lines written since that fill, by channel line (R317). -/
  rewritten : Tbl Bool := []
  /-- Lost when a warm reset began (R497). -/
  lostAtReset : Bool := false
  /-- Slot of the mailbox waiting for MEM_CHANNEL_RETRAIN (50 * slot + page) (R317). -/
  retrain : Option Nat := none
deriving DecidableEq, Repr

/-- A retire list entry (R321). -/
structure Retired where
  /-- CHANNEL (R321). -/
  ch : Nat := 0
  /-- FRAME (R321). -/
  frame : Nat := 0
  /-- SERIAL (R321). -/
  serial : Nat := 0
  /-- Physical page (R320). -/
  page : Nat := 0
  /-- Its pulse has come, and its lines are being recalled (R320). -/
  pulsed : Bool := false
  /-- Out of the map (R320). -/
  applied : Bool := false
  /-- Slot of the RETIRE_PAGE command to answer (50 * slot + page) (R320). -/
  mb : Option Nat := none
deriving DecidableEq, Repr

/-- A memory log record (R322). -/
structure MemRec where
  /-- TIME (R322). -/
  time : Nat := 0
  /-- LINE (R322). -/
  line : Nat := 0
  /-- CHANNEL (R322). -/
  ch : Nat := 0
  /-- POSITION (R322). -/
  pos : Nat := 31
  /-- KIND (R322). -/
  kind : Nat := 0
  /-- RESERVE (R322). -/
  reserve : Bool := false
  /-- DIMM (R322). -/
  dimm : Nat := 0
  /-- An MRAM word of it cannot be corrected: it reads as unreadable (R444). -/
  bad : Bool := false
deriving DecidableEq, Repr

/-- A key slot of a tenant page (R394). -/
structure KeySlot where
  /-- LOADED (R394). -/
  loaded : Bool := false
  /-- Length code (R394). -/
  len : Nat := 0
  /-- Key words (R396). -/
  words : List Word := []
deriving DecidableEq, Repr

/-- The press stream of a tenant page (R395). -/
structure PressStream where
  /-- 0 idle, 1 compressing, 2 decompressing, 3 ended (R394). -/
  st : Nat := 0
  /-- Latched PRESS_CFG (R395). -/
  cfg : Word := 0
  /-- Latched history capability (R395). -/
  hist : Option Cap := none
  /-- Stream input so far, from which the stream state follows (R395). -/
  input : List Byte := []
  /-- PRESS_IN_TOTAL (R394). -/
  inTot : Nat := 0
  /-- PRESS_OUT_TOTAL (R394). -/
  outTot : Nat := 0
  /-- PRESS_CHECK (R394). -/
  check : Nat := 0
  /-- Bits of compressed output that do not yet fill a byte (R405). -/
  carry : List Bool := []
  /-- Input bytes of the open DEFLATE block (R405). -/
  blk : List Byte := []
  /-- LAST_CODE press (R394). -/
  code : Nat := 0
deriving DecidableEq, Repr

/-- The cipher stream of a tenant page (R395). -/
structure CipherStream where
  /-- 0 idle, 1 encrypting, 2 decrypting (R394). -/
  st : Nat := 0
  /-- Latched CIPHER_CFG (R395). -/
  cfg : Word := 0
  /-- Latched CIPHER_IV (R395). -/
  iv : BitVec 128 := 0
  /-- Key schedule's key bytes (R395). -/
  key : List Byte := []
  /-- CBC chaining value (R404). -/
  chain : BitVec 128 := 0
  /-- GHASH accumulator (R407). -/
  hash : BitVec 128 := 0
  /-- Bytes of the open GHASH block (R407). -/
  part : List Byte := []
  /-- CIPHER_TOTAL (R394). -/
  total : Nat := 0
  /-- LAST_CODE cipher (R394). -/
  code : Nat := 0
deriving DecidableEq, Repr

/-- A tenant page (R334, R353, R394). -/
structure Tenant where
  /-- Capability slots; a valid slot holds its tagged capability (R334). -/
  slots : Tbl Cap := []
  /-- ACCEPTED (R334). -/
  accepted : Nat := 0
  /-- REJECTED (R334). -/
  rejected : Nat := 0
  /-- LAST_REJECT (R334). -/
  lastReject : Nat := 0
  /-- REJECT_UNPOSTED (R334). -/
  unposted : Nat := 0
  /-- Chan.cancel_ignored (R364). -/
  cancelIgn : Nat := 0
  /-- RING_PROD, P (R356). -/
  prod : Nat := 0
  /-- RING_STATE (R356). -/
  ringState : Nat := 0
  /-- The clearing of a newly bound ring is not complete (R353). -/
  clearing : Bool := false
  /-- Last known CONSUMED (R354). -/
  consumed : Nat := 0
  /-- Tick of the last read of CONSUMED (R354). -/
  polledAt : Nat := 0
  /-- Entries posted since the last notification (R355). -/
  unnotified : Nat := 0
  /-- Tick of the oldest unnotified posting (R355). -/
  oldest : Option Nat := none
  /-- FROZEN (R394). -/
  frozen : Bool := false
  /-- Freeze in progress (R360). -/
  freezing : Bool := false
  /-- GENERATION (R393). -/
  gen : Nat := 0
  /-- PRESS_CFG (R394). -/
  pressCfg : Word := 0x4
  /-- CIPHER_CFG (R394). -/
  cipherCfg : Word := 0xC100A
  /-- CIPHER_IV (R394). -/
  iv : BitVec 128 := 0
  /-- HIST_CAP when valid (R394). -/
  hist : Option Cap := none
  /-- KEY_DATA k (R394). -/
  keyData : Tbl Word := []
  /-- Key slots (R394). -/
  keys : Tbl KeySlot := []
  /-- Press stream (R395). -/
  press : PressStream := {}
  /-- Cipher stream (R395). -/
  cipher : CipherStream := {}
  /-- Skein holding the press context as modified (R409). -/
  pHolder : Option Nat := none
  /-- Skein holding the cipher context as modified (R409). -/
  cHolder : Option Nat := none
  /-- The context was lost (R410, R422). -/
  poisoned : Bool := false
  /-- Spindle whose press operation runs (R408). -/
  busyP : Option Nat := none
  /-- Spindle whose cipher operation runs (R408). -/
  busyC : Option Nat := none
  /-- Press stream at the barrier of the doubling epoch (R410). -/
  bP : Option PressStream := none
  /-- Cipher stream at the barrier of the doubling epoch (R410). -/
  bC : Option CipherStream := none
  /-- Press stream as of the last completed fasten (R395). -/
  shP : PressStream := {}
  /-- Cipher stream as of the last completed fasten (R395). -/
  shC : CipherStream := {}
deriving DecidableEq, Repr

/-- A segment of a ledger entry (R332, R341). -/
structure Seg where
  /-- SLOT (R332). -/
  slot : Nat := 0
  /-- OFFSET (R332). -/
  off : Nat := 0
  /-- SKIP (R332). -/
  skip : Bool := false
  /-- LANE (R332). -/
  lane : Nat := 0
  /-- LENGTH (R332). -/
  len : Nat := 0
  /-- Resolved physical base (R341). -/
  base : Nat := 0
deriving DecidableEq, Repr

/-- A ledger entry (R341). -/
structure Entry where
  /-- TAG (R341). -/
  tag : Nat := 0
  /-- STATE (R342). -/
  st : LState := .free
  /-- IDEM (R341). -/
  idem : Bool := false
  /-- CANCEL (R341). -/
  cancel : Bool := false
  /-- REDRIVES (R341). -/
  redrives : Nat := 0
  /-- TOKEN (R341). -/
  token : Word := 0
  /-- TENANT (R341). -/
  tenant : Nat := 0
  /-- PART (R341). -/
  part : Nat := 0
  /-- DEVICE (R341). -/
  device : Nat := 0
  /-- ENGINE (R341). -/
  engine : Nat := 0
  /-- PATH (R341). -/
  path : Nat := 0
  /-- TRIED (R341). -/
  tried : BitVec 4 := 0
  /-- ISSUE_TIME (R341). -/
  issueTime : Nat := 0
  /-- DONE (R341). -/
  done : Nat := 0
  /-- DETAIL (R341). -/
  detail : Nat := 0
  /-- CLASS (R341). -/
  cls : Nat := 0
  /-- RESIDUAL (R341). -/
  residual : Nat := 0
  /-- DEVSTATUS (R341). -/
  devstatus : Word := 0
  /-- OP of BLOCK (R331). -/
  op : Nat := 0
  /-- FLAGS of BLOCK (R331). -/
  flags : Nat := 0
  /-- TIMEOUT_MS of BLOCK (R331). -/
  timeoutMs : Nat := 0
  /-- DEVADDR of BLOCK (R331). -/
  devaddr : Word := 0
  /-- DEVCMD of BLOCK (R331). -/
  devcmd : BitVec 256 := 0
  /-- SEGMENTS with their resolved bases (R341). -/
  segs : List Seg := []
  /-- Order of acceptance (R344). -/
  order : Nat := 0
  /-- Order of becoming TERMINAL (R354). -/
  termOrder : Nat := 0
  /-- The operation has reached ISSUING (R348). -/
  everIssued : Bool := false
  /-- Tick of the first issue (R385). -/
  firstIssue : Nat := 0
  /-- Tick of entry into REDRIVE (R348). -/
  redriveAt : Nat := 0
  /-- Peer incarnation recorded (R385). -/
  peerInc : Nat := 0
  /-- An NVMe Abort or rack ABORT is awaited (R346). -/
  abortWait : Bool := false
  /-- The next attempt is an abort (R357). -/
  abortNext : Bool := false
  /-- Tick at which the NVMe Abort was sent (R346). -/
  abortAt : Nat := 0
  /-- A RETRY_LATER hint is being waited (R384). -/
  waitHint : Option Nat := none
  /-- Its device was removed or changed partition (R359). -/
  removed : Bool := false
  /-- Device bytes received for segments that pass a lane, by stream offset (R414). -/
  lanebuf : Tbl Byte := []
deriving DecidableEq, Repr

/-- A channel engine (R364, R365). -/
structure Engine where
  /-- STATE (R365). -/
  state : Nat := 0
  /-- FW_VERSION (R365). -/
  fw : Nat := 0
  /-- RESETS (R365). -/
  resets : Nat := 0
  /-- Stamps of its failures in the last 1 s (R350). -/
  fails : List Nat := []
deriving DecidableEq, Repr

/-- Counters of a device number (R344, R364). -/
structure Device where
  /-- Path of the previous dispatch (R344). -/
  lastPath : Nat := 3
  /-- Chan.redrives (R364). -/
  redrives : Nat := 0
  /-- Chan.unknown (R364). -/
  unknown : Nat := 0
  /-- Chan.late (R364). -/
  late : Nat := 0
deriving DecidableEq, Repr

/-- A reset log record (R362). -/
structure ResetRec where
  /-- TAG (R362). -/
  tag : Nat := 0
  /-- TOKEN (R362). -/
  token : Word := 0
  /-- TENANT (R362). -/
  tenant : Nat := 0
  /-- STATE (R362). -/
  st : LState := .free
  /-- An MRAM word of it cannot be corrected: it reads as unreadable (R444). -/
  bad : Bool := false
deriving DecidableEq, Repr

/-- A flex root port (R389). -/
structure Flex where
  /-- STATE (R389). -/
  state : Nat := 0
  /-- RATE (R389). -/
  rate : Nat := 0
  /-- WIDTH (R389). -/
  width : Nat := 0
  /-- CXL (R389). -/
  cxl : Bool := false
  /-- BUS_FIRST (R389). -/
  busFirst : Nat := 0
  /-- BUS_LAST (R389). -/
  busLast : Nat := 0
  /-- REFUSED (R389). -/
  refused : Nat := 0
  /-- CONTAINS (R389). -/
  contains : Nat := 0
  /-- The port was contained and has not come up again (R33, R374). -/
  lost : Bool := false
  /-- Tick at which it was contained, or last failed to train (R374). -/
  downAt : Nat := 0
  /-- The lines of the port's CXL ranges were lost (R376). -/
  cxlLost : Bool := false
  /-- Lines of those ranges written since, by line number (R376). -/
  rewritten : Tbl Bool := []
deriving DecidableEq, Repr

/-- A rack message to be sent (R383). -/
structure RackOut where
  /-- TYPE (R383). -/
  type : Nat := 0
  /-- Its fields (R383). -/
  m : Option RackMsg := none
deriving DecidableEq, Repr

/-- A block of a rack link's stream (R379). -/
structure RackBlock where
  /-- SEQ (R379). -/
  seq : Nat := 0
  /-- ACK (R379). -/
  ack : Nat := 0
  /-- NAK (R379). -/
  nak : Bool := false
  /-- REQ_CREDIT (R379). -/
  reqCredit : Nat := 0
  /-- RSP_CREDIT (R379). -/
  rspCredit : Nat := 0
  /-- Its flits; the rest are zero (R379). -/
  flits : List (BitVec 128) := []
deriving DecidableEq, Repr

/-- A block of a strand link (R277). -/
structure StrandBlock where
  /-- Sequence number (R277). -/
  seq : Nat := 0
  /-- Acknowledgement: blocks that its sender has received (R277). -/
  ack : Nat := 0
  /-- Its flits; the rest are zero (R277). -/
  flits : List (BitVec 128) := []
deriving DecidableEq, Repr

/-- One end of a role of a strand link (R277). -/
structure StrandEnd where
  /-- Sequence number of the next block sent (R277). -/
  seq : Nat := 0
  /-- Sequence number of the next block to arrive (R277). -/
  got : Nat := 0
  /-- The last 64 blocks sent, oldest first (R277). -/
  sent : List StrandBlock := []
deriving DecidableEq, Repr

/-- A rack port (R382, R389). -/
structure Rack where
  /-- STATE (R389). -/
  state : Nat := 0
  /-- WIDTH (R389). -/
  width : Nat := 0
  /-- PEER (R389). -/
  peer : Nat := 0
  /-- Incarnation of the trained peer (R382). -/
  peerInc : Nat := 0
  /-- REPLAYS (R389). -/
  replays : Nat := 0
  /-- Replays in the current millisecond (R381). -/
  msReplays : Nat := 0
  /-- Start of that millisecond (R381). -/
  msStart : Nat := 0
  /-- Rack replay raised in this millisecond (R390). -/
  faulted : Bool := false
  /-- The port went down and has not come up again (R33, R381). -/
  lost : Bool := false
  /-- Tick at which the port came up, or last had a valid block (R381). -/
  upAt : Nat := 0
  /-- Tick at which it went down, or last failed to train (R381). -/
  downAt : Nat := 0
  /-- Request-class messages that wait for credit (R380). -/
  outReq : List RackOut := []
  /-- Response-class messages that wait for credit (R380). -/
  outRsp : List RackOut := []
  /-- Request-class credit held, in flits (R380). -/
  reqCr : Nat := 0
  /-- Response-class credit held (R380). -/
  rspCr : Nat := 0
  /-- Request-class flits freed since the last trailer (R379, R380). -/
  reqFree : Nat := 0
  /-- Response-class flits freed since the last trailer (R379, R380). -/
  rspFree : Nat := 0
  /-- SEQ of the next block (R379). -/
  seq : Nat := 0
  /-- Last block received in sequence with a good CRC (R379). -/
  ack : Nat := 0
  /-- The next trailer asks for replay (R379, R381). -/
  nak : Bool := false
  /-- The last 256 blocks sent, oldest first, without those acknowledged (R381). -/
  sent : List RackBlock := []
  /-- Replays of the oldest of them (R381). -/
  tries : Nat := 0
deriving DecidableEq, Repr

/-- A deduplication entry (R384). -/
structure Dedup where
  /-- ATTEMPT (R384). -/
  attempt : Nat := 0
  /-- DONE, else PERFORMING (R384). -/
  done : Bool := false
  /-- Endpoint (R384). -/
  endpoint : Nat := 0
  /-- TYPE of the operation (R384). -/
  op : Nat := 0
  /-- DEVADDR (R384). -/
  devaddr : Nat := 0
  /-- TOTAL (R384). -/
  total : Nat := 0
  /-- Held RESULT CODE (R383). -/
  code : Nat := 0
  /-- Held DONE bytes (R383). -/
  bytes : Nat := 0
  /-- DEVCMD of a CONTROL (R387). -/
  devcmd : BitVec 256 := 0
  /-- Tick at which it became DONE (R384). -/
  since : Nat := 0
  /-- Port of the message (R384). -/
  port : RackId := 0
deriving DecidableEq, Repr

/-- A served endpoint's message ring and counts (R387). -/
structure Endpoint where
  /-- Producer count (R387). -/
  prod : Nat := 0
  /-- Last known CONSUMED (R387). -/
  consumed : Nat := 0
  /-- Operations done (R387). -/
  ops : Nat := 0
  /-- The clearing of a newly bound message ring is not complete (R353, R387). -/
  clearing : Bool := false
  /-- The message ring is suspended (R356, R387). -/
  suspended : Bool := false
  /-- Entries posted since the last notification (R387). -/
  unnotified : Nat := 0
  /-- Tick of the oldest unnotified posting (R387). -/
  oldest : Option Nat := none
deriving DecidableEq, Repr

/-- A counting group of the fault collector (R430). -/
structure Group where
  /-- START (R430). -/
  start : Nat := 0
  /-- COUNT (R430). -/
  count : Nat := 0
  /-- LAST (R430). -/
  last : Nat := 0
  /-- CARRY (R430). -/
  carry : Bool := false
deriving DecidableEq, Repr

/-- An active record (R432). -/
structure ActRec where
  /-- SEQ (R432). -/
  seq : Nat := 0
  /-- Source ID (R432). -/
  src : Nat := 0
  /-- INSTANCE (R432). -/
  inst : Nat := 0
  /-- Owning partition (R426). -/
  owner : Nat := 0
  /-- Spindle named (R426). -/
  spindle : Option Nat := none
  /-- Effective severity (R427). -/
  sev : Nat := 3
  /-- Rung reached (R433). -/
  rung : Nat := 0
  /-- LIMIT (R446). -/
  limit : Nat := 2
  /-- Rung the running countdown leads to; 0 none (R433). -/
  next : Nat := 0
  /-- Tick at which the countdown expires (R433). -/
  due : Nat := 0
  /-- Acknowledged (R435). -/
  acked : Bool := false
  /-- REPEAT (R432). -/
  repeats : Nat := 0
  /-- Skein on which rung 3 was applied (R433). -/
  skein : Option Nat := none
  /-- Rung 2 applied: the firewall refuses the owner's coprocessor and guest requests (R433). -/
  cut : Bool := false
deriving DecidableEq, Repr

/-- A fault log record (R443). -/
structure LogRec where
  /-- TIME (R443). -/
  time : Nat := 0
  /-- SEQ (R443). -/
  seq : Nat := 0
  /-- SOURCE (R443). -/
  src : Nat := 0
  /-- INSTANCE (R443). -/
  inst : Nat := 0
  /-- SEVERITY (R443). -/
  sev : Nat := 0
  /-- BASE (R443). -/
  base : Nat := 0
  /-- CARRY (R443). -/
  carry : Bool := false
  /-- FORCED (R443). -/
  forced : Bool := false
  /-- OWNER (R443). -/
  owner : Nat := 0
  /-- SPINDLE and SPINDLE_VALID (R443). -/
  spindle : Option Nat := none
  /-- RUNG (R443). -/
  rung : Nat := 0
  /-- OVERFLOW (R443). -/
  overflow : Bool := false
  /-- REPEAT (R443). -/
  repeats : Nat := 0
  /-- DETAIL (R443). -/
  detail : Word := 0
  /-- An MRAM word of it cannot be corrected: it reads as unreadable (R444). -/
  bad : Bool := false
deriving DecidableEq, Repr

/-- A hosted spindle's registers in a snapshot (R441). -/
structure SnapSpin where
  /-- Spindle number (R441). -/
  sp : Nat := 0
  /-- BA (R441). -/
  ba : Word := 0
  /-- MODE (R441). -/
  mode : Word := 0
  /-- IMASK (R441). -/
  imask : Word := 0
  /-- LOOP_DEPTH (R441). -/
  depth : Nat := 0
deriving DecidableEq, Repr

/-- A per-ply record in a snapshot (R441). -/
structure SnapPly where
  /-- 20 * skein + ply (R441). -/
  ply : Nat := 0
  /-- Ply.state (R441). -/
  state : Nat := 0
  /-- Draft VERSION, which the skein's digest covers (R441). -/
  draft : Nat := 0
  /-- Hosted spindles (R441). -/
  spins : List SnapSpin := []
deriving DecidableEq, Repr

/-- A snapshot slot (R441). -/
structure Snap where
  /-- TIME (R441). -/
  time : Nat := 0
  /-- TRIGGER (R441). -/
  trigger : Nat := 0
  /-- FLAGS bit 0 (R441). -/
  complete : Bool := false
  /-- FLAGS bit 1 (R441). -/
  many : Bool := false
  /-- FLAGS bit 2 (R441). -/
  service : Bool := false
  /-- SOURCE (R441). -/
  source : Nat := 0
  /-- SEQ (R441). -/
  seq : Nat := 0
  /-- DIE_MASK (R441). -/
  dieMask : BitVec 13 := 0
  /-- LIFE_STATE (R441). -/
  life : Nat := 0
  /-- Configuration generation before the pulse (R441). -/
  gen : Nat := 0
  /-- Latched registers, by register-space offset (R441). -/
  regs : Tbl Word := []
  /-- Full committed epoch number of each skein (R441). -/
  epochs : List Nat := []
  /-- Latched per-ply records (R441). -/
  plies : List SnapPly := []
  /-- Latched counting groups, by 65536 * block + INSTANCE (R441). -/
  groups : Tbl Group := []
  /-- Last rail currents (R441). -/
  current : Tbl Nat := []
  /-- Committed parameters before the pulse, from which the digests follow (R441). -/
  params : Tbl Nat := []
  /-- CRC of the held draft image (R441). -/
  crc : Nat := 0
  /-- An MRAM word of it cannot be corrected: it reads as unreadable (R444). -/
  bad : Bool := false
deriving DecidableEq, Repr

/-- A snapshot request waiting for its pulse or its drain (R440). -/
structure SnapReq where
  /-- TRIGGER (R440). -/
  trigger : Nat := 0
  /-- SOURCE (R440). -/
  source : Nat := 0
  /-- SEQ (R440). -/
  seq : Nat := 0
  /-- Shared by more than one request (R440). -/
  many : Bool := false
  /-- One of the requests is a reel-fatal event (R441). -/
  fatal : Bool := false
  /-- One of the requests is a write of SNAP_CTL (R447). -/
  ctl : Bool := false
deriving DecidableEq, Repr

/-- The fault collector, the logs it writes, Service mode and the snapshot block (R424 to R447). -/
structure Faults where
  /-- Counting groups by 65536 * block + INSTANCE (R430). -/
  groups : Tbl Group := []
  /-- Fault.count by source (R446). -/
  counts : Tbl Nat := []
  /-- Active records (R432). -/
  active : List ActRec := []
  /-- OVERFLOW (R447). -/
  overflow : Bool := false
  /-- DEFERRED (R447). -/
  deferred : Nat := 0
  /-- Fault log ring, newest first (R443). -/
  log : List LogRec := []
  /-- Records written since MRAM was initialised (R443). -/
  seq : Nat := 0
  /-- FAULT_SUPPRESSED (R447). -/
  suppressed : Nat := 0
  /-- Current second (R443). -/
  secStart : Nat := 0
  /-- Records of the current second (R443). -/
  secCount : Nat := 0
  /-- Records suppressed in the current second (R443). -/
  secSup : Nat := 0
  /-- Service mode (R37, R438). -/
  service : Bool := false
  /-- Tick of SERVICE_ENTER (R438). -/
  serviceAt : Nat := 0
  /-- A reel-fatal event since the reel reset (R437). -/
  fatal : Bool := false
  /-- Snapshot store (R441). -/
  snaps : Tbl Snap := []
  /-- LAST_SLOT (R447). -/
  lastSlot : Nat := 0
  /-- Next ordinary slot (R441). -/
  nextSlot : Nat := 0
  /-- Slot being drained (DRAINING) (R447). -/
  draining : Option Nat := none
  /-- Request whose pulse is scheduled (R440). -/
  pulseReq : Option SnapReq := none
  /-- Merged pending snapshot (PENDING) (R447). -/
  pendSnap : Option SnapReq := none
  /-- MERGED (R447). -/
  merged : Nat := 0
  /-- SNAP_CTL TRIGGER reads 1 (R447). -/
  ctlBusy : Bool := false
  /-- Reactions decided and not yet carried out within the command, the MODEL's own (R427, R433). -/
  todo : List React := []
deriving DecidableEq, Repr

/-- A mailbox notice (R458). -/
structure Notice where
  /-- TYPE (R458). -/
  ty : Nat := 0
  /-- Number (R458). -/
  num : Nat := 0
  /-- Timebase (R458). -/
  time : Nat := 0
  /-- Arguments (R458). -/
  args : List Nat := []
deriving DecidableEq, Repr

/-- A mailbox response (R454). -/
structure Resp where
  /-- CODE (R454). -/
  code : Nat := 0
  /-- STATUS (R455). -/
  status : Nat := 0
  /-- SEQ (R454). -/
  seq : Nat := 0
  /-- RESULT, field by field (R454). -/
  res : List Nat := []
  /-- Payload of a BMC answer (R459). -/
  payload : List Byte := []
deriving DecidableEq, Repr

/-- A mailbox page, or the BMC mailbox (R451, R459). -/
structure Mbox where
  /-- MB_REQ, granule by granule (4 * slot + granule) (R451). -/
  req : Tbl Cap := []
  /-- BUSY (R451). -/
  busy : BitVec 4 := 0
  /-- RESP_VALID (R451). -/
  respValid : BitVec 4 := 0
  /-- MB_RESP (R451). -/
  resp : Tbl Resp := []
  /-- Last answered SEQ + 1 (R452). -/
  lastSeq : Tbl Nat := []
  /-- SEQ of the request in flight (R452). -/
  bell : Tbl Nat := []
  /-- Bit k is 1 while Jalif works on the long command of slot k (R453). -/
  taken : BitVec 4 := 0
  /-- DROPPED (R451). -/
  dropped : Nat := 0
  /-- NOTICES_HELD (R451). -/
  held : List Notice := []
  /-- NOTICES_LOST (R451). -/
  lost : Nat := 0
  /-- NOTICE_PROD (R451). -/
  prod : Nat := 0
  /-- NOTICE_CONS (R451). -/
  cons : Nat := 0
  /-- NOTICE i (R451). -/
  ring : Tbl Notice := []
  /-- Notices numbered so far (R458). -/
  numb : Nat := 0
deriving DecidableEq, Repr

/-- A staged value (R463). -/
structure Staged where
  /-- ID (R463). -/
  id : Nat := 0
  /-- INDEX (R463). -/
  idx : Nat := 0
  /-- VALUE (R463). -/
  val : Nat := 0
deriving DecidableEq, Repr

/-- The change set (R462). -/
structure Change where
  /-- 0 IDLE, 1 OPEN, 2 CHECKED, 3 COMMITTING (R462). -/
  st : Nat := 0
  /-- Mailbox that opened it (R462). -/
  opener : Nat := 0
  /-- Staged values (R463). -/
  vals : List Staged := []
  /-- Tick of the last command (R463). -/
  last : Nat := 0
  /-- The COMMIT to answer (R465). -/
  mb : Option Mb := none
  /-- Dies that must still acknowledge (R465). -/
  acks : BitVec 13 := 0
  /-- Retirements whose doorbells came before the COMMIT and whose pulses come first (R466). -/
  ahead : Nat := 0
  /-- It is the first change set of the boot record (R34). -/
  first : Bool := false
deriving DecidableEq, Repr

/-- A freeze in progress (R470). -/
structure Freeze where
  /-- 0 partition, 1 tenant page (R470). -/
  scope : Nat := 0
  /-- Target (R470). -/
  target : Nat := 0
  /-- FREEZE commands to answer (R470). -/
  mbs : List Mb := []
deriving DecidableEq, Repr

/-- A boot record (R472). -/
structure Boot where
  /-- VERSION (R472). -/
  version : Nat := 0
  /-- REEL_NUMBER (R472). -/
  number : Nat := 0
  /-- SKEIN_SPLIT (R472). -/
  split : BitVec 12 := 0
  /-- STRAND_SPLIT by skein (R472). -/
  strand : Tbl Nat := []
  /-- FLEX_GROUP by group (R472). -/
  flex : Tbl Nat := []
  /-- INTERLEAVE (R472). -/
  interleave : Nat := 0
  /-- MIRROR (R472). -/
  mirror : BitVec 4 := 0
  /-- P0_LOAD (R472). -/
  p0Load : Nat := 0
  /-- P0_LENGTH (R472). -/
  p0Len : Nat := 0
  /-- P0_ENTRY (R472). -/
  p0Entry : Nat := 0
  /-- P0_SPI_OFFSET (R472). -/
  p0Spi : Nat := 0
  /-- Initial configuration entries (R472). -/
  config : List Staged := []
  /-- P0_DIGEST (R472). -/
  p0Digest : BitVec 384 := 0
  /-- OWNER_KEY (R472). -/
  ownerKey : List Byte := []
  /-- DRAFT_KEY (R472). -/
  draftKey : List Byte := []
  /-- Its bytes (R472). -/
  raw : List Byte := []
deriving DecidableEq, Repr

/-- Jalif: mailboxes, change set, MRAM contents it writes (R449 to R474). -/
structure Jalif where
  /-- Mailboxes by page; 49 is the BMC mailbox (R451, R459). -/
  mboxes : Tbl Mbox := []
  /-- The change set (R462). -/
  change : Change := {}
  /-- Reel.config_generation (R461). -/
  gen : Nat := 0
  /-- The first change set has applied (R34). -/
  cfgDone : Bool := false
  /-- FILL and link bring-up are complete (R34). -/
  fillDone : Bool := false
  /-- Freezes in progress (R470). -/
  freezes : List Freeze := []
  /-- Part.state (R461). -/
  partState : Tbl Nat := []
  /-- Status of a refused start record (R468). -/
  startFail : Tbl Nat := []
  /-- Partitions whose spindles await their release (R35, R468). -/
  toRelease : List Nat := []
  /-- Values that wait for the next reset (R461, R496). -/
  pendReset : List Staged := []
  /-- Pages whose retirement waits for its pulse, oldest first (R320, R466). -/
  retireq : List Nat := []
  /-- Earliest tick of the next pulse (R493). -/
  nextPulse : Nat := 0
  /-- Migration keys (R417). -/
  keys : Tbl KeySlot := []
  /-- Image counter (R417). -/
  imgCount : Nat := 0
  /-- Contexts in this reel's own images, by COUNTER; the MODEL's own (R416). -/
  imgT : Tbl Tenant := []
  /-- Spindles in this reel's own images, by COUNTER; the MODEL's own (R471). -/
  imgS : Tbl Spindle := []
  /-- Entries in this reel's own images, by COUNTER; the MODEL's own (R361). -/
  imgE : Tbl (List Entry) := []
  /-- Restored images, newest first (R418). -/
  restored : List (Nat × Nat) := []
  /-- Incarnation (R382). -/
  incarnation : Nat := 0
  /-- Reset log (R362). -/
  resetLog : List ResetRec := []
  /-- Boot record (R472). -/
  boot : Boot := {}
  /-- Record that takes effect at the next reset (R473). -/
  bootNew : Option Boot := none
  /-- Fused digest of the owner public key (R473). -/
  fused : Option (BitVec 384) := none
  /-- A boot record has been written to MRAM (R473). -/
  recOk : Bool := false
  /-- Its second copy has been written (R473). -/
  copyOk : Bool := false
  /-- Boot steps 2 to 8 have passed (R500). -/
  bootOk : Bool := false
  /-- FILL has written memory (R310). -/
  filled : Bool := false
  /-- What the boot steps find, held while ROM waits for a firmware image (R37, R449). -/
  bootIn : Option BootIn := none
  /-- Firmware bank A of the SPI NOR device (R449). -/
  bankA : Option BankImage := none
  /-- Firmware bank B of the SPI NOR device (R449). -/
  bankB : Option BankImage := none
  /-- VERSION of the running bank (R461). -/
  fwRun : Nat := 0
  /-- Running bank (R449). -/
  fwBank : Nat := 0
  /-- VERSION of the held draft image (R174). -/
  draftVer : Nat := 0
  /-- CRC of the held draft image (R170). -/
  draftCrc : Nat := 0
  /-- CODE of the held draft image (R167, R168). -/
  draftCode : List Word := []
  /-- SIGNATURE of the held draft image (R167). -/
  draftSig : BitVec 768 := 0
  /-- Stamps of Jalif mismatches (R425). -/
  mism : List Nat := []
  /-- Waiting in ROM for a firmware image (R37). -/
  recovery : Bool := false
  /-- Reset answered and about to begin: 0 cold, 1 warm (R457). -/
  resetReq : Option Nat := none
  /-- RESET command whose drain runs (R362, R457). -/
  drainMb : Option Mb := none
  /-- Scope of that RESET (R457). -/
  drainKind : Nat := 0
  /-- Tick at which the drain began (R362). -/
  drainAt : Nat := 0
  /-- Images held for re-hosting or suspension, by spindle (R204, R300). -/
  heldImg : Tbl Image := []
  /-- Committed fasten images of solo skeins, by spindle (R200, R300). -/
  soloImg : Tbl Image := []
  /-- Images of the fasten now doubling to the hub (R200). -/
  soloImgP : Tbl Image := []
  /-- Spindles to place, ascending (R202). -/
  rehost : List Nat := []
deriving DecidableEq, Repr

/-- The timebase alignment (R494). -/
structure Tally where
  /-- Marks of the frame so far (R494). -/
  bitsIn : List Bool := []
  /-- LOCKED (R503). -/
  locked : Bool := false
  /-- Tally.offset_ns (R502). -/
  offset : Int := 0
  /-- Marks in a row within 20 ns (R494). -/
  good : Nat := 0
  /-- Marks driven in the current frame (R494). -/
  marksOut : Nat := 0
  /-- Tick of the last mark (R494). -/
  lastMark : Nat := 0
  /-- Tick the current outgoing frame carries (R494). -/
  frame : Nat := 0
  /-- Slew of the tick rate in ppm (R494). -/
  slew : Int := 0
deriving DecidableEq, Repr

/-- The package's signals and the test port (R513, R518). -/
structure Pins where
  /-- PWR_OK (R513). -/
  pwrOk : Bool := true
  /-- RESET_N (R513). -/
  resetN : Bool := true
  /-- RECOVERY_N as sampled (R513). -/
  recoveryN : Bool := true
  /-- PG_CORE_0 to PG_CORE_12 (R511). -/
  pgCore : BitVec 13 := 0x1FFF
  /-- PG_AUX (R511). -/
  pgAux : Bool := true
  /-- ERR_N is driven low (R437). -/
  errLow : Bool := false
  /-- FATAL_N is driven low (R437). -/
  fatalLow : Bool := false
  /-- THERMTRIP_N is driven low (R516). -/
  tripLow : Bool := false
  /-- ALIVE toggles (R515). -/
  alive : Bool := false
  /-- Bit n: PERST_Nn is driven low (log 99) (R513). -/
  perst : BitVec 24 := 0
  /-- Mark last driven on TALLY_OUT: 0 none, 1 a 0 bit, 2 a 1 bit (R494). -/
  tallyOut : Nat := 0
  /-- Selected instruction: 0 BYPASS, 1 IDCODE, 2 SAMPLE/PRELOAD, 3 EXTEST, 4 CLAMP, 5 HIGHZ (R518). -/
  jtag : Nat := 0
  /-- Register the port shifts out (R518). -/
  jtagOut : Nat := 0
deriving DecidableEq, Repr

/-- The hub's accounts, domains and clocks (R475 to R503). -/
structure Power where
  /-- Hub ALLOWANCE (R503). -/
  hubAllow : Nat := 240
  /-- Beads withdrawn from the hub (R487). -/
  hubHeat : Nat := 0
  /-- Hub GRANTED, 1/32 bead (R503). -/
  hubGranted : Nat := 0
  /-- Beads lent to the hub keeper (R502). -/
  hubLent : Nat := 0
  /-- RESERVE (R503). -/
  reserve : Nat := 76
  /-- Hub TEMP_C (R503). -/
  hubTemp : Nat := 0
  /-- Hub SOFT (R503). -/
  hubSoft : Bool := false
  /-- Hub HARD (R503). -/
  hubHard : Bool := false
  /-- Tick at which the hub's hardware throttle last came into force (R488). -/
  hubHardAt : Nat := 0
  /-- Requests waiting at the hub keeper (R479). -/
  hubWait : List BeadReq := []
  /-- Halvings of the lane and engine dispatch rates in force (R487). -/
  hubRate : Nat := 0
  /-- Power-on, and no boot since (R492, R502). -/
  powerOn : Bool := false
  /-- Loans: keeper and beads, latest first (R484). -/
  loans : List (Nat × Nat) := []
  /-- Power.domain_state (R502). -/
  domains : Tbl Nat := []
  /-- Tick at which the gate of a power domain was last switched for a grant (R478). -/
  gateAt : Tbl Nat := []
  /-- Tick from which the next telemetry sample may come (R483). -/
  nextSample : Nat := 0
  /-- Tick from which the next rebalance may come (R483). -/
  nextRebal : Nat := 0
  /-- Power.rail_current (R502). -/
  current : Tbl Nat := []
  /-- REF_A_OK (R503). -/
  refA : Bool := false
  /-- REF_B_OK (R503). -/
  refB : Bool := false
  /-- SELECTED (R503). -/
  refSel : Nat := 0
  /-- Reset.last of the hub (R502). -/
  hubResetLast : Nat := 0
  /-- The hub die is lost, and Jalif answers nothing (R37, R511). -/
  hubLost : Bool := false
  /-- Samples in a row above the margin (R486). -/
  hubOver : Nat := 0
  /-- Rails with an uncleared regulator fault (R511). -/
  regFault : BitVec 24 := 0
  /-- Alignment (R494). -/
  tally : Tally := {}
deriving DecidableEq, Repr

/-- The memory that the address map names (R38, R297, R323). -/
structure Mem where
  /-- Bytes of local DDR5 and CXL memory (R38, R310). -/
  bytes : List Host.Cell := []
  /-- Capability tags by granule number (R115, R304). -/
  tags : Tbl Bool := []
  /-- Poison markers by line number (R304, R314). -/
  poison : Tbl Bool := []
deriving DecidableEq, Repr

/-- The spindles, the plies and the skeins. -/
structure Cores where
  /-- Spindles by number (R15). -/
  spindles : Tbl Spindle := []
  /-- Plies by 20 * skein + ply (R15). -/
  plies : Tbl Ply := []
  /-- Skeins (R15). -/
  skeins : Tbl Skein := []
deriving DecidableEq, Repr

/-- The home slices, the journals, the serial-output gate and the interrupt router. -/
structure HomeSys where
  /-- Directory entries by line number (R243). -/
  dir : Tbl DirEntry := []
  /-- Open transactions (R247). -/
  txns : List Txn := []
  /-- Home slices (R266). -/
  homes : Tbl HomeLog := []
  /-- Fasten journals (R193). -/
  journal : List JEntry := []
  /-- Serial-output gate by spindle (R188). -/
  gate : Tbl GateEntry := []
  /-- Copies kept by the interrupt router: spindle, interrupt, epoch (R134). -/
  router : List (Nat × Nat × Nat) := []
  /-- Refused requests of the hub's agents, retried inside the hub (R186, R247, R248). -/
  hubReqs : List Packet := []
  /-- Requests NACKed UNFASTENED for which a hold may be kept: line, skein that asked (R185, R246). -/
  holds : List (Nat × Nat) := []
  /-- Meta state of shared CXL lines that the reel last asked of the device: 1 shared, 2 any (R262). -/
  biMeta : Tbl Nat := []
  /-- Back-invalidate snoops not yet answered: line, shared asked, delayed by a fasten, tick of arrival (R186, R262, R376). -/
  biHeld : List (Nat × Bool × Bool × Nat) := []
  /-- The last response to a back-invalidate snoop of a line: 1 Invalid, 2 Shared (R262). -/
  biRsp : Tbl Nat := []
deriving DecidableEq, Repr

/-- The fabric, the probes of the hub and the guest sites. -/
structure Fabric where
  /-- Packets sent and not yet received (R271). -/
  net : List Packet := []
  /-- The ends of the strand links: 2k skein k's hub role, 2k + 1 its buddy role, 24 + k the hub's end of link k (R277). -/
  strands : Tbl StrandEnd := []
  /-- Fabric domains (R282). -/
  fences : Tbl FenceSt := []
  /-- Hub probes (R285). -/
  hubProbes : Tbl Probe := []
  /-- Hub trace buffer (R286). -/
  hubTrace : Trace := {}
  /-- Guest sites (R295). -/
  sites : Tbl Site := []
  /-- Coprocessor requests that the firewall holds for their rate, by spindle, oldest first (R292). -/
  copHeld : List (Nat × Serial) := []
  /-- By partition, the current microsecond and the flits of coprocessor requests sent in it (R292). -/
  copFlow : Tbl (Nat × Nat) := []
deriving DecidableEq, Repr

/-- The memory controllers. -/
structure MemSys where
  /-- Interleave mode in force (R302). -/
  interleave : Nat := 0
  /-- DDR5 channels (R329). -/
  chans : Tbl MemCh := []
  /-- Retire list (R321). -/
  retired : List Retired := []
  /-- Memory log, newest first (R322). -/
  memLog : List MemRec := []
  /-- Records written to the memory log (R322). -/
  memCount : Nat := 0
deriving DecidableEq, Repr

/-- The channel subsystem of the hub. -/
structure Chan where
  /-- Ledger by slot (R341). -/
  ledger : Tbl Entry := []
  /-- Generation of each slot (R339). -/
  slotGen : Tbl Nat := []
  /-- ACCEPTING (R365). -/
  accepting : Bool := false
  /-- LEDGER_ERR_LOG (R365). -/
  ledgerLog : Word := 0
  /-- Acceptances and terminations numbered so far (R344). -/
  ledgerCount : Nat := 0
  /-- Channel engines (R365). -/
  engines : Tbl Engine := []
  /-- Device counters (R364). -/
  devices : Tbl Device := []
deriving DecidableEq, Repr

/-- The flex lanes and the rack links. -/
structure Links where
  /-- Flex root ports (R389). -/
  flex : Tbl Flex := []
  /-- Rack ports (R389). -/
  racks : Tbl Rack := []
  /-- Deduplication table by tag (R384). -/
  dedup : Tbl Dedup := []
  /-- Endpoints (R386). -/
  endpoints : Tbl Endpoint := []
deriving DecidableEq, Repr

/-- The reel. -/
structure State where
  /-- The timebase (R492). -/
  time : Nat := 0
  /-- Life state (R33, REEL_STATUS). -/
  life : Life := .rom
  /-- The memory that the address map names (R38, R297, R323) (see Mem). -/
  mem : Mem := {}
  /-- The spindles, the plies and the skeins (see Cores). -/
  cores : Cores := {}
  /-- The home slices, the journals, the serial-output gate and the interrupt router (see HomeSys). -/
  home : HomeSys := {}
  /-- The fabric, the probes of the hub and the guest sites (see Fabric). -/
  fab : Fabric := {}
  /-- The memory controllers (see MemSys). -/
  mcs : MemSys := {}
  /-- The channel subsystem of the hub (see Chan). -/
  chan : Chan := {}
  /-- The flex lanes and the rack links (see Links). -/
  links : Links := {}
  /-- Tenant pages (R393). -/
  tenants : Tbl Tenant := []
  /-- Fault collector and snapshots (R424). -/
  faults : Faults := {}
  /-- Jalif (R449). -/
  jalif : Jalif := {}
  /-- Committed parameters by ID * 2^64 + index, default values unlisted (R460). -/
  params : Tbl Nat := []
  /-- Accounts, domains and clocks (R475). -/
  power : Power := {}
  /-- Signals (R513). -/
  pins : Pins := {}
  /-- Configuration generation of the hub (R467). -/
  hubGen : Nat := 0
  /-- The MODEL's own: counter of free values taken (MODEL). -/
  freeCtr : Nat := 0
  /-- The MODEL's own: commands waiting, first in first out (MODEL). -/
  pending : List Instr := []
deriving DecidableEq, Repr

/-- The reasons a step can stop with a fault. There is none: the spec leaves no outcome of a command open (R8), a
command whose condition does not hold has no effect, and every failed access has the outcome a rule gives it. -/
inductive Fault where
deriving DecidableEq, Repr

/-- The reasons a step can refuse a command. -/
inductive Refusal where
  /-- Raised by Machine/Dispatch.lean alone, for a row that has no meaning in this model. Safe: it stops the machine. -/
  | notModelled (mnemonic : String)
deriving DecidableEq, Repr

/-- The reel after reset, in ROM (REEL_STATUS resets to LIFE_STATE 1), before any command has arrived. -/
def State.reset : State := {}

end Sys2Proof.Machine
end

