-- ==== Sys2Proof/Machine/Table.lean ====
section
/-!
DEFINITION. Sparse tables: reading a key, writing a key, and the canonical form (keys strictly rising, no listed value
equal to the default), so that equal contents are equal data. The memory of R38 is such a table of bytes.
-/

namespace Sys2Proof.Machine

variable {α : Type}

/-- The value at key k; the default d where none is listed. -/
def tget (d : α) : Tbl α → Nat → α
  | [], _ => d
  | (j, v) :: r, k => if j = k then v else tget d r k

/-- The table with v listed at key k. -/
def tins : Tbl α → Nat → α → Tbl α
  | [], k, v => [(k, v)]
  | (j, w) :: r, k, v =>
    if k < j then (k, v) :: (j, w) :: r else if k = j then (k, v) :: r else (j, w) :: tins r k v

/-- The table with nothing listed at key k. -/
def terase : Tbl α → Nat → Tbl α
  | [], _ => []
  | (j, w) :: r, k => if j = k then terase r k else (j, w) :: terase r k

/-- The table with value v at key k: the default is not listed. -/
def tset [DecidableEq α] (d : α) (t : Tbl α) (k : Nat) (v : α) : Tbl α :=
  if v = d then terase t k else tins t k v

/-- The table with the value at key k changed by f. -/
def tmod [DecidableEq α] (d : α) (t : Tbl α) (k : Nat) (f : α → α) : Tbl α := tset d t k (f (tget d t k))

/-- Every listed key is above the bound and the keys rise strictly; no listed value is the default. -/
def twfFrom [DecidableEq α] (d : α) : Nat → Tbl α → Bool
  | _, [] => true
  | n, (j, v) :: r => decide (n ≤ j) && !decide (v = d) && twfFrom d (j + 1) r

/-- The canonical form of a table. -/
def twf [DecidableEq α] (d : α) (t : Tbl α) : Bool := twfFrom d 0 t

/-- The first n natural numbers from a. -/
def natsFrom (a n : Nat) : List Nat := (List.range n).map (a + ·)

/-- The state after f at each element of the list, in order. -/
def foldS {σ β : Type} (xs : List β) (f : β → σ → σ) (s : σ) : σ := xs.foldl (fun t x => f x t) s

end Sys2Proof.Machine
end

