-- ==== Sys2Proof/Machine/Ops.lean ====
section
/-!
DEFINITION. The named operations over the registers and tables of State: one reading and one writing operation for each
table, and the bit-field helpers that the meanings share.
-/

namespace Sys2Proof.Machine

/-- Bits [hi:lo] of x as a number. -/
def bits (x : Nat) (lo n : Nat) : Nat := x / 2 ^ lo % 2 ^ n

/-- Bit k of x. -/
def bitAt (x k : Nat) : Bool := x.testBit k

/-- A Bool as 0 or 1. -/
def b2n (b : Bool) : Nat := if b then 1 else 0

/-- A register from its fields, each given with its lowest bit. -/
def pack (fs : List (Nat × Nat)) : Nat := (fs.map fun f => f.2 * 2 ^ f.1).sum

/-- x saturated at the largest value of n bits. -/
def satBits (n x : Nat) : Nat := min x (2 ^ n - 1)

/-- The two's-complement reading of the low n bits of x. -/
def signedOf (n x : Nat) : Int :=
  let y := x % 2 ^ n
  if y < 2 ^ (n - 1) then (y : Int) else (y : Int) - (2 ^ n : Nat)

/-- The low n bits of the integer x. -/
def wrapOf (n : Nat) (x : Int) : Nat := (x % ((2 ^ n : Nat) : Int)).toNat

/-- Spindle i. -/
def State.sp (s : State) (i : Nat) : Spindle := tget {} s.cores.spindles i
/-- Spindle i becomes x. -/
def State.setSp (s : State) (i : Nat) (x : Spindle) : State :=
  { s with cores := { s.cores with spindles := tset {} s.cores.spindles i x } }
/-- Spindle i changed by f. -/
def State.modSp (s : State) (i : Nat) (f : Spindle → Spindle) : State := s.setSp i (f (s.sp i))

/-- Ply p of skein k. -/
def State.ply (s : State) (k p : Nat) : Ply := tget {} s.cores.plies (20 * k + p)
/-- Ply p of skein k changed by f. -/
def State.modPly (s : State) (k p : Nat) (f : Ply → Ply) : State :=
  { s with cores := { s.cores with plies := tmod {} s.cores.plies (20 * k + p) f } }

/-- Skein k. -/
def State.sk (s : State) (k : Nat) : Skein := tget {} s.cores.skeins k
/-- Skein k changed by f. -/
def State.modSk (s : State) (k : Nat) (f : Skein → Skein) : State :=
  { s with cores := { s.cores with skeins := tmod {} s.cores.skeins k f } }

/-- The directory entry of a line. -/
def State.dirOf (s : State) (line : Nat) : DirEntry := tget {} s.home.dir line
/-- The directory entry of a line changed by f. -/
def State.modDir (s : State) (line : Nat) (f : DirEntry → DirEntry) : State :=
  { s with home := { s.home with dir := tmod {} s.home.dir line f } }
/-- An entry without a holder: Invalid, its way free (R243, R252). -/
def DirEntry.clear (d : DirEntry) : DirEntry :=
  { d with state := 0, owner := 15, sharers := 0, way := 0, inelig := false, resv := false }
/-- Home slice h. -/
def State.homeOf (s : State) (h : Nat) : HomeLog := tget {} s.home.homes h
/-- Home slice h changed by f. -/
def State.modHome (s : State) (h : Nat) (f : HomeLog → HomeLog) : State :=
  { s with home := { s.home with homes := tmod {} s.home.homes h f } }

/-- Channel c. -/
def State.mch (s : State) (c : Nat) : MemCh := tget {} s.mcs.chans c
/-- Channel c changed by f. -/
def State.modMch (s : State) (c : Nat) (f : MemCh → MemCh) : State :=
  { s with mcs := { s.mcs with chans := tmod {} s.mcs.chans c f } }

/-- Tenant page p. -/
def State.tenant (s : State) (p : Nat) : Tenant := tget {} s.tenants p
/-- Tenant page p changed by f. -/
def State.modTenant (s : State) (p : Nat) (f : Tenant → Tenant) : State :=
  { s with tenants := tmod {} s.tenants p f }

/-- Ledger slot k. -/
def State.entry (s : State) (k : Nat) : Entry := tget {} s.chan.ledger k
/-- Ledger slot k changed by f. -/
def State.modEntry (s : State) (k : Nat) (f : Entry → Entry) : State :=
  { s with chan := { s.chan with ledger := tmod {} s.chan.ledger k f } }
/-- Channel engine e. -/
def State.engine (s : State) (e : Nat) : Engine := tget {} s.chan.engines e
/-- Channel engine e changed by f. -/
def State.modEngine (s : State) (e : Nat) (f : Engine → Engine) : State :=
  { s with chan := { s.chan with engines := tmod {} s.chan.engines e f } }
/-- Device number d. -/
def State.device (s : State) (d : Nat) : Device := tget {} s.chan.devices d
/-- Device number d changed by f. -/
def State.modDevice (s : State) (d : Nat) (f : Device → Device) : State :=
  { s with chan := { s.chan with devices := tmod {} s.chan.devices d f } }

/-- Flex port n. -/
def State.flexP (s : State) (n : Nat) : Flex := tget {} s.links.flex n
/-- Flex port n changed by f. -/
def State.modFlex (s : State) (n : Nat) (f : Flex → Flex) : State :=
  { s with links := { s.links with flex := tmod {} s.links.flex n f } }
/-- Rack port k. -/
def State.rack (s : State) (k : Nat) : Rack := tget {} s.links.racks k
/-- Rack port k changed by f. -/
def State.modRack (s : State) (k : Nat) (f : Rack → Rack) : State :=
  { s with links := { s.links with racks := tmod {} s.links.racks k f } }
/-- Served endpoint e. -/
def State.endpoint (s : State) (e : Nat) : Endpoint := tget {} s.links.endpoints e
/-- Served endpoint e changed by f. -/
def State.modEndpoint (s : State) (e : Nat) (f : Endpoint → Endpoint) : State :=
  { s with links := { s.links with endpoints := tmod {} s.links.endpoints e f } }

/-- Guest site g. -/
def State.site (s : State) (g : Nat) : Site := tget {} s.fab.sites g
/-- Guest site g changed by f. -/
def State.modSite (s : State) (g : Nat) (f : Site → Site) : State :=
  { s with fab := { s.fab with sites := tmod {} s.fab.sites g f } }

/-- Mailbox page p; 49 is the BMC mailbox. -/
def State.mbox (s : State) (p : Nat) : Mbox := tget {} s.jalif.mboxes p
/-- Mailbox page p changed by f. -/
def State.modMbox (s : State) (p : Nat) (f : Mbox → Mbox) : State :=
  { s with jalif := { s.jalif with mboxes := tmod {} s.jalif.mboxes p f } }
/-- Jalif's state changed by f. -/
def State.modJalif (s : State) (f : Jalif → Jalif) : State := { s with jalif := f s.jalif }
/-- The fault collector's state changed by f. -/
def State.modFaults (s : State) (f : Faults → Faults) : State := { s with faults := f s.faults }
/-- The power state changed by f. -/
def State.modPower (s : State) (f : Power → Power) : State := { s with power := f s.power }
/-- The pins changed by f. -/
def State.modPins (s : State) (f : Pins → Pins) : State := { s with pins := f s.pins }

/-- Spindle numbers (R15). -/
def allSpindles : List Nat := List.range 480
/-- Skein numbers. -/
def allSkeins : List Nat := List.range 12
/-- The spindles that a skein hosts (R174). -/
def State.hosted (s : State) (k : Nat) : List Nat :=
  s.cores.spindles.filterMap fun e => match e.2.host with
    | some h => if h.skein = k then some e.1 else none
    | none => none
/-- The spindle that a fibre of a ply hosts. -/
def State.spindleAt (s : State) (k p f : Nat) : Option Nat :=
  (s.cores.spindles.find? fun e => e.2.host == some ⟨k, p, f⟩).map (·.1)
/-- The spindles that a ply hosts. -/
def State.spindlesOn (s : State) (k p : Nat) : List Nat :=
  s.cores.spindles.filterMap fun e => match e.2.host with
    | some h => if h.skein = k ∧ h.ply = p then some e.1 else none
    | none => none

/-- A general register (R55). -/
def Arch.getG (a : Arch) (k : Nat) : Word := tget 0 a.g k
/-- A capability register (R55). -/
def Arch.getC (a : Arch) (k : Nat) : Cap := tget Cap.zero a.c k
/-- The sockets of unit u (R58). -/
def Arch.unit (a : Arch) (u : Nat) : UnitSock := tget {} a.units u
/-- The sockets of unit u changed by f. -/
def Arch.modUnit (a : Arch) (u : Nat) (f : UnitSock → UnitSock) : Arch :=
  { a with units := tmod {} a.units u f }
/-- The architectural state of a spindle changed by f. -/
def Spindle.modArch (x : Spindle) (f : Arch → Arch) : Spindle := { x with arch := f x.arch }

end Sys2Proof.Machine
end

