-- ==== Sys2Proof/Machine/Flags.lean ====
section
/-!
DEFINITION. The flag computations of the integer units (R79, R81) and the record of what one operation leaves: result,
status bits, arithmetic causes, latency (R60, R98, R100).
-/

namespace Sys2Proof.Machine

/-- What an operation leaves when it completes: the result, the status bits it clears and sets, the causes it raises as
IEEE flag bits (NV to NX in bits 0 to 4, ID in bit 5) and as integer overflow, and its latency in ply cycles. -/
structure OpOut where
  res  : BitVec 128
  clr  : Word := 0
  set  : Word := 0
  iov  : Bool := false
  flags : Nat := 0
  lat  : Nat := 1
deriving DecidableEq, Repr

/-- A result of 64 bits with no flag. -/
def OpOut.of (x : Word) (lat : Nat := 1) : OpOut := { res := x.setWidth 128, lat := lat }

/-- Carry out of bit 63 of a + b + c (R79). -/
def carryOut (a b : Word) (c : Bool) : Bool := decide (2 ^ 64 ≤ a.toNat + b.toNat + b2n c)

/-- Signed overflow of the exact sum x: it lies outside the signed 64-bit range (R79, R81). -/
def overflows64 (x : Int) : Bool := decide (x < -(2 ^ 63 : Int)) || decide ((2 ^ 63 : Int) ≤ x)

/-- Signed overflow of a + b + c. -/
def addOverflow (a b : Word) (c : Bool) : Bool := overflows64 (a.toInt + b.toInt + (b2n c : Int))

/-- Borrow of a - b: a is below b unsigned (R79). -/
def subBorrow (a b : Word) : Bool := decide (a.toNat < b.toNat)

/-- Signed overflow of a - b. -/
def subOverflow (a b : Word) : Bool := overflows64 (a.toInt - b.toInt)

/-- The ALU status word with C set as given and V set when v (R65): bit 0 is C, bit 1 V. -/
def aluBits (c v : Bool) : Word := BitVec.ofNat 64 (b2n c + 2 * b2n v)

end Sys2Proof.Machine
end

