-- ==== Sys2Proof/Machine/Alu.lean ====
section
/-!
DEFINITION. The results of the ALUs, the multiplier and the divider (R79 to R84) as functions of their operands.
-/

namespace Sys2Proof.Machine

/-- ADD, socket 4 (R79). -/
def aluAdd (a b : Word) : OpOut :=
  { res := (a + b).setWidth 128, clr := 1, set := aluBits (carryOut a b false) (addOverflow a b false) }
/-- SUB, socket 5. -/
def aluSub (a b : Word) : OpOut :=
  { res := (a - b).setWidth 128, clr := 1, set := aluBits (subBorrow a b) (subOverflow a b) }
/-- ADDT, socket 6: C unchanged, an overflow raises the integer-overflow cause. -/
def aluAddt (a b : Word) : OpOut :=
  { res := (a + b).setWidth 128, set := aluBits false (addOverflow a b false), iov := addOverflow a b false }
/-- SUBT, socket 7. -/
def aluSubt (a b : Word) : OpOut :=
  { res := (a - b).setWidth 128, set := aluBits false (subOverflow a b), iov := subOverflow a b }
/-- AND, socket 8. -/
def aluAnd (a b : Word) : OpOut := OpOut.of (a &&& b)
/-- OR, socket 9. -/
def aluOr (a b : Word) : OpOut := OpOut.of (a ||| b)
/-- XOR, socket 10. -/
def aluXor (a b : Word) : OpOut := OpOut.of (a ^^^ b)
/-- ANDN, socket 11. -/
def aluAndn (a b : Word) : OpOut := OpOut.of (a &&& ~~~b)
/-- SHL, socket 12: the amount is b[5:0] (R80). -/
def aluShl (a b : Word) : OpOut := OpOut.of (a <<< (b.toNat % 64))
/-- SHR, socket 13. -/
def aluShr (a b : Word) : OpOut := OpOut.of (a >>> (b.toNat % 64))
/-- SAR, socket 14. -/
def aluSar (a b : Word) : OpOut := OpOut.of (a.sshiftRight (b.toNat % 64))
/-- ADDC, socket 15: c is the C of the same ALU as it stood when the operation started (R80). -/
def aluAddc (a b : Word) (c : Bool) : OpOut :=
  { res := (a + b + BitVec.ofNat 64 (b2n c)).setWidth 128, clr := 1,
    set := aluBits (carryOut a b c) (addOverflow a b c) }

/-- A trigger of an ALU by socket number; st is the unit's status word. -/
def aluOp (t : Nat) (a b st : Word) : OpOut :=
  match t with
  | 4 => aluAdd a b | 5 => aluSub a b | 6 => aluAddt a b | 7 => aluSubt a b
  | 8 => aluAnd a b | 9 => aluOr a b | 10 => aluXor a b | 11 => aluAndn a b
  | 12 => aluShl a b | 13 => aluShr a b | 14 => aluSar a b | _ => aluAddc a b (st.getLsbD 0)

/-- The multiplier's latency: 2 when both operands are small, else 3; always 3 under Constant-time (R82, R105). -/
def mulLat (small ct : Bool) : Nat := if small && !ct then 2 else 3
/-- Both operands lie below 2^32 (R82). -/
def smallU (a b : Word) : Bool := decide (a.toNat < 2 ^ 32) && decide (b.toNat < 2 ^ 32)
/-- Both operands lie in -2^31 to 2^31 - 1 (R82). -/
def smallS (a b : Word) : Bool := inRange a.toInt && inRange b.toInt
where
  /-- x lies in -2^31 to 2^31 - 1. -/
  inRange (x : Int) : Bool := decide (-(2 ^ 31 : Int) ≤ x) && decide (x < (2 ^ 31 : Int))

/-- MUL, socket 4: bits [63:0] of the product, the upper half 0 (R81). -/
def mulLow (a b : Word) (ct : Bool) : OpOut := { res := (a * b).setWidth 128, lat := mulLat (smallU a b) ct }
/-- UMUL, socket 5: the unsigned product. -/
def mulUnsigned (a b : Word) (ct : Bool) : OpOut :=
  { res := BitVec.ofNat 128 (a.toNat * b.toNat), lat := mulLat (smallU a b) ct }
/-- SMUL, socket 6: the signed product. -/
def mulSigned (a b : Word) (ct : Bool) : OpOut :=
  { res := BitVec.ofInt 128 (a.toInt * b.toInt), lat := mulLat (smallS a b) ct }
/-- MULT, socket 7: the signed product; outside 64 signed bits V and the integer-overflow cause. -/
def mulTrap (a b : Word) (ct : Bool) : OpOut :=
  { res := BitVec.ofInt 128 (a.toInt * b.toInt), lat := mulLat (smallS a b) ct,
    set := aluBits false (overflows64 (a.toInt * b.toInt)), iov := overflows64 (a.toInt * b.toInt) }

/-- A trigger of the multiplier by socket number. -/
def mulOp (t : Nat) (a b : Word) (ct : Bool) : OpOut :=
  match t with
  | 4 => mulLow a b ct | 5 => mulUnsigned a b ct | 6 => mulSigned a b ct | _ => mulTrap a b ct

/-- Number of significant bits of x; 0 for 0. -/
def sigBits (x : Nat) : Nat := if x = 0 then 0 else Nat.log2 x + 1

/-- The divider's latency for a quotient of magnitude q (R84); 38 under Constant-time (R105). -/
def divLat (q : Nat) (ct : Bool) : Nat := if ct then 38 else 6 + (sigBits q + 1) / 2

/-- UDIV, socket 4 (R83). -/
def divUnsigned (a b : Word) (ct : Bool) : OpOut :=
  if b = 0 then { res := (BitVec.allOnes 64).setWidth 128, set := 1, lat := divLat 0 ct }
  else { res := (a / b).setWidth 128, lat := divLat (a.toNat / b.toNat) ct }
/-- SDIV, socket 5: the quotient rounded toward zero. -/
def divSigned (a b : Word) (ct : Bool) : OpOut :=
  if b = 0 then { res := (BitVec.allOnes 64).setWidth 128, set := 1, lat := divLat 0 ct }
  else if a.toInt = -(2 ^ 63 : Int) ∧ b.toInt = -1 then { res := a.setWidth 128, set := 2, lat := divLat 0 ct }
  else { res := (BitVec.ofInt 64 (a.toInt.tdiv b.toInt)).setWidth 128, lat := divLat (a.toInt.tdiv b.toInt).natAbs ct }
/-- UREM, socket 6. -/
def remUnsigned (a b : Word) (ct : Bool) : OpOut :=
  if b = 0 then { res := a.setWidth 128, set := 1, lat := divLat 0 ct }
  else { res := (a % b).setWidth 128, lat := divLat (a.toNat / b.toNat) ct }
/-- SREM, socket 7: the remainder is 0 or has the sign of a. -/
def remSigned (a b : Word) (ct : Bool) : OpOut :=
  if b = 0 then { res := a.setWidth 128, set := 1, lat := divLat 0 ct }
  else if a.toInt = -(2 ^ 63 : Int) ∧ b.toInt = -1 then { res := 0, set := 2, lat := divLat 0 ct }
  else { res := (BitVec.ofInt 64 (a.toInt.tmod b.toInt)).setWidth 128, lat := divLat (a.toInt.tdiv b.toInt).natAbs ct }

/-- A trigger of the divider by socket number. -/
def divOp (t : Nat) (a b : Word) (ct : Bool) : OpOut :=
  match t with
  | 4 => divUnsigned a b ct | 5 => divSigned a b ct | 6 => remUnsigned a b ct | _ => remSigned a b ct

end Sys2Proof.Machine
end

