-- ==== Sys2Proof/Machine/Bits.lean ====
section
/-!
DEFINITION. The results of the bit unit (R85, R86) and of the integer compares (R87).
-/

namespace Sys2Proof.Machine

/-- POS of a field specification (R85). -/
def fieldPos (b : Word) : Nat := b.toNat % 64
/-- The effective length L = min(LEN, 64 - POS). -/
def fieldLen (b : Word) : Nat := min (b.toNat / 64 % 128) (64 - fieldPos b)

/-- EXTU, socket 4: the field, zero-extended; 0 when L = 0. -/
def bitExtu (a b : Word) : Word := BitVec.ofNat 64 (bits a.toNat (fieldPos b) (fieldLen b))
/-- EXTS, socket 5: the field, sign-extended from its bit L - 1; 0 when L = 0. -/
def bitExts (a b : Word) : Word :=
  if fieldLen b = 0 then 0 else BitVec.ofInt 64 (signedOf (fieldLen b) (bits a.toNat (fieldPos b) (fieldLen b)))
/-- INS, socket 6: the target r with the field replaced by the low bits of a; r when L = 0. -/
def bitIns (a b r : Word) : Word :=
  let m : Word := BitVec.ofNat 64 ((2 ^ fieldLen b - 1) * 2 ^ fieldPos b)
  (r &&& ~~~m) ||| ((a <<< fieldPos b) &&& m)
/-- CLZ, socket 7: leading zero bits; 64 for 0. -/
def bitClz (a : Word) : Word := BitVec.ofNat 64 (if a = 0 then 64 else 63 - Nat.log2 a.toNat)
/-- CTZ, socket 8: trailing zero bits; 64 for 0. -/
def bitCtz (a : Word) : Word :=
  BitVec.ofNat 64 (((List.range 64).find? fun k => a.getLsbD k).getD 64)
/-- POPC, socket 9: number of 1 bits. -/
def bitPopc (a : Word) : Word := BitVec.ofNat 64 ((List.range 64).filter fun k => a.getLsbD k).length
/-- Byte i of a word. -/
def byteOf (a : Word) (i : Nat) : Nat := a.toNat / 2 ^ (8 * i) % 256
/-- The word whose byte i is f i. -/
def wordOfBytes (f : Nat → Nat) : Word :=
  BitVec.ofNat 64 ((List.range 8).foldl (fun acc i => acc + f i % 256 * 2 ^ (8 * i)) 0)
/-- PERM, socket 10: byte i is chosen by selector b[4i+3:4i]; 8 to 15 give 0x00 (R86). -/
def bitPerm (a b : Word) : Word :=
  wordOfBytes fun i => let sel := b.toNat / 2 ^ (4 * i) % 16; if sel < 8 then byteOf a sel else 0
/-- BSWAP, socket 11. -/
def bitBswap (a : Word) : Word := wordOfBytes fun i => byteOf a (7 - i)
/-- ROL, socket 12. -/
def bitRol (a b : Word) : Word := a.rotateLeft (b.toNat % 64)
/-- ROR, socket 13. -/
def bitRor (a b : Word) : Word := a.rotateRight (b.toNat % 64)

/-- The bit unit's latency: PERM 2, the others 1; 2 for all under Constant-time (R66, R105). -/
def bitLat (t : Nat) (ct : Bool) : Nat := if ct || t = 10 then 2 else 1

/-- A trigger of the bit unit by socket number; r is the result socket as the operation takes it (R61). -/
def bitOp (t : Nat) (a b r : Word) (ct : Bool) : OpOut :=
  let x := match t with
    | 4 => bitExtu a b | 5 => bitExts a b | 6 => bitIns a b r | 7 => bitClz a | 8 => bitCtz a | 9 => bitPopc a
    | 10 => bitPerm a b | 11 => bitBswap a | 12 => bitRol a b | _ => bitRor a b
  OpOut.of x (bitLat t ct)

/-- EQ, socket 4 (R87). -/
def testEq (a b : Word) : Bool := a == b
/-- NE, socket 5. -/
def testNe (a b : Word) : Bool := a != b
/-- LT, socket 6: signed. -/
def testLt (a b : Word) : Bool := decide (a.toInt < b.toInt)
/-- LE, socket 7: signed. -/
def testLe (a b : Word) : Bool := decide (a.toInt ≤ b.toInt)
/-- LTU, socket 8: unsigned. -/
def testLtu (a b : Word) : Bool := decide (a.toNat < b.toNat)
/-- LEU, socket 9: unsigned. -/
def testLeu (a b : Word) : Bool := decide (a.toNat ≤ b.toNat)
/-- TBIT, socket 14: bit b[5:0] of a. -/
def testBitOf (a b : Word) : Bool := a.getLsbD (b.toNat % 64)

end Sys2Proof.Machine
end

