-- ==== Sys2Proof/Machine/Float.lean ====
section
/-!
DEFINITION. Binary floating point (R89 to R93): decoding of the three formats, exact arithmetic on coefficients and
exponents, one rounding at the end, and the flags. The rounding step is shared with the decimal unit (Decimal.lean).
-/

namespace Sys2Proof.Machine

/-- IEEE flag bits as the status sockets number them (R65). -/
def fNV : Nat := 1
/-- Division by zero. -/
def fDZ : Nat := 2
/-- Overflow. -/
def fOF : Nat := 4
/-- Underflow. -/
def fUF : Nat := 8
/-- Inexact. -/
def fNX : Nat := 16
/-- Decimal invalid data. -/
def fID : Nat := 32

/-- A floating-point datum in either radix: a finite value with coefficient c and exponent q, an infinity, or a NaN with
its payload. -/
inductive FNum where
  | fin (s : Bool) (c : Nat) (q : Int)
  | inf (s : Bool)
  | nan (s : Bool) (sig : Bool) (pay : Nat)
deriving DecidableEq, Repr

/-- The datum is a NaN. -/
def FNum.isNan : FNum → Bool
  | .nan .. => true
  | _ => false
/-- The datum is a signalling NaN. -/
def FNum.isSig : FNum → Bool
  | .nan _ true _ => true
  | _ => false
/-- The sign. -/
def FNum.sign : FNum → Bool
  | .fin s .. => s
  | .inf s => s
  | .nan s .. => s
/-- The quieted form of a NaN. -/
def FNum.quiet : FNum → FNum
  | .nan s _ p => .nan s false p
  | x => x
/-- The datum with its sign changed; a NaN is passed on as it is, so that FSUB and DSUB return the NaN of b (R90). -/
def FNum.neg : FNum → FNum
  | .fin s c q => .fin (!s) c q
  | .inf s => .inf (!s)
  | .nan s g p => .nan s g p

/-- The rounding attribute in force: RND selects code RND - 1, RND 0 the RM field, and a code of 7 to 15 rounds as
code 0 (R92, R93). -/
def roundAttr (rnd rm : Nat) : Nat :=
  let c := if rnd = 0 then rm else rnd - 1
  if c ≤ 6 then c else 0

/-- Whether a truncated magnitude is raised by one unit: last digit, comparison of the tail with a half unit, whether
the tail is non-zero, sign, and whether the last digit calls for it under round-for-reround (R92). -/
def roundUp (att : Nat) (s : Bool) (last : Nat) (half : Ordering) (inexact reround : Bool) : Bool :=
  match att with
  | 0 => half == .gt || (half == .eq && last % 2 == 1)
  | 1 => false
  | 2 => inexact && !s
  | 3 => inexact && s
  | 4 => half != .lt
  | 5 => half == .gt
  | _ => inexact && reround

/-- The magnitude c * b^e, with a tail below one unit when sticky, rounded to a multiple of b^q: the multiple and
whether the rounding is inexact. -/
def roundAt (b att : Nat) (s : Bool) (c : Nat) (e : Int) (sticky : Bool) (q : Int) : Nat × Bool :=
  if q ≤ e then (c * b ^ (e - q).toNat, sticky)
  else
    let u := b ^ (q - e).toNat
    let d := c / u
    let r := c % u
    let half := if 2 * r < u then .lt else if 2 * r = u then (if sticky then Ordering.gt else .eq) else .gt
    let inexact := sticky || r ≠ 0
    let last := d % b
    let up := roundUp att s last half inexact (if b = 2 then last == 0 else last == 0 || last == 5)
    (if up then d + 1 else d, inexact)

/-- An overflow rounds to an infinity rather than to the largest finite value (R92). -/
def overflowsToInf (att : Nat) (s : Bool) : Bool :=
  match att with
  | 0 | 4 | 5 => true
  | 2 => !s
  | 3 => s
  | _ => false

/-- The largest integer whose square is at most x: one bit of the root at a time. -/
def isqrtGo : Nat → Nat → Nat → Nat
  | 0, _, r => r
  | k + 1, x, r => if (r + 2 ^ k) * (r + 2 ^ k) ≤ x then isqrtGo k x (r + 2 ^ k) else isqrtGo k x r
/-- The integer square root. -/
def isqrt (x : Nat) : Nat := isqrtGo (Nat.log2 x / 2 + 1) x 0

/-- A binary format: precision, largest exponent, exponent bits, width. -/
structure BFmt where
  p : Nat
  emax : Int
  w : Nat
  width : Nat
deriving DecidableEq, Repr

/-- The format of an FMT code: 0 binary64, 1 binary32, 2 binary128 (R64). -/
def bfmt (code : Nat) : BFmt :=
  match code with
  | 1 => ⟨24, 127, 8, 32⟩
  | 2 => ⟨113, 16383, 15, 128⟩
  | _ => ⟨53, 1023, 11, 64⟩

/-- The exponent of one unit in the last place of a subnormal. -/
def BFmt.qmin (f : BFmt) : Int := 2 - f.emax - f.p

/-- Number of bits of c. -/
def bitLen (c : Nat) : Nat := if c = 0 then 0 else Nat.log2 c + 1

/-- The datum that the low bits of x encode (R89). -/
def bdecode (f : BFmt) (x : Nat) : FNum :=
  let fr := x % 2 ^ (f.p - 1)
  let ex := x / 2 ^ (f.p - 1) % 2 ^ f.w
  let s := x / 2 ^ (f.width - 1) % 2 == 1
  if ex = 2 ^ f.w - 1 then
    if fr = 0 then .inf s else .nan s (fr / 2 ^ (f.p - 2) % 2 == 0) (fr % 2 ^ (f.p - 2))
  else if ex = 0 then .fin s fr f.qmin
  else .fin s (2 ^ (f.p - 1) + fr) (f.qmin + (ex : Int) - 1)

/-- The encoding of a datum that the format represents: coefficient below 2^p, at or above 2^(p-1) unless the exponent
is the least. -/
def bencode (f : BFmt) (x : FNum) : Nat :=
  let sg (s : Bool) := b2n s * 2 ^ (f.width - 1)
  match x with
  | .inf s => sg s + (2 ^ f.w - 1) * 2 ^ (f.p - 1)
  | .nan s g p => sg s + (2 ^ f.w - 1) * 2 ^ (f.p - 1) + (if g then 0 else 2 ^ (f.p - 2)) + p % 2 ^ (f.p - 2)
  | .fin s c q =>
    if c < 2 ^ (f.p - 1) then sg s + c
    else sg s + (q - f.qmin + 1).toNat * 2 ^ (f.p - 1) + (c - 2 ^ (f.p - 1))

/-- The default NaN (R90). -/
def defaultNan : FNum := .nan false false 0

/-- A magnitude c * 2^e with a possible tail rounded to the format: the datum and the flags; tininess is detected after
rounding, and with the UF trap enabled every tiny result raises UF (R90). -/
def bround (f : BFmt) (att : Nat) (ufTrap s : Bool) (c : Nat) (e : Int) (sticky : Bool) : FNum × Nat :=
  if c = 0 && !sticky then (.fin s 0 f.qmin, 0)
  else
    let qu := e + (bitLen c : Int) - f.p
    let (cu, _) := roundAt 2 att s c e sticky qu
    let top := qu + (bitLen cu : Int) - 1
    if f.emax < top then
      (if overflowsToInf att s then .inf s else .fin s (2 ^ f.p - 1) (f.emax - f.p + 1), fOF + fNX)
    else
      let q := max qu f.qmin
      let (m, inexact) := roundAt 2 att s c e sticky q
      let tiny := decide (top < 1 - f.emax)
      let fl := (if inexact then fNX else 0) + (if tiny && (inexact || ufTrap) then fUF else 0)
      (if bitLen m ≤ f.p then .fin s m q else .fin s (m / 2) (q + 1), fl)

/-- The result of an operation on NaN operands: the first one, quieted; NV when any is signalling (R90). -/
def nanResult (xs : List FNum) : FNum × Nat :=
  (((xs.find? FNum.isNan).getD defaultNan).quiet, if xs.any FNum.isSig then fNV else 0)

/-- The default NaN with NV: an invalid operation without a NaN operand. -/
def invalid : FNum × Nat := (defaultNan, fNV)

/-- The exact sum of two finite data as an integer over a common exponent. -/
def exactSum (b : Nat) (s1 : Bool) (c1 : Nat) (q1 : Int) (s2 : Bool) (c2 : Nat) (q2 : Int) : Int × Int :=
  let q := min q1 q2
  let v1 : Int := (c1 * b ^ (q1 - q).toNat : Nat)
  let v2 : Int := (c2 * b ^ (q2 - q).toNat : Nat)
  ((if s1 then -v1 else v1) + (if s2 then -v2 else v2), q)

/-- The sign of an exact zero sum (R93). -/
def zeroSumSign (att : Nat) (s1 s2 : Bool) : Bool := if s1 == s2 then s1 else att == 3

/-- a + b (R89). -/
def badd (f : BFmt) (att : Nat) (ut : Bool) (x y : FNum) : FNum × Nat :=
  match x, y with
  | .nan .., _ => nanResult [x, y]
  | _, .nan .. => nanResult [x, y]
  | .inf s, .inf t => if s == t then (.inf s, 0) else invalid
  | .inf s, _ => (.inf s, 0)
  | _, .inf t => (.inf t, 0)
  | .fin s1 c1 q1, .fin s2 c2 q2 =>
    let (v, q) := exactSum 2 s1 c1 q1 s2 c2 q2
    if v = 0 then (.fin (zeroSumSign att s1 s2) 0 f.qmin, 0) else bround f att ut (decide (v < 0)) v.natAbs q false

/-- a × b (R89). -/
def bmul (f : BFmt) (att : Nat) (ut : Bool) (x y : FNum) : FNum × Nat :=
  match x, y with
  | .nan .., _ => nanResult [x, y]
  | _, .nan .. => nanResult [x, y]
  | .inf s, .inf t => (.inf (s != t), 0)
  | .inf s, .fin t c _ => if c = 0 then invalid else (.inf (s != t), 0)
  | .fin s c _, .inf t => if c = 0 then invalid else (.inf (s != t), 0)
  | .fin s1 c1 q1, .fin s2 c2 q2 => bround f att ut (s1 != s2) (c1 * c2) (q1 + q2) false

/-- a ÷ b (R89). -/
def bdiv (f : BFmt) (att : Nat) (ut : Bool) (x y : FNum) : FNum × Nat :=
  match x, y with
  | .nan .., _ => nanResult [x, y]
  | _, .nan .. => nanResult [x, y]
  | .inf _, .inf _ => invalid
  | .inf s, .fin t _ _ => (.inf (s != t), 0)
  | .fin s _ _, .inf t => (.fin (s != t) 0 f.qmin, 0)
  | .fin s1 c1 q1, .fin s2 c2 q2 =>
    if c2 = 0 then (if c1 = 0 then invalid else (.inf (s1 != s2), fDZ))
    else
      let k := f.p + 2 + bitLen c2 - bitLen c1
      let n := c1 * 2 ^ k
      bround f att ut (s1 != s2) (n / c2) (q1 - q2 - k) (n % c2 ≠ 0)

/-- √a (R89). -/
def bsqrt (f : BFmt) (att : Nat) (ut : Bool) (x : FNum) : FNum × Nat :=
  match x with
  | .nan .. => nanResult [x]
  | .inf s => if s then invalid else (.inf false, 0)
  | .fin s c q =>
    if c = 0 then (.fin s 0 f.qmin, 0)
    else if s then invalid
    else
      let k := 2 * (f.p + 2) + (if q % 2 = 0 then 0 else 1)
      let n := c * 2 ^ k
      let r := isqrt n
      bround f att ut false r ((q - k) / 2) (r * r ≠ n)

/-- a × b + r with one rounding (R89); 0 × ∞ plus a quiet NaN raises NV and returns the addend (R90). -/
def bfma (f : BFmt) (att : Nat) (ut : Bool) (x y z : FNum) : FNum × Nat :=
  let zeroInf := match x, y with
    | .inf _, .fin _ 0 _ => true
    | .fin _ 0 _, .inf _ => true
    | _, _ => false
  if x.isNan || y.isNan then nanResult [x, y, z]
  else if zeroInf then (if z.isNan then (z.quiet, fNV) else invalid)
  else if z.isNan then nanResult [z]
  else match x, y, z with
    | .fin s1 c1 q1, .fin s2 c2 q2, .fin s3 c3 q3 =>
      let sp := s1 != s2
      let (v, q) := exactSum 2 sp (c1 * c2) (q1 + q2) s3 c3 q3
      if v = 0 then (.fin (zeroSumSign att sp s3) 0 f.qmin, 0)
      else bround f att ut (decide (v < 0)) v.natAbs q false
    | .fin .., .fin .., z => (z, 0)
    | x, y, .inf s => if (x.sign != y.sign) == s then (.inf s, 0) else invalid
    | x, y, _ => (.inf (x.sign != y.sign), 0)

/-- The comparison of two finite data of radix b. -/
def cmpFin (b : Nat) (s1 : Bool) (c1 : Nat) (q1 : Int) (s2 : Bool) (c2 : Nat) (q2 : Int) : Ordering :=
  let (v, _) := exactSum b s1 c1 q1 (!s2) c2 q2
  if v < 0 then .lt else if v = 0 then .eq else .gt

/-- The comparison of two data; none when unordered (R88). -/
def fcompare (b : Nat) (x y : FNum) : Option Ordering :=
  match x, y with
  | .nan .., _ => none
  | _, .nan .. => none
  | .inf s, .inf t => some (if s == t then .eq else if s then .lt else .gt)
  | .inf s, _ => some (if s then .lt else .gt)
  | _, .inf t => some (if t then .gt else .lt)
  | .fin s1 c1 q1, .fin s2 c2 q2 => some (cmpFin b s1 c1 q1 s2 c2 q2)

/-- minimumNumber or maximumNumber (R90): -0 orders below +0. -/
def bminmax (wantMax : Bool) (x y : FNum) : FNum × Nat :=
  let nv := if x.isSig || y.isSig then fNV else 0
  if x.isNan && y.isNan then (defaultNan, nv)
  else if x.isNan then (y, nv)
  else if y.isNan then (x, nv)
  else
    let xLess := match fcompare 2 x y with
      | some .lt => true
      | some .eq => x.sign && !y.sign
      | _ => false
    (if xLess != wantMax then x else y, nv)

/-- A finite magnitude rounded to an integer: the integer and whether it is inexact. -/
def toInteger (b att : Nat) (s : Bool) (c : Nat) (q : Int) : Int × Bool :=
  let (m, nx) := roundAt b att s c q false 0
  (if s then -(m : Int) else (m : Int), nx)

/-- A datum converted to a 64-bit integer with saturation (R90): the integer's 64 bits and the flags. -/
def toInt64 (b att : Nat) (uns : Bool) (x : FNum) : Nat × Nat :=
  let lo : Int := if uns then 0 else -(2 ^ 63 : Int)
  let hi : Int := if uns then 2 ^ 64 - 1 else 2 ^ 63 - 1
  match x with
  | .nan .. => (wrapOf 64 hi, fNV)
  | .inf s => (wrapOf 64 (if s then lo else hi), fNV)
  | .fin s c q =>
    let (v, nx) := toInteger b att s c q
    if v < lo then (wrapOf 64 lo, fNV)
    else if hi < v then (wrapOf 64 hi, fNV)
    else (wrapOf 64 v, if nx then fNX else 0)

/-- The class mask of FCLASS (R91). -/
def fclassMask (f : BFmt) (x : FNum) : Nat :=
  match x with
  | .nan _ sig _ => if sig then 2 ^ 8 else 2 ^ 9
  | .inf s => if s then 1 else 2 ^ 7
  | .fin s c _ =>
    if c = 0 then (if s then 2 ^ 3 else 2 ^ 4)
    else if c < 2 ^ (f.p - 1) then (if s then 2 ^ 2 else 2 ^ 5)
    else (if s then 2 ^ 1 else 2 ^ 6)

/-- CVTFF: a datum of format g rounded to format f; a NaN keeps the most significant payload bits that fit (R90). DESIGN
CHOICE (log 91): the payload of a NaN that is widened stands at the upper end of the wider one, as narrowing takes it from
there. -/
def bconvert (f g : BFmt) (att : Nat) (ut : Bool) (x : FNum) : FNum × Nat :=
  match x with
  | .nan s sig p =>
    let pay := if g.p ≤ f.p then p * 2 ^ (f.p - g.p) else p / 2 ^ (g.p - f.p)
    (.nan s false pay, if sig then fNV else 0)
  | .inf s => (.inf s, 0)
  | .fin s c q => bround f att ut s c q false

/-- The flags an operation of the FPUs can raise, by socket (R89). -/
def fpuMask (t : Nat) : Nat :=
  match t with
  | 4 | 5 | 6 | 9 | 12 => fNV + fOF + fUF + fNX
  | 7 => fNV + fDZ + fOF + fUF + fNX
  | 8 | 10 => fNV + fNX
  | 11 => fNX
  | 13 | 14 => fNV
  | _ => 0

/-- The published latency of an FPU operation; the upper figure where R66 gives a range (R66, R105). -/
def fpuLat (t fmt : Nat) : Nat :=
  if fmt = 2 then 90 else match t with
    | 7 => 18 | 8 => 22 | 10 | 11 | 12 => 3 | 15 => 1 | _ => 4

/-- A trigger of an FPU by socket number: modifier m, operands a and b, addend r, status st (R64, R89 to R93). -/
def fpuOp (t m : Nat) (a b r : BitVec 128) (st : Word) : OpOut :=
  let f := bfmt (bits m 0 2)
  let g := bfmt (bits m 6 2)
  let uns := bitAt m 8
  let att := roundAttr (bits m 2 4) (bits st.toNat 16 4)
  let ut := st.getLsbD 11
  let x := bdecode f a.toNat
  let y := bdecode f b.toNat
  let z := bdecode f r.toNat
  let enc (p : FNum × Nat) : Nat × Nat := (bencode f p.1, p.2)
  let (v, fl) : Nat × Nat := match t with
    | 4 => enc (badd f att ut x y)
    | 5 => enc (badd f att ut x y.neg)
    | 6 => enc (bmul f att ut x y)
    | 7 => enc (bdiv f att ut x y)
    | 8 => enc (bsqrt f att ut x)
    | 9 => enc (bfma f att ut x y z)
    | 10 => toInt64 2 att uns x
    | 11 => let i : Int := if uns then (a.toNat % 2 ^ 64 : Nat) else signedOf 64 a.toNat
            enc (bround f att ut (decide (i < 0)) i.natAbs 0 false)
    | 12 => enc (bconvert f g att ut (bdecode g a.toNat))
    | 13 => enc (bminmax false x y)
    | 14 => enc (bminmax true x y)
    | _ => (fclassMask f x, 0)
  { res := BitVec.ofNat 128 v, set := BitVec.ofNat 64 fl, flags := fl, lat := fpuLat t (bits m 0 2) }

end Sys2Proof.Machine
end

