-- ==== Sys2Proof/Machine/Decimal.lean ====
section
/-!
DEFINITION. Decimal floating point (R94 to R97): the densely packed decimal encoding, exact arithmetic with the preferred
exponents of IEEE 754-2019, and the flags.
-/

namespace Sys2Proof.Machine

/-- A decimal format: precision, largest exponent, exponent bias, exponent continuation bits, declets, width (R94). -/
structure DFmt where
  p : Nat
  emax : Int
  bias : Int
  w : Nat
  n : Nat
  width : Nat
deriving DecidableEq, Repr

/-- The format of an FMT code: 0 decimal64, 1 decimal128. -/
def dfmt (code : Nat) : DFmt := if code = 1 then ⟨34, 6144, 6176, 12, 11, 128⟩ else ⟨16, 384, 398, 8, 5, 64⟩
/-- The least exponent of the coefficient. -/
def DFmt.qmin (f : DFmt) : Int := -f.bias
/-- The largest exponent of the coefficient. -/
def DFmt.qmax (f : DFmt) : Int := f.emax - f.p + 1

/-- The three digits of a declet as a number 0 to 999. -/
def dpdDecode (x : Nat) : Nat :=
  let b (k : Nat) : Nat := b2n (x.testBit k)
  let hi := 4 * b 9 + 2 * b 8 + b 7
  let mid := 4 * b 6 + 2 * b 5 + b 4
  let lo := 4 * b 2 + 2 * b 1 + b 0
  if b 3 = 0 then 100 * hi + 10 * mid + lo
  else match 2 * b 2 + b 1 with
    | 0 => 100 * hi + 10 * mid + (8 + b 0)
    | 1 => 100 * hi + 10 * (8 + b 4) + (4 * b 6 + 2 * b 5 + b 0)
    | 2 => 100 * (8 + b 7) + 10 * mid + (4 * b 9 + 2 * b 8 + b 0)
    | _ => match 2 * b 6 + b 5 with
      | 0 => 100 * (8 + b 7) + 10 * (8 + b 4) + (4 * b 9 + 2 * b 8 + b 0)
      | 1 => 100 * (8 + b 7) + 10 * (4 * b 9 + 2 * b 8 + b 4) + (8 + b 0)
      | 2 => 100 * hi + 10 * (8 + b 4) + (8 + b 0)
      | _ => 100 * (8 + b 7) + 10 * (8 + b 4) + (8 + b 0)

/-- The canonical declet of a number 0 to 999. -/
def dpdEncode (x : Nat) : Nat :=
  let d2 := x / 100 % 10
  let d1 := x / 10 % 10
  let d0 := x % 10
  let m := d0 % 2
  let top (d : Nat) : Nat := d / 2 % 4
  match decide (8 ≤ d2), decide (8 ≤ d1), decide (8 ≤ d0) with
  | false, false, false => 128 * d2 + 16 * d1 + d0
  | false, false, true => 128 * d2 + 16 * d1 + 8 + m
  | false, true, false => 128 * d2 + 32 * top d0 + 16 * (d1 % 2) + 10 + m
  | true, false, false => 256 * top d0 + 128 * (d2 % 2) + 16 * d1 + 12 + m
  | true, true, false => 256 * top d0 + 128 * (d2 % 2) + 16 * (d1 % 2) + 14 + m
  | true, false, true => 256 * top d1 + 128 * (d2 % 2) + 32 + 16 * (d1 % 2) + 14 + m
  | false, true, true => 128 * d2 + 64 + 16 * (d1 % 2) + 14 + m
  | true, true, true => 128 * (d2 % 2) + 96 + 16 * (d1 % 2) + 14 + m

/-- The digits of n declets as one number. -/
def declets : Nat → Nat → Nat
  | 0, _ => 0
  | n + 1, x => declets n (x / 1024) * 1000 + dpdDecode (x % 1024)
/-- The canonical n declets of a number. -/
def toDeclets : Nat → Nat → Nat
  | 0, _ => 0
  | n + 1, x => toDeclets n (x / 1000) * 1024 + dpdEncode (x % 1000)

/-- Number of decimal digits of c, by at most k divisions. -/
def digitsGo : Nat → Nat → Nat
  | 0, _ => 0
  | k + 1, c => if c = 0 then 0 else digitsGo k (c / 10) + 1
/-- Number of decimal digits of c; 0 for 0. -/
def decDigits (c : Nat) : Nat := digitsGo (Nat.log2 c + 1) c

/-- The datum that x encodes, and whether the encoding is non-canonical (R95). -/
def ddecode (f : DFmt) (x : Nat) : FNum × Bool :=
  let s := x.testBit (f.width - 1)
  let comb := bits x (f.width - 6) 5
  let cont := bits x (f.width - 6 - f.w) f.w
  let tr := x % 2 ^ (10 * f.n)
  let t := declets f.n tr
  let bad := toDeclets f.n t ≠ tr
  if comb = 30 then (.inf s, cont ≠ 0 || tr ≠ 0)
  else if comb = 31 then (.nan s (cont.testBit (f.w - 1)) t, bad)
  else
    let (e2, d) := if comb < 24 then (comb / 8, comb % 8) else (comb / 2 % 4, 8 + comb % 2)
    (.fin s (d * 1000 ^ f.n + t) ((e2 * 2 ^ f.w + cont : Nat) - f.bias), bad)

/-- The canonical encoding of a datum whose coefficient has at most p digits and whose exponent is in range. -/
def dencode (f : DFmt) (x : FNum) : Nat :=
  let asm (s : Bool) (comb cont tr : Nat) : Nat :=
    b2n s * 2 ^ (f.width - 1) + comb * 2 ^ (f.width - 6) + cont * 2 ^ (f.width - 6 - f.w) + tr
  match x with
  | .inf s => asm s 30 0 0
  | .nan s g p => asm s 31 (if g then 2 ^ (f.w - 1) else 0) (toDeclets f.n p)
  | .fin s c q =>
    let be := (q + f.bias).toNat
    let e2 := be / 2 ^ f.w
    let d := c / 1000 ^ f.n
    asm s (if d < 8 then 8 * e2 + d else 24 + 2 * e2 + d % 2) (be % 2 ^ f.w) (toDeclets f.n (c % 1000 ^ f.n))

/-- The exponent of c * 10^q lowered toward the preferred one by appending zeros, by at most k digits. -/
def padDown (p : Nat) (floor : Int) : Nat → Nat → Int → Nat × Int
  | 0, c, q => (c, q)
  | k + 1, c, q => if floor < q ∧ c * 10 < 10 ^ p then padDown p floor k (c * 10) (q - 1) else (c, q)
/-- The exponent raised toward the preferred one by dropping trailing zeros, by at most k digits. -/
def stripUp (ceil : Int) : Nat → Nat → Int → Nat × Int
  | 0, c, q => (c, q)
  | k + 1, c, q => if q < ceil ∧ c % 10 = 0 then stripUp ceil k (c / 10) (q + 1) else (c, q)

/-- x held between lo and hi. -/
def clampInt (lo hi x : Int) : Int := max lo (min hi x)

/-- A zero with the exponent nearest the preferred one. -/
def dzero (f : DFmt) (s : Bool) (pref : Int) : FNum := .fin s 0 (clampInt f.qmin f.qmax pref)

/-- A magnitude c * 10^e with a possible tail rounded to the format. An exact result takes the exponent nearest the
preferred one, an inexact one the least exponent (R96). Tininess is detected before rounding, as IEEE 754-2019 has it
for decimal formats (log 17). -/
def dround (f : DFmt) (att : Nat) (ufTrap s : Bool) (pref : Int) (c : Nat) (e : Int) (sticky : Bool) : FNum × Nat :=
  if c = 0 && !sticky then (dzero f s pref, 0)
  else
    let n := decDigits c
    let tiny := decide (e + (n : Int) - 1 < 1 - f.emax)
    let q := max (if sticky || decide (f.p < n) then e + (n : Int) - f.p else e) f.qmin
    let (m0, inexact) := roundAt 10 att s c e sticky q
    let (m, q) := if decDigits m0 ≤ f.p then (m0, q) else (m0 / 10, q + 1)
    if f.emax < q + (decDigits m : Int) - 1 then
      (if overflowsToInf att s then .inf s else .fin s (10 ^ f.p - 1) f.qmax, fOF + fNX)
    else
      let fl := (if inexact then fNX else 0) + (if tiny && (inexact || ufTrap) then fUF else 0)
      if m = 0 then (.fin s 0 q, fl)
      else
        let target := clampInt f.qmin f.qmax pref
        let (m, q) := if inexact then (m, q) else stripUp (if target < q then q else target) f.p m q
        let (m, q) := if inexact then (m, q) else padDown f.p (if q < target then q else target) f.p m q
        let (m, q) := padDown f.p f.qmax f.p m q
        (.fin s m q, fl)

/-- a + b. -/
def dadd (f : DFmt) (att : Nat) (ut : Bool) (x y : FNum) : FNum × Nat :=
  match x, y with
  | .nan .., _ => nanResult [x, y]
  | _, .nan .. => nanResult [x, y]
  | .inf s, .inf t => if s == t then (.inf s, 0) else invalid
  | .inf s, _ => (.inf s, 0)
  | _, .inf t => (.inf t, 0)
  | .fin s1 c1 q1, .fin s2 c2 q2 =>
    let (v, q) := exactSum 10 s1 c1 q1 s2 c2 q2
    if v = 0 then (dzero f (zeroSumSign att s1 s2) q, 0)
    else dround f att ut (decide (v < 0)) q v.natAbs q false

/-- a × b. -/
def dmul (f : DFmt) (att : Nat) (ut : Bool) (x y : FNum) : FNum × Nat :=
  match x, y with
  | .nan .., _ => nanResult [x, y]
  | _, .nan .. => nanResult [x, y]
  | .inf s, .inf t => (.inf (s != t), 0)
  | .inf s, .fin t c _ => if c = 0 then invalid else (.inf (s != t), 0)
  | .fin s c _, .inf t => if c = 0 then invalid else (.inf (s != t), 0)
  | .fin s1 c1 q1, .fin s2 c2 q2 => dround f att ut (s1 != s2) (q1 + q2) (c1 * c2) (q1 + q2) false

/-- a ÷ b. -/
def ddiv (f : DFmt) (att : Nat) (ut : Bool) (x y : FNum) : FNum × Nat :=
  match x, y with
  | .nan .., _ => nanResult [x, y]
  | _, .nan .. => nanResult [x, y]
  | .inf _, .inf _ => invalid
  | .inf s, .fin t _ _ => (.inf (s != t), 0)
  | .fin s _ _, .inf t => (dzero f (s != t) f.qmin, 0)
  | .fin s1 c1 q1, .fin s2 c2 q2 =>
    if c2 = 0 then (if c1 = 0 then invalid else (.inf (s1 != s2), fDZ))
    else if c1 = 0 then (dzero f (s1 != s2) (q1 - q2), 0)
    else
      let k := f.p + 2 + decDigits c2 - decDigits c1
      let n := c1 * 10 ^ k
      dround f att ut (s1 != s2) (q1 - q2) (n / c2) (q1 - q2 - k) (n % c2 ≠ 0)

/-- √a; the preferred exponent is half that of a, rounded down. -/
def dsqrtOf (f : DFmt) (att : Nat) (ut : Bool) (x : FNum) : FNum × Nat :=
  match x with
  | .nan .. => nanResult [x]
  | .inf s => if s then invalid else (.inf false, 0)
  | .fin s c q =>
    if c = 0 then (dzero f s (q / 2), 0)
    else if s then invalid
    else
      let k := 2 * (f.p + 2) + (if q % 2 = 0 then 0 else 1)
      let n := c * 10 ^ k
      let r := isqrt n
      dround f att ut false (q / 2) r ((q - k) / 2) (r * r ≠ n)

/-- a × b + r with one rounding. -/
def dfmaOf (f : DFmt) (att : Nat) (ut : Bool) (x y z : FNum) : FNum × Nat :=
  let zeroInf := match x, y with
    | .inf _, .fin _ 0 _ => true
    | .fin _ 0 _, .inf _ => true
    | _, _ => false
  if x.isNan || y.isNan then nanResult [x, y, z]
  else if zeroInf then (if z.isNan then (z.quiet, fNV) else invalid)
  else if z.isNan then nanResult [z]
  else match x, y, z with
    | .fin s1 c1 q1, .fin s2 c2 q2, .fin s3 c3 q3 =>
      let sp := s1 != s2
      let (v, q) := exactSum 10 sp (c1 * c2) (q1 + q2) s3 c3 q3
      if v = 0 then (dzero f (zeroSumSign att sp s3) q, 0)
      else dround f att ut (decide (v < 0)) q v.natAbs q false
    | .fin .., .fin .., z => (z, 0)
    | x, y, .inf s => if (x.sign != y.sign) == s then (.inf s, 0) else invalid
    | x, y, _ => (.inf (x.sign != y.sign), 0)

/-- IEEE quantize: the value of a with the exponent of b. -/
def dquantOf (f : DFmt) (att : Nat) (x y : FNum) : FNum × Nat :=
  match x, y with
  | .nan .., _ => nanResult [x, y]
  | _, .nan .. => nanResult [x, y]
  | .inf s, .inf _ => (.inf s, 0)
  | .inf _, _ => invalid
  | _, .inf _ => invalid
  | .fin s c q, .fin _ _ qb =>
    let (m, nx) := roundAt 10 att s c q false qb
    if decDigits m ≤ f.p then (.fin s m qb, if nx then fNX else 0) else invalid

/-- DRRND: a rounded to n significant digits (R96); none where the rounding leaves the range. DESIGN CHOICE (log 17): a NaN
is propagated as R90 gives before n is looked at, so an n outside 1 to p adds no NV to a quiet NaN. -/
def drrndOf (f : DFmt) (att : Nat) (x : FNum) (n : Nat) : Option (FNum × Nat) :=
  match x with
  | .nan .. => some (nanResult [x])
  | _ =>
    if n = 0 ∨ f.p < n then some invalid
    else match x with
      | .fin s c q =>
        let d := decDigits c
        if d ≤ n then some (x, 0)
        else
          let (m, nx) := roundAt 10 att s c q false (q + (d : Int) - n)
          let (m, e) := if decDigits m ≤ n then (m, q + (d : Int) - n) else (m / 10, q + (d : Int) - n + 1)
          if f.emax < e + (decDigits m : Int) - 1 then none
          else
            let (m, e) := padDown f.p f.qmax f.p m e
            some (.fin s m e, if nx then fNX else 0)
      | y => some (y, 0)

/-- DCVTDD: a datum of format g as one of format f; a NaN keeps the most significant payload digits that fit, as R90
gives for CVTFF (log 17). -/
def dconvert (f g : DFmt) (att : Nat) (ut : Bool) (x : FNum) : FNum × Nat :=
  match x with
  | .nan s sig p =>
    (.nan s false (if g.n ≤ f.n then p * 1000 ^ (f.n - g.n) else p / 1000 ^ (g.n - f.n)), if sig then fNV else 0)
  | .inf s => (.inf s, 0)
  | .fin s c q => dround f att ut s q c q false

/-- DLDIV: the exact remainder of a truncated division (R97). -/
def dldivOf (f : DFmt) (x y : FNum) : FNum × Nat :=
  match x, y with
  | .nan .., _ => nanResult [x, y]
  | _, .nan .. => nanResult [x, y]
  | .inf _, _ => invalid
  | x, .inf _ => (x, 0)
  | .fin s c1 q1, .fin _ c2 q2 =>
    if c2 = 0 then invalid
    else
      let q := min q1 q2
      let r := (c1 * 10 ^ (q1 - q).toNat) % (c2 * 10 ^ (q2 - q).toNat)
      (.fin s r (clampInt f.qmin f.qmax q), 0)

/-- The dividend of DLDIV on one exponent, its count of digits and the divisor, for finite operands and a divisor that is
not zero (R97): p + E digits, the quotient's count. -/
def dldivParts (f : DFmt) (x y : FNum) : Option (Nat × Nat × Nat) :=
  match x, y with
  | .fin _ c1 q1, .fin _ c2 q2 =>
    if c2 = 0 then none
    else some (c1 * 10 ^ (q1 - q2).toNat, f.p + (q1 - q2).toNat, c2 * 10 ^ (q2 - q1).toNat)
  | _, _ => none

/-- The quotient digits that a DLDIV of format fmt computes (R97). -/
def dldivDigits (fmt : Nat) (a b : BitVec 128) : Nat :=
  let f := dfmt fmt
  ((dldivParts f (ddecode f a.toNat).1 (ddecode f b.toNat).1).map (·.2.1)).getD 0

/-- The partial remainder after n more quotient digits, from rem after `done` of them: each digit of the dividend is taken
in turn and the divisor removed as often as it goes (R97, R139). -/
def dldivRun (parts : Nat × Nat × Nat) (done rem n : Nat) : Nat :=
  (rem * 10 ^ n + parts.1 / 10 ^ (parts.2.1 - done - n) % 10 ^ n) % parts.2.2

/-- The partial remainder of a DLDIV after n more digits; operands that leave no division keep it. -/
def dldivNext (fmt : Nat) (a b : BitVec 128) (done rem n : Nat) : Nat :=
  let f := dfmt fmt
  match dldivParts f (ddecode f a.toNat).1 (ddecode f b.toNat).1 with
  | some parts => dldivRun parts done rem n
  | none => rem

/-- The result of a DLDIV from its last partial remainder (R97): the sign of a, the lower exponent; none for operands that
leave no division. A remainder that software left in the progress area and that the format cannot hold is reduced to
its digits (log 44). -/
def dldivResult (fmt : Nat) (a b : BitVec 128) (rem : Nat) : Option (BitVec 128) :=
  let f := dfmt fmt
  match (ddecode f a.toNat).1, (ddecode f b.toNat).1 with
  | .fin s _ q1, .fin _ c2 q2 =>
    if c2 = 0 then none
    else some (BitVec.ofNat 128 (dencode f (.fin s (rem % 10 ^ f.p) (clampInt f.qmin f.qmax (min q1 q2)))))
  | _, _ => none

/-- The IEEE flags an operation of the decimal unit can raise, by socket and FMT (R95): DCVTID is exact in decimal128, and
a widening DCVTDD raises NV alone. -/
def dfpMask (t fmt : Nat) : Nat :=
  match t with
  | 4 | 5 | 6 | 8 => fNV + fOF + fUF + fNX
  | 7 => fNV + fDZ + fOF + fUF + fNX
  | 9 | 10 | 12 | 15 => fNV + fNX
  | 11 => if fmt = 0 then fNX else 0
  | 13 => fNV + (if fmt = 0 then fOF + fUF + fNX else 0)
  | _ => fNV

/-- The published latency, the upper figure where R66 gives a range. -/
def dfpLat (t fmt : Nat) : Nat :=
  let k := if fmt = 1 then 2 else 1
  match t with
  | 4 | 5 => 10 * k | 6 => 14 * k | 7 => 40 * k | 8 => 18 * k | 15 => 44 * k | 14 => if fmt = 1 then 24662 else 1586
  | _ => 4

/-- A trigger of the decimal unit by socket number: modifier m, operands a and b, addend r, status st. -/
def dfpOp (t m : Nat) (a b r : BitVec 128) (st : Word) : OpOut :=
  let fmt := bits m 0 2
  let f := dfmt fmt
  let g := dfmt (1 - fmt)
  let att := roundAttr (bits m 2 4) (bits st.toNat 16 4)
  let ut := st.getLsbD 11
  let (x, xb) := ddecode f a.toNat
  let (y, yb) := ddecode f b.toNat
  let (z, zb) := ddecode f r.toNat
  let (w, wb) := ddecode g a.toNat
  let enc (p : FNum × Nat) (bad : Bool) : Nat × Nat := (dencode f p.1, p.2 + (if bad then fID else 0))
  let (v, fl) : Nat × Nat := match t with
    | 4 => enc (dadd f att ut x y) (xb || yb)
    | 5 => enc (dadd f att ut x y.neg) (xb || yb)
    | 6 => enc (dmul f att ut x y) (xb || yb)
    | 7 => enc (ddiv f att ut x y) (xb || yb)
    | 8 => enc (dfmaOf f att ut x y z) (xb || yb || zb)
    | 9 => enc (dquantOf f att x y) (xb || yb)
    | 10 => match drrndOf f att x (b.toNat % 2 ^ 64) with
      | some p => enc p xb
      | none => (dencode f (ddecode f ((Config.drrndRange a b.toNat att).toNat % 2 ^ f.width)).1,
                 fNX + (if xb then fID else 0))
    | 11 => let i := signedOf 64 a.toNat
            enc (dround f att ut (decide (i < 0)) 0 i.natAbs 0 false) false
    | 12 => let (i, fl) := toInt64 10 att false x
            (i, fl + (if xb then fID else 0))
    | 13 => enc (dconvert f g att ut w) wb
    | 14 => enc (dldivOf f x y) (xb || yb)
    | _ => enc (dsqrtOf f att ut x) xb
  { res := BitVec.ofNat 128 v, set := BitVec.ofNat 64 fl, flags := fl, lat := dfpLat t fmt }

end Sys2Proof.Machine
end

