-- ==== Sys2Proof/Machine/Compare.lean ====
section
/-!
DEFINITION. The compare unit (R87, R88): integer compares, floating-point compares in the four formats, and what each
leaves in the result socket and in UO.
-/

namespace Sys2Proof.Machine

/-- The order of two floating-point data in format FMT: 0 binary64, 1 binary32, 2 decimal64, 3 decimal128; none when
unordered (R64, R88). -/
def fpOrder (fmt : Nat) (a b : BitVec 128) : Option Ordering :=
  match fmt with
  | 0 => fcompare 2 (bdecode (bfmt 0) a.toNat) (bdecode (bfmt 0) b.toNat)
  | 1 => fcompare 2 (bdecode (bfmt 1) a.toNat) (bdecode (bfmt 1) b.toNat)
  | 2 => fcompare 10 (ddecode (dfmt 0) a.toNat).1 (ddecode (dfmt 0) b.toNat).1
  | _ => fcompare 10 (ddecode (dfmt 1) a.toNat).1 (ddecode (dfmt 1) b.toNat).1

/-- FEQ, socket 10 (R87, R88). -/
def testFeq (o : Option Ordering) : Bool := o == some .eq
/-- FLT, socket 11. -/
def testFlt (o : Option Ordering) : Bool := o == some .lt
/-- FLE, socket 12. -/
def testFle (o : Option Ordering) : Bool := o == some .lt || o == some .eq
/-- FUN, socket 13. -/
def testFun (o : Option Ordering) : Bool := o == none

/-- What a compare leaves: 1 or 0, and UO after a floating-point compare (R87, R88). -/
def cmpOut (r : Bool) (uo : Option Bool) : OpOut :=
  { res := BitVec.ofNat 128 (b2n r), clr := if uo.isSome then 1 else 0,
    set := match uo with
      | some true => 1
      | _ => 0 }

/-- A trigger of the compare unit by socket number: modifier m, operands a and b. -/
def cmpOp (t m : Nat) (a b : BitVec 128) : OpOut :=
  let x : Word := a.setWidth 64
  let y : Word := b.setWidth 64
  let o := fpOrder (bits m 4 2) a b
  match t with
  | 4 => cmpOut (testEq x y) none | 5 => cmpOut (testNe x y) none | 6 => cmpOut (testLt x y) none
  | 7 => cmpOut (testLe x y) none | 8 => cmpOut (testLtu x y) none | 9 => cmpOut (testLeu x y) none
  | 10 => cmpOut (testFeq o) (some o.isNone) | 11 => cmpOut (testFlt o) (some o.isNone)
  | 12 => cmpOut (testFle o) (some o.isNone) | 13 => cmpOut (testFun o) (some o.isNone)
  | _ => cmpOut (testBitOf x y) none

end Sys2Proof.Machine
end

