-- ==== Sys2Proof/Machine/Params.lean ====
section
/-!
DEFINITION. The parameters of the reel (R460): ID, width, number of indices, whether STAGE may change it, and its
default; the committed value of a parameter, and the range that STAGE accepts (R463).
-/

namespace Sys2Proof.Machine

/-- A row of a parameter table: ID, width in bits, number of indices, the Staged column, and whether it is read in
Service mode only (R174, R461). -/
structure ParamRow where
  id      : Nat
  width   : Nat
  count   : Nat
  staged  : Bool
  service : Bool := false
deriving DecidableEq, Repr

/-- Parameters of the reel, the partitions, the plies, fastening, the caches and coherence (R174, R210, R239, R265, R461). -/
def paramRowsA : List ParamRow :=
  [ ⟨0x0001, 3, 1, false, false⟩, ⟨0x0002, 12, 1, false, false⟩, ⟨0x0003, 64, 1, false, false⟩,
    ⟨0x0004, 32, 1, false, false⟩, ⟨0x0005, 16, 1, false, false⟩,
    ⟨0x0100, 2, 49, true, false⟩, ⟨0x0101, 64, 784, true, false⟩, ⟨0x0102, 64, 49, true, false⟩,
    ⟨0x0103, 6, 480, true, false⟩, ⟨0x0104, 2, 49, false, false⟩, ⟨0x0105, 32, 49, true, false⟩,
    ⟨0x0500, 4, 1, true, false⟩, ⟨0x0501, 32, 1, true, false⟩, ⟨0x0502, 3, 1, true, false⟩,
    ⟨0x0503, 1, 1, true, false⟩, ⟨0x0504, 5, 1, true, false⟩, ⟨0x0505, 16, 1, true, false⟩,
    ⟨0x0510, 16, 480, false, true⟩, ⟨0x0511, 4, 240, false, true⟩, ⟨0x0512, 32, 240, false, true⟩,
    ⟨0x0513, 64, 240, false, true⟩, ⟨0x0514, 32, 240, false, false⟩, ⟨0x0515, 32, 1, false, false⟩,
    ⟨0x0600, 17, 12, true, false⟩, ⟨0x0601, 1, 12, true, false⟩, ⟨0x0602, 16, 1, true, false⟩,
    ⟨0x0603, 16, 1, true, false⟩, ⟨0x0604, 1, 1, true, false⟩, ⟨0x0605, 18, 12, true, false⟩,
    ⟨0x0610, 64, 12, false, false⟩, ⟨0x0611, 64, 12, false, false⟩, ⟨0x0612, 64, 12, false, false⟩,
    ⟨0x0613, 64, 12, false, false⟩, ⟨0x0614, 2, 12, false, false⟩, ⟨0x0615, 1, 480, false, false⟩,
    ⟨0x0700, 1, 240, true, false⟩, ⟨0x0701, 16, 1, true, false⟩, ⟨0x0702, 1, 12, true, false⟩,
    ⟨0x0703, 4, 1, true, false⟩, ⟨0x0704, 4, 1, true, false⟩, ⟨0x0705, 1, 240, true, false⟩,
    ⟨0x0706, 1, 12, true, false⟩, ⟨0x0707, 16, 240, true, false⟩, ⟨0x0708, 16, 12, true, false⟩,
    ⟨0x0709, 32, 1, true, false⟩, ⟨0x0710, 32, 240, false, false⟩, ⟨0x0711, 32, 12, false, false⟩,
    ⟨0x0800, 4, 1, true, false⟩, ⟨0x0801, 16, 1, true, false⟩, ⟨0x0802, 16, 1, true, false⟩,
    ⟨0x0803, 4, 1, true, false⟩, ⟨0x0810, 64, 4, false, false⟩, ⟨0x0811, 64, 4, false, false⟩,
    ⟨0x0812, 64, 4, false, false⟩, ⟨0x0813, 128, 2 ^ 64, false, true⟩ ]

/-- Parameters of the fabric, the memory and the channels (R294, R328, R364). -/
def paramRowsB : List ParamRow :=
  [ ⟨0x0910, 96, 12, false, false⟩, ⟨0x0911, 7, 12, false, false⟩, ⟨0x0912, 7, 12, false, false⟩,
    ⟨0x0913, 16, 1, true, false⟩, ⟨0x0914, 64, 12, false, false⟩, ⟨0x0940, 1, 2, true, false⟩,
    ⟨0x0941, 14, 2, true, false⟩, ⟨0x0942, 16, 2, true, false⟩, ⟨0x0943, 128, 128, true, false⟩,
    ⟨0x0944, 96, 16, true, false⟩, ⟨0x0945, 32, 784, true, false⟩, ⟨0x0946, 14, 49, true, false⟩,
    ⟨0x0947, 240, 2, true, false⟩, ⟨0x0948, 64, 2, false, false⟩,
    ⟨0x0A00, 2, 1, false, false⟩, ⟨0x0A01, 1, 4, false, false⟩, ⟨0x0A02, 64, 1, false, false⟩,
    ⟨0x0A03, 16, 1, true, false⟩, ⟨0x0A04, 32, 1, true, false⟩, ⟨0x0A05, 32, 1, true, false⟩,
    ⟨0x0A06, 16, 1, true, false⟩, ⟨0x0A07, 16, 1, true, false⟩, ⟨0x0A08, 16, 1, true, false⟩,
    ⟨0x0A10, 64, 16, false, false⟩, ⟨0x0A11, 32, 16, false, false⟩, ⟨0x0A12, 64, 2 ^ 52, false, false⟩,
    ⟨0x0A13, 15, 1, false, false⟩, ⟨0x0A20, 64, 16, true, false⟩,
    ⟨0x0B00, 17, 4096, true, false⟩, ⟨0x0B01, 17, 49, true, false⟩, ⟨0x0B02, 128, 49, true, false⟩,
    ⟨0x0B03, 32, 4096, true, false⟩, ⟨0x0B04, 64, 16384, true, false⟩, ⟨0x0B05, 64, 4096, true, false⟩,
    ⟨0x0B06, 64, 4096, true, false⟩, ⟨0x0B07, 64, 4096, true, false⟩, ⟨0x0B08, 4, 1, true, false⟩,
    ⟨0x0B09, 16, 1, true, false⟩, ⟨0x0B0A, 16, 1, true, false⟩, ⟨0x0B10, 64, 4096, false, false⟩,
    ⟨0x0B11, 64, 4096, false, false⟩, ⟨0x0B12, 64, 4096, false, false⟩, ⟨0x0B13, 2, 128, false, false⟩,
    ⟨0x0B14, 2048, 65536, false, true⟩, ⟨0x0B15, 64, 4096, false, false⟩, ⟨0x0B16, 64, 4096, false, false⟩ ]

/-- Parameters of the links, the press and cipher units, the faults, the mailboxes and the power (R388, R419, R446, R461,
R502). -/
def paramRowsC : List ParamRow :=
  [ ⟨0x0C00, 8, 6, false, false⟩, ⟨0x0C01, 128, 128, true, false⟩, ⟨0x0C02, 192, 64, true, false⟩,
    ⟨0x0C03, 64, 2048, true, false⟩, ⟨0x0C04, 32, 1, true, false⟩, ⟨0x0C05, 16, 1, true, false⟩,
    ⟨0x0C40, 32, 12, true, false⟩, ⟨0x0C41, 16, 1, true, false⟩, ⟨0x0C42, 16, 1, true, false⟩,
    ⟨0x0C43, 128, 256, true, false⟩, ⟨0x0C44, 64, 256, true, false⟩, ⟨0x0C45, 32, 1, false, false⟩,
    ⟨0x0C46, 15, 1, false, false⟩, ⟨0x0C47, 64, 256, true, false⟩, ⟨0x0C48, 64, 256, true, false⟩,
    ⟨0x0D00, 16, 12, true, false⟩, ⟨0x0D01, 2, 12, true, false⟩, ⟨0x0D02, 3, 1, true, false⟩,
    ⟨0x0D10, 6, 4096, true, false⟩, ⟨0x0D11, 32, 4096, false, false⟩, ⟨0x0D12, 64, 12, false, false⟩,
    ⟨0x0D13, 17, 1, false, false⟩,
    ⟨0x0E00, 8, 65536, true, false⟩, ⟨0x0E01, 16, 256, true, false⟩, ⟨0x0E02, 32, 256, true, false⟩,
    ⟨0x0E03, 32, 5, true, false⟩, ⟨0x0E04, 16, 49, true, false⟩, ⟨0x0E05, 32, 1, true, false⟩,
    ⟨0x0E06, 16, 1, true, false⟩, ⟨0x0E10, 64, 65536, false, false⟩, ⟨0x0E11, 64, 2 ^ 24, false, false⟩,
    ⟨0x0F00, 16, 49, true, false⟩, ⟨0x0F01, 16, 1, true, false⟩, ⟨0x0F02, 32, 8, false, false⟩,
    ⟨0x1000, 12, 14, true, false⟩, ⟨0x1001, 4, 12, true, false⟩, ⟨0x1002, 4, 12, true, false⟩,
    ⟨0x1003, 16, 1, true, false⟩, ⟨0x1004, 32, 1, true, false⟩, ⟨0x1005, 8, 1, true, false⟩,
    ⟨0x1006, 8, 1, true, false⟩, ⟨0x1007, 6, 1, true, false⟩, ⟨0x1008, 8, 1, true, false⟩,
    ⟨0x1010, 3, 372, false, false⟩, ⟨0x1011, 16, 14, false, false⟩, ⟨0x1012, 12, 14, false, false⟩,
    ⟨0x1013, 8, 13, false, false⟩, ⟨0x1014, 16, 13, false, false⟩, ⟨0x1020, 2, 1, true, false⟩,
    ⟨0x1021, 16, 1, true, false⟩, ⟨0x1022, 16, 1, true, false⟩, ⟨0x1023, 32, 1, false, false⟩,
    ⟨0x1024, 8, 13, false, false⟩ ]

/-- Every parameter of the reel. -/
def paramRows : List ParamRow := paramRowsA ++ paramRowsB ++ paramRowsC

/-- The row of a parameter ID. -/
def paramRow (id : Nat) : Option ParamRow := paramRows.find? (·.id = id)

/-- The default of a parameter whose Default column gives a value; 0 elsewhere. -/
def paramDefault (id idx : Nat) : Nat :=
  match id with
  | 0x0100 => if idx = 0 then 1 else 0
  | 0x0103 => 63
  | 0x0500 => 3 | 0x0501 => 1000000 | 0x0502 => 2 | 0x0503 => 1 | 0x0504 => 8 | 0x0505 => 64
  | 0x0600 => 16384 | 0x0602 => 2048 | 0x0603 => 1024 | 0x0605 => 8192
  | 0x0700 => 1 | 0x0701 => 4096 | 0x0702 => 1 | 0x0703 => 4 | 0x0704 => 4 | 0x0705 => 1 | 0x0706 => 1
  | 0x0707 => 0xFFFF | 0x0708 => 0xFFFF | 0x0709 => 10000
  | 0x0800 => 4 | 0x0801 => 16384 | 0x0802 => 500 | 0x0803 => 8
  | 0x0913 => 64 | 0x0941 => 15000 | 0x0942 => 100 | 0x0946 => 1000
  | 0x0A03 => 100 | 0x0A04 => 86400 | 0x0A05 => 86400 | 0x0A06 => 1024 | 0x0A07 => 16 | 0x0A08 => 20000
  | 0x0B02 => 2 ^ 128 - 1 | 0x0B08 => 8 | 0x0B09 => 2000 | 0x0B0A => 1000
  | 0x0C04 => 10000 | 0x0C05 => 1000 | 0x0C41 => 1000 | 0x0C42 => 256
  | 0x0D00 => 100 | 0x0D01 => 3
  | 0x0E00 => 0x17 | 0x0E01 => 1024 | 0x0E02 => 1000000000
  | 0x0E03 => match idx with | 1 => 1000 | 2 => 10000 | 3 => 100000 | 4 => 1000000 | _ => 0
  | 0x0E05 => 100000 | 0x0E06 => 3600
  | 0x0F01 => 600
  | 0x1000 => if idx < 12 then 132 else if idx = 12 then 240 else 76
  | 0x1001 => 6 | 0x1002 => 8 | 0x1004 => 1000 | 0x1005 => 16 | 0x1006 => 90 | 0x1007 => 4 | 0x1008 => 8
  | 0x1021 => 1000
  | _ => 0

/-- The key of a parameter and index in State.params. -/
def paramKey (id idx : Nat) : Nat := id * 2 ^ 64 + idx

/-- The committed value of a parameter (R460). -/
def State.param (s : State) (id idx : Nat) : Nat := tget (paramDefault id idx) s.params (paramKey id idx)

/-- A value applied to a parameter at a tally pulse (R465). -/
def State.setParam (s : State) (id idx v : Nat) : State :=
  { s with params := tset (paramDefault id idx) s.params (paramKey id idx) v }

/-- v lies between lo and hi. -/
def between (lo hi v : Nat) : Bool := decide (lo ≤ v) && decide (v ≤ hi)

/-- Number of 1 bits in the low n bits. -/
def popCount (n x : Nat) : Nat := ((List.range n).filter x.testBit).length

/-- The range and the reserved encodings of a staged parameter (R463; the Range columns of R174, R210, R239, R265, R294,
R328, R364, R388, R419, R446, R461, R502). The width is checked apart. -/
def paramRangeOk (id idx v : Nat) : Bool :=
  match id with
  | 0x0100 => between 0 2 v
  | 0x0102 => bits v 0 6 = 0 && bits v 52 11 = 0
  | 0x0103 => v ≤ 48 || v = 63
  | 0x0105 => (v == 0 || between 1 4095 (bits v 0 12)) && bits v 0 12 + bits v 12 12 ≤ 4096 && bits v 24 8 = 0
  | 0x0500 => between 1 15 v
  | 0x0501 => between 1000 100000000 v
  | 0x0502 => v ≤ 4
  | 0x0504 => between 8 20 v
  | 0x0505 => between 16 4096 v
  | 0x0600 => between 1024 65536 v
  | 0x0602 => between 1100 16384 v
  | 0x0603 => between 64 16384 v
  | 0x0605 => between 1024 131072 v
  | 0x0701 => between 256 65535 v
  | 0x0703 => v ≤ 8
  | 0x0704 => v ≤ 8
  | 0x0707 => 4 ≤ popCount 16 v
  | 0x0709 => between 100 100000 v
  | 0x0800 => between 1 15 v
  | 0x0801 => between 64 65535 v
  | 0x0802 => between 10 10000 v
  | 0x0803 => between 2 8 v
  | 0x0913 => between 1 65535 v
  | 0x0941 => between 16 15000 v
  | 0x0942 => between 1 10000 v
  | 0x0943 => bits v 127 1 = 0 || (between 1 48 (bits v 98 6) && bits v 104 23 = 0)
  | 0x0944 => bits v 86 9 = 0
  | 0x0945 => bits v 0 2 ≤ 2 && bits v 2 14 = 0 && (bits v 0 2 = 0 || 1 ≤ bits v 16 16)
  | 0x0946 => between 16 15000 v
  | 0x0A03 => between 1 10000 v
  | 0x0A04 => between 3600 2592000 v
  | 0x0A05 => between 60 2592000 v
  | 0x0A06 => between 16 65535 v
  | 0x0A07 => between 1 1024 v
  | 0x0A08 => between 1000 40000 v
  | 0x0A20 => bits v 39 24 = 0 && (bits v 63 1 = 0 || between 1 16384 (bits v 14 15))
  | 0x0B00 => v ≤ 65536
  | 0x0B01 => v ≤ 65536
  | 0x0B03 => bits v 0 2 = 0 || (between 1 48 (bits v 2 6) && 1 ≤ bits v 8 24)
  | 0x0B04 => bits v 40 23 = 0 && (bits v 63 1 = 0 || bits v 0 8 ≤ 23 || between 32 43 (bits v 0 8))
  | 0x0B05 => bits v 57 6 = 0 && (bits v 63 1 = 0 || (bits v 0 12 = 0 && between 6 16 (bits v 52 5)))
  | 0x0B06 => notifyOk v
  | 0x0B07 => bits v 0 3 = 0 && bits v 52 11 = 0
  | 0x0B08 => between 1 15 v
  | 0x0B09 => between 1 60000 v
  | 0x0B0A => v ≤ 60000
  | 0x0C01 => bits v 127 1 = 0 || (bits v 112 2 ≤ 2 && bits v 114 6 ≤ 48 && bits v 120 7 = 0)
  | 0x0C02 => bits v 191 1 = 0 || (bits v 90 6 ≤ 48 && bits v 128 63 = 0)
  | 0x0C03 => bits v 63 1 = 0 || (bits v 16 6 ≤ 48 && bits v 22 9 ≤ 479 && bits v 31 8 ≤ 239 && bits v 39 24 = 0)
  | 0x0C04 => between 100 1000000 v
  | 0x0C05 => between 10 60000 v
  | 0x0C40 => bits v 0 1 = 0 || (bits v 13 3 = 1 || bits v 13 3 = 2 || bits v 13 3 = 4) && bits v 16 16 = 0
  | 0x0C41 => between 10 60000 v
  | 0x0C42 => between 1 65535 v
  | 0x0C43 => bits v 127 1 = 0 || (bits v 82 6 ≤ 48 && bits v 101 26 = 0)
  | 0x0C44 => bits v 57 6 = 0 && (bits v 63 1 = 0 || (bits v 0 12 = 0 && between 6 16 (bits v 52 5)))
  | 0x0C47 => notifyOk v
  | 0x0C48 => bits v 0 3 = 0 && bits v 52 11 = 0
  | 0x0D00 => between 1 65535 v
  | 0x0D10 => v ≤ 48
  | 0x0E00 => bits v 3 3 ≤ 4 && bits v 7 1 = 0
  | 0x0E02 => between 1000 4294967000 v && v % 1000 = 0
  | 0x0E03 => between 10 100000000 v && between 1 4 idx
  | 0x0E04 => bits v 9 6 = 0 && bits v 0 9 ≤ 479
  | 0x0E05 => between 1000 100000 v
  | 0x0E06 => between 60 65535 v
  | 0x0F00 => bits v 9 6 = 0 && bits v 0 9 ≤ 479
  | 0x0F01 => between 10 65535 v
  | 0x1000 => v ≤ 1900
  | 0x1001 => v ≤ 8
  | 0x1002 => v ≤ 8
  | 0x1004 => between 10 10000000 v
  | 0x1005 => v ≤ 76
  | 0x1006 => between 70 94 v
  | 0x1007 => between 1 32 v
  | 0x1008 => between 1 64 v
  | 0x1020 => v ≤ 2
  | 0x1021 => between 100 10000 v
  | _ => true
where
  /-- The layout of chan.notify and rack.endpoint_notify (R364, R388). -/
  notifyOk (v : Nat) : Bool :=
    bits v 46 18 = 0 && (bits v 0 2 = 0 || (bits v 0 2 ≤ 2 && bits v 2 8 ≤ 239 && bits v 10 9 ≤ 479 && 1 ≤ bits v 19 11 &&
      1 ≤ bits v 30 16))

/-- The partition that owns a spindle; none while it is unassigned (R461). -/
def State.partOf (s : State) (i : Nat) : Option Nat :=
  let v := s.param 0x0103 i
  if v ≤ 48 then some v else none

/-- A skein runs Loose: fasten.loose as the pair applied it (R28, R210). -/
def State.loose (s : State) (k : Nat) : Bool := (s.sk k).loose

/-- The buddy of a skein: pairs are S0 and S1, S2 and S3 and so on (R191). -/
def buddyOf (k : Nat) : Nat := if k % 2 = 0 then k + 1 else k - 1

end Sys2Proof.Machine
end

