-- ==== Sys2Proof/Machine/AddrMap.lean ====
section
/-!
DEFINITION. The physical address map (R38, R39): installed local memory and its interleave (R300 to R302), CXL ranges
(R323, R324), the windows (R291, R371) and the reel register space.
-/

namespace Sys2Proof.Machine

/-- The base of reel register space (R38). -/
def regBase : Nat := 0xF000000000000
/-- The end of the 16 TiB of reel register space. -/
def regEnd : Nat := 0xF100000000000
/-- The base of the CXL window (R38). -/
def cxlBase : Nat := 2 ^ 44
/-- The base of the flex-lane window region. -/
def flexBase : Nat := 2 ^ 45
/-- The base of the windows of guest site 0; site 1 follows 8 TiB above. -/
def guestBase : Nat := 3 * 2 ^ 44

/-- A quad is populated: its first channel has capacity. -/
def State.quadUp (s : State) (q : Nat) : Bool := decide (0 < (s.mch (4 * q)).capacity)
/-- Number of populated quads. -/
def State.quads (s : State) : Nat := ((List.range 4).filter s.quadUp).length
/-- The hub reserve of each channel in bytes (R300). -/
def reservePerChannel (quads : Nat) : Nat :=
  if quads ≤ 1 then 2 ^ 30 else if quads ≤ 3 then 2 ^ 29 else 2 ^ 28
/-- C′: what a channel presents to the map, before mirroring (R301). -/
def State.channelBytes (s : State) (c : Nat) : Nat :=
  let cap := (s.mch c).capacity * 2 ^ 30
  if cap = 0 then 0 else cap - reservePerChannel s.quads
/-- What a quad presents to the map (R301). -/
def State.quadBytes (s : State) (q : Nat) : Nat :=
  let sum := ((List.range 4).map fun j => s.channelBytes (4 * q + j)).sum
  if (s.mch (4 * q)).mirrored then sum / 2 else sum
/-- The installed capacity (R301). -/
def State.installed (s : State) : Nat := ((List.range 4).map s.quadBytes).sum

/-- The regions of a list of sizes laid one after another from 0: which one holds x, and the offset within it. -/
def regionOf : List Nat → Nat → Nat → Option (Nat × Nat)
  | [], _, _ => none
  | sz :: r, k, x => if x < sz then some (k, x) else regionOf r (k + 1) (x - sz)

/-- The channels that hold local address a, the first one alone when unmirrored, and the channel offset (R302). -/
def State.locate (s : State) (a : Nat) : List Nat × Nat :=
  let f (lo : Nat) (n : Nat) (x : Nat) : Nat := bits x lo n
  match s.mcs.interleave with
  | 0 =>
    if (s.mch 0).mirrored then
      let p := f 12 3 a ^^^ f 15 3 a
      ([2 * p, 2 * p + 1], a / 32768 * 4096 + a % 4096)
    else ([f 12 4 a ^^^ f 16 4 a], a / 65536 * 4096 + a % 4096)
  | 1 =>
    match regionOf ((List.range 4).map s.quadBytes) 0 a with
    | some (q, r) =>
      if (s.mch (4 * q)).mirrored then
        let p := 2 * q + (f 12 1 r ^^^ f 13 1 r)
        ([2 * p, 2 * p + 1], r / 8192 * 4096 + r % 4096)
      else ([4 * q + (f 12 2 r ^^^ f 14 2 r)], r / 16384 * 4096 + r % 4096)
    | none => ([], 0)
  | _ =>
    let sizes := (List.range 16).map fun c =>
      if (s.mch c).mirrored then (if c % 2 = 0 then s.channelBytes c else 0) else s.channelBytes c
    match regionOf sizes 0 a with
    | some (c, off) => if (s.mch c).mirrored then ([c, c + 1], off) else ([c], off)
    | none => ([], 0)

/-- A committed CXL range (R323): base address, bytes, port, SHARED, TAGS. -/
structure CxlRange where
  base : Nat
  size : Nat
  port : Nat
  shared : Bool
  tags : Bool
deriving DecidableEq, Repr

/-- The CXL range of index r, when valid. -/
def State.cxlRange (s : State) (r : Nat) : Option CxlRange :=
  let v := s.param 0x0A20 r
  if bits v 63 1 = 1 then
    some ⟨cxlBase + bits v 0 14 * 2 ^ 30, bits v 14 15 * 2 ^ 30, bits v 29 8, bitAt v 37, bitAt v 38⟩
  else none
/-- The bytes of a range that are data: all but the carve-out (R324). -/
def CxlRange.dataBytes (r : CxlRange) : Nat := if r.tags then r.size - r.size / 1024 else r.size
/-- The bytes of a range that can hold tags. -/
def CxlRange.taggedBytes (r : CxlRange) : Nat := if r.tags then r.size / 8 else 0
/-- The CXL range whose data holds address a. -/
def State.cxlOf (s : State) (a : Nat) : Option CxlRange :=
  ((List.range 16).filterMap s.cxlRange).find? fun r => decide (r.base ≤ a ∧ a < r.base + r.dataBytes)

/-- A committed flex window (R371, R388): base address, bytes, port, bus base, kind, partition. -/
structure FlexWin where
  base : Nat
  size : Nat
  port : Nat
  bus  : Nat
  kind : Nat
  part : Nat
deriving DecidableEq, Repr

/-- The flex window of index w, when valid. -/
def State.flexWin (s : State) (w : Nat) : Option FlexWin :=
  let v := s.param 0x0C01 w
  if bits v 127 1 = 1 then
    some ⟨flexBase + bits v 0 28 * 2 ^ 16, bits v 28 28 * 2 ^ 16, bits v 56 8, bits v 64 48 * 2 ^ 16, bits v 112 2,
      bits v 114 6⟩
  else none
/-- The flex window that covers address a. -/
def State.flexWinOf (s : State) (a : Nat) : Option FlexWin :=
  ((List.range 128).filterMap s.flexWin).find? fun w => decide (w.base ≤ a ∧ a < w.base + w.size)

/-- The guest site whose committed window covers address a (R291). -/
def State.guestWinOf (s : State) (a : Nat) : Option Nat :=
  (List.range 16).findSome? fun w =>
    let v := s.param 0x0944 w
    let base := guestBase + (w / 8) * 2 ^ 43 + bits v 0 43
    if bits v 95 1 = 1 ∧ base ≤ a ∧ a < base + bits v 43 43 then some (w / 8) else none

/-- The physical pages that are out of the map (R320). -/
def State.retiredPages (s : State) : List Nat := (s.mcs.retired.filter (·.applied)).map (·.page)
/-- A range of local memory with no byte in a retired page. -/
def State.noRetired (s : State) (a n : Nat) : Bool :=
  s.retiredPages.all fun p => decide (a + n ≤ p * 4096 ∨ p * 4096 + 4096 ≤ a)
/-- The end of the local memory that follows address a without a gap: the next retired page, or the installed end. -/
def State.localReach (s : State) (a : Nat) : Nat :=
  s.retiredPages.foldl (fun e p => if a < p * 4096 + 4096 ∧ p * 4096 < e then max a (p * 4096) else e) s.installed

/-- What an address names. -/
inductive AddrKind where
  | local_ | cxl | flexWindow | guest (site : Nat) | register | none
deriving DecidableEq, Repr

/-- An offset range of reel register space that holds a page (R39). -/
def regOffsetOk (o : Nat) : Bool :=
  o < 0x1000 || between 0x10000 0x40FFF o || between 0x1000000 0x3FFFFFF o ||
  between 0x100000000 0x1BFFFFFFF o || between 0x200000000 0x2FFFFFFFF o || between 0x300000000 0x30FFFFFFF o

/-- What address a names in the committed map (R38, R39). -/
def State.addrKind (s : State) (a : Nat) : AddrKind :=
  if a < 2 ^ 43 then (if a < s.installed ∧ s.noRetired a 1 then .local_ else .none)
  else if a < 2 ^ 44 then .none
  else if a < 2 ^ 45 then (if (s.cxlOf a).isSome then .cxl else .none)
  else if a < guestBase then (if (s.flexWinOf a).isSome then .flexWindow else .none)
  else if a < 2 ^ 46 then (match s.guestWinOf a with | some g => .guest g | none => .none)
  else if regBase ≤ a ∧ a < regEnd then (if regOffsetOk (a - regBase) then .register else .none)
  else .none

/-- The end of the CXL data that follows address a without a gap, through at most k ranges. -/
def State.cxlReach (s : State) : Nat → Nat → Nat
  | 0, a => a
  | k + 1, a => match s.cxlOf a with
    | some r => s.cxlReach k (r.base + r.dataBytes)
    | none => a

/-- Every byte of a range lies in coherent memory: local or CXL (R242). -/
def State.memRange (s : State) (a n : Nat) : Bool :=
  n = 0 || (decide (a + n ≤ s.installed) && s.noRetired a n) || decide (a + n ≤ s.cxlReach 16 a)

/-- Every byte of a range lies in installed local memory. -/
def State.localRange (s : State) (a n : Nat) : Bool := decide (a + n ≤ s.installed) && s.noRetired a n

/-- A line of a tagged portion of memory: local memory, or the tagged portion of a CXL range (R324, R325). -/
def State.tagsHere (s : State) (a : Nat) : Bool :=
  match s.addrKind a with
  | .local_ => true
  | .cxl => match s.cxlOf a with
    | some r => decide (a < r.base + r.taggedBytes)
    | none => false
  | _ => false

end Sys2Proof.Machine
end

