-- ==== Sys2Proof/Machine/Memory.lean ====
section
/-!
DEFINITION. Memory line by line: bytes, tags and poison (R115, R304), and the channels that a line depends on.
-/

namespace Sys2Proof.Machine

/-- Bytes per line. -/
def lineBytes : Nat := 128
/-- The line number of an address (bits [51:7]). -/
def lineOf (a : Nat) : Nat := a / 128

/-- What a byte of memory that nothing has written reads as: FILL writes zero (R310; log 3). -/
def memDefault : Byte := 0

/-- The byte at an address. -/
def Mem.byte (m : Mem) (a : Nat) : Byte := tget memDefault m.bytes a
/-- The byte at an address becomes v. -/
def Mem.setByte (m : Mem) (a : Nat) (v : Byte) : Mem := { m with bytes := tset memDefault m.bytes a v }

/-- The canonical form of the memory: bytes, tags and poison markers (R38). -/
def Mem.wf (m : Mem) : Bool := twf memDefault m.bytes && twf false m.tags && twf false m.poison

/-- The n bytes from address a as a number, the lowest byte first (R10). -/
def Mem.readNat (m : Mem) (a : Nat) : Nat → Nat
  | 0 => 0
  | n + 1 => (m.byte a).toNat + 256 * m.readNat (a + 1) n

/-- The memory with the n low bytes of x written from address a. -/
def Mem.writeNat (m : Mem) (a : Nat) : Nat → Nat → Mem
  | 0, _ => m
  | n + 1, x => (m.setByte a (BitVec.ofNat 8 x)).writeNat (a + 1) n (x / 256)

/-- The line in memory. -/
def Mem.line (m : Mem) (l : Nat) : LineVal :=
  { data := BitVec.ofNat 1024 (m.readNat (128 * l) 128),
    tags := BitVec.ofNat 8 ((List.range 8).foldl (fun x g => x + b2n (tget false m.tags (8 * l + g)) * 2 ^ g) 0),
    poison := tget false m.poison l }

/-- The memory with a line written: bytes, tags and marker; a poisoned line holds no tag (R115). -/
def Mem.setLine (m : Mem) (l : Nat) (v : LineVal) : Mem :=
  let m := m.writeNat (128 * l) 128 v.data.toNat
  { m with tags := (List.range 8).foldl (fun t g => tset false t (8 * l + g) (v.tags.getLsbD g && !v.poison)) m.tags,
           poison := tset false m.poison l v.poison }

/-- A channel serves reads and writes: in service (R315, R329). -/
def State.chUp (s : State) (c : Nat) : Bool := (s.mch c).state == 1

/-- A line of local memory whose every channel is lost (R316). -/
def State.lineLost (s : State) (l : Nat) : Bool :=
  s.addrKind (128 * l) == .local_ && !((s.locate (128 * l)).1.any s.chUp)

/-- A channel's copy of the line at channel line off cannot be read as it was written: the channel was filled poisoned and
the line not written since (R317), or an applied flip-mask inverted bits of two positions (R305, R318). -/
def State.copyBad (s : State) (c off : Nat) : Bool :=
  let m := s.mch c
  (m.pfill && !(tget false m.rewritten off)) || decide (2 ≤ popCount 20 (tget 0 m.flipped off))

/-- The line reads as poisoned from memory: every copy in service is bad, and no skein holds a clean copy from which the
home repairs it (R307). -/
def State.lineBad (s : State) (l : Nat) : Bool :=
  s.addrKind (128 * l) == .local_ && (
    let (cs, off) := s.locate (128 * l)
    let d := s.dirOf l
    cs.all (fun c => !s.chUp c || s.copyBad c (off / 128)) && !(d.state == 1 || d.state == 2))

/-- A line of a CXL range whose port does not serve, or which was lost with its port and not written since (R374, R376). -/
def State.cxlLost (s : State) (l : Nat) : Bool :=
  s.addrKind (128 * l) == .cxl && (match s.cxlOf (128 * l) with
    | some r => (s.flexP r.port).state != 2 || ((s.flexP r.port).cxlLost && !(tget false (s.flexP r.port).rewritten l))
    | none => false)

/-- A line as its channel or CXL device delivers it: a lost or bad line is poisoned, and only a tagged portion holds tags
(R115, R304, R307, R316, R324, R376). -/
def State.memRead (s : State) (l : Nat) : LineVal :=
  let v := s.mem.line l
  if s.lineLost l || s.lineBad l || s.cxlLost l then { v with poison := true, tags := 0 }
  else if s.tagsHere (128 * l) then v else { v with tags := 0 }

/-- The positions that an armed flip-mask inverts, as a mask of 20 (R318, R329). -/
def flipPositions (m : MemCh) : Nat :=
  let one (f : Nat) (w : Word) : Nat := if w = 0 ∨ 19 < bits m.flipCtl.toNat f 5 then 0 else 2 ^ bits m.flipCtl.toNat f 5
  one 4 m.flip0 ||| (if m.flipCtl.getLsbD 3 then one 9 m.flip1 else 0)

/-- A write to line l through channel c at channel line off: a flip-mask that is armed and matches applies once, and any
other write stores a true line (R318). A line of the reserve has no address and matches no FLIP_ADDR. -/
def State.flipWrite (s : State) (c : Nat) (l : Option Nat) (off : Nat) : State :=
  let s := if (s.mch c).pfill then s.modMch c fun m => { m with rewritten := tset false m.rewritten off true } else s
  let m := s.mch c
  if m.flipCtl.getLsbD 0 && (!m.flipCtl.getLsbD 2 || l == some (bits m.flipAddr.toNat 0 45)) then
    s.modMch c fun m => { m with flipCtl := m.flipCtl &&& ~~~(1 : Word), flipLast := BitVec.ofNat 64 (l.getD 0 + 2 ^ 63),
                                 flipped := tset 0 m.flipped off (flipPositions m) }
  else if tget 0 m.flipped off = 0 then s
  else s.modMch c fun m => { m with flipped := terase m.flipped off }

/-- A line written to memory: to every channel of the line that is up, discarded where none is, the tags only in a
tagged portion (R115, R303, R304, R316, R324). -/
def State.memWrite (s : State) (l : Nat) (v : LineVal) : State :=
  match s.addrKind (128 * l) with
  | .local_ =>
    let (cs, off) := s.locate (128 * l)
    let up := cs.filter s.chUp
    if up.isEmpty then s
    else foldS up (fun c t => t.flipWrite c (some l) (off / 128)) { s with mem := s.mem.setLine l v }
  | .cxl =>
    match s.cxlOf (128 * l) with
    | none => s
    | some r =>
      if (s.flexP r.port).state ≠ 2 then s
      else
        let t := { s with mem := s.mem.setLine l (if s.tagsHere (128 * l) then v else { v with tags := 0 }) }
        if (s.flexP r.port).cxlLost then t.modFlex r.port fun x => { x with rewritten := tset false x.rewritten l true } else t
  | _ => s

/-- A line written to memory as poisoned, its data as it stands (R197, R307, R314). -/
def State.poisonLine (s : State) (l : Nat) : State :=
  s.memWrite l { s.mem.line l with poison := true, tags := 0 }

/-- The n bytes at byte offset o of a line, as a number. -/
def lineGet (v : LineVal) (o n : Nat) : Nat := v.data.toNat / 2 ^ (8 * o) % 2 ^ (8 * n)

/-- The granules that a write of n bytes at offset o touches, as a mask of tags. -/
def granuleMask (o n : Nat) : BitVec 8 :=
  BitVec.ofNat 8 ((List.range 8).foldl (fun x g => x + b2n (decide (g * 16 < o + n ∧ o < g * 16 + 16 ∧ 0 < n)) * 2 ^ g) 0)

/-- A line with n bytes at offset o replaced by the low bytes of x: the tags of the granules touched are cleared, and
the marker clears only when all 128 bytes are replaced (R114, R224). -/
def linePut (v : LineVal) (o n x : Nat) : LineVal :=
  let m : BitVec 1024 := BitVec.ofNat 1024 ((2 ^ (8 * n) - 1) * 2 ^ (8 * o))
  { data := (v.data &&& ~~~m) ||| (BitVec.ofNat 1024 (x % 2 ^ (8 * n) * 2 ^ (8 * o))),
    tags := v.tags &&& ~~~(granuleMask o n),
    poison := v.poison && decide (n < 128) }

/-- Line l after an operation that by now has written the bytes from `lo` up to `hi`: the poison marker clears once they
cover the line whole, though they came in pieces (R224). -/
def wholeBy (lo hi l : Nat) (v : LineVal) : LineVal :=
  { v with poison := v.poison && !decide (lo ≤ 128 * l ∧ 128 * l + 128 ≤ hi) }

/-- A line with a capability written into granule g: its 16 bytes and its tag (R114). -/
def linePutCap (v : LineVal) (g : Nat) (c : Cap) : LineVal :=
  let w := linePut v (16 * g) 16 c.bits.toNat
  { w with tags := if c.tag && !w.poison then w.tags ||| BitVec.ofNat 8 (2 ^ g) else w.tags }

/-- The capability in granule g of a line; a poisoned line yields no tag (R115). -/
def lineCap (v : LineVal) (g : Nat) : Cap :=
  ⟨BitVec.ofNat 128 (lineGet v (16 * g) 16), v.tags.getLsbD g && !v.poison⟩

/-- A line merged under byte enables, as a home slice merges a partial write: the tags of the written granules clear
(R115, R254). -/
def lineMerge (v : LineVal) (mask : BitVec 128) (w : BitVec 1024) : LineVal :=
  let keep : Nat := (List.range 128).foldl (fun x k => x + (if mask.getLsbD k then 0 else 255 * 2 ^ (8 * k))) 0
  let k : BitVec 1024 := BitVec.ofNat 1024 keep
  let touched : Nat := (List.range 8).foldl
    (fun x g => x + b2n ((List.range 16).any fun j => mask.getLsbD (16 * g + j)) * 2 ^ g) 0
  { data := (v.data &&& k) ||| (w &&& ~~~k), tags := v.tags &&& ~~~(BitVec.ofNat 8 touched),
    poison := v.poison && mask != BitVec.allOnes 128 }

end Sys2Proof.Machine
end

