-- ==== Sys2Proof/Machine/Faults.lean ====
section
/-!
DEFINITION. The fault collector (R424 to R443): counting groups, severities, the log, the active records and the ladder;
interrupts (R133, R134) and mailbox notices (R458), which its reactions use. A reaction that reaches another block is
queued in faults.todo and carried out by settle (Machine/Recovery.lean) before the command ends.
-/

namespace Sys2Proof.Machine

/-- An interrupt raised for a spindle: its pending bit, and the router's copy while its skein is Fastened or while it waits for
a place (R133, R134). -/
def State.raiseIntr (s : State) (i n : Nat) : State :=
  let s1 := s.modSp i fun x => { x with intPending := x.intPending ||| BitVec.ofNat 256 (2 ^ n) }
  let copy (e : Nat) : State := { s1 with home := { s1.home with router := s1.home.router ++ [(i, n, e)] } }
  match (s.sp i).host with
  | some h => if (s.sk h.skein).loose then s1 else copy (s.sk h.skein).openEpoch
  | none => if (s.sp i).lostFrom.isSome then copy 0 else s1

/-- Queue a reaction. -/
def State.todo (s : State) (r : React) : State := s.modFaults fun f => { f with todo := f.todo ++ [r] }

/-- A notify entry of mbox.notify or fault.notify: its spindle when valid (R446, R461). -/
def notifySpindle (v : Nat) : Option Nat := if bitAt v 15 then some (bits v 0 9) else none

/-- An interrupt for the notify spindle that a parameter names, when its entry is valid. -/
def State.notifyIntr (s : State) (id part n : Nat) : State :=
  match notifySpindle (s.param id part) with
  | some i => s.raiseIntr i n
  | none => s

/-- A notice placed in the ring, without a check of room (R458). -/
def Mbox.push (m : Mbox) (n : Notice) : Mbox :=
  { m with ring := tins m.ring (m.prod % 32) n, prod := (m.prod + 1) % 2 ^ 64 }

/-- Room in the notice ring. -/
def Mbox.room (m : Mbox) : Bool := decide ((m.prod + 2 ^ 64 - m.cons) % 2 ^ 64 < 32)

/-- A notice posted to a page (R458): to the ring when there is room, else held, else lost with a notice-lost event. -/
def State.postNotice (s : State) (page ty : Nat) (args : List Nat) : State :=
  let m := s.mbox page
  let n : Notice := { ty := ty, num := m.numb, time := s.time, args := args }
  if m.room && m.held.isEmpty then
    (s.modMbox page fun m => { m.push n with numb := (m.numb + 1) % 2 ^ 32 }).notifyIntr 0x0F00 page 248
  else if m.held.length < 1024 then
    s.modMbox page fun m => { m with held := m.held ++ [n], numb := (m.numb + 1) % 2 ^ 32 }
  else
    (s.modMbox page fun m => { m with lost := satBits 16 (m.lost + 1) }).todo
      (.event ⟨0x0B04, page, none, 0⟩ 0)

/-- The default severity of a source for the instance's present mode, as the owning chapters' tables give it (R427). -/
def State.defaultSev (s : State) (src inst : Nat) : Nat :=
  let byMode (k : Nat) (fastened loose : Nat) : Nat := if (s.sk k).loose then loose else fastened
  match src with
  | 0x0104 | 0x0109 => byMode (inst / 20) 5 4
  | 0x0306 => byMode (inst - 240) 5 2
  | 0x0608 => if (s.mch inst).mirrored then 1 else 3
  | 0x0609 => if inst < 4 then 6 else 1
  | 0x0202 | 0x0203 | 0x0D00 => 4
  | 0x0501 => 5
  | 0x0502 | 0x070A | 0x0A04 | 0x0A08 | 0x0C00 | 0x0C02 => 6
  | 0x0304 | 0x0605 | 0x0606 | 0x060A | 0x060B | 0x0904 => 2
  | 0x0102 | 0x0108 | 0x0204 | 0x0402 | 0x0508 | 0x0603 | 0x0704 | 0x0705 | 0x0706 | 0x0801 | 0x0806 | 0x0807
  | 0x0901 | 0x0902 | 0x0A03 | 0x0A06 | 0x0B02 | 0x0B03 | 0x0B07 | 0x0C04 | 0x0C05 => 3
  | _ => 1

/-- Number of sources of a block (R424). -/
def blockSources (block : Nat) : Nat :=
  match block with
  | 1 => 11 | 2 => 6 | 3 => 10 | 4 => 4 | 5 => 10 | 6 => 12 | 7 => 12 | 8 => 9 | 9 => 6 | 10 => 11 | 11 => 10
  | 12 => 10 | 13 => 2 | _ => 0
/-- An assigned source ID. -/
def sourceKnown (src : Nat) : Bool := decide (src % 256 < blockSources (src / 256))

/-- The urgent interrupt of a block (R424). -/
def urgentIntr (block : Nat) : Nat :=
  match block with
  | 1 | 13 => 240 | 2 | 3 | 4 => 241 | 5 | 8 => 245 | 6 => 244 | 7 => 242 | 9 => 243 | 10 => 246 | _ => 247

/-- The skein that an event names by its INSTANCE (R429, and the INSTANCE column of R424). -/
def skeinOfInstance (src inst : Nat) : Option Nat :=
  match src / 256 with
  | 1 => some (inst / 20)
  | 2 => if src % 256 = 4 then none else some inst
  | 3 => some (if inst < 240 then inst / 20 else inst - 240)
  | 5 | 9 => if inst < 12 then some inst else none
  | 10 => if (src = 0x0A02 ∨ src = 0x0A03 ∨ src = 0x0A04) ∧ inst < 12 then some inst else none
  | _ => none

/-- The skein that hosts a spindle. -/
def State.skeinOf (s : State) (i : Nat) : Option Nat := (s.sp i).host.map (·.skein)

/-- The skein target of an event (R429). -/
def State.skeinTarget (s : State) (src inst : Nat) (spindle : Option Nat) : Option Nat :=
  match (skeinOfInstance src inst).filter (· < 12) with
  | some k => some k
  | none => spindle.bind s.skeinOf

/-- The owner of an event (R426). -/
def State.ownerOf (s : State) (src inst : Nat) (spindle : Option Nat) : Nat :=
  match spindle with
  | some i => (s.partOf i).getD 0
  | none =>
    match src / 256 with
    | 7 => if inst < 4096 then s.param 0x0D10 inst
           else if 8192 ≤ inst then bits (s.param 0x0B03 (inst - 8192)) 2 6 else 0
    | 9 => if 256 ≤ inst then s.param 0x0D10 (inst - 256) else 0
    | _ => 0

/-- A counting group after an event stamped t: the algorithm of R430. -/
def groupStep (limit window t : Nat) (g : Group) : Group :=
  let g := if g.carry && decide (g.last + window ≤ t) then { g with carry := false } else g
  let g := if g.count = 0 ∨ g.start + window ≤ t then { g with start := t, count := 0 } else g
  let g := { g with count := g.count + 1, last := t }
  if limit ≠ 0 ∧ g.count = limit then { g with carry := true, count := 0 } else g

/-- The base severity of a source: its configured code, with the floor of R428. -/
def State.baseSev (s : State) (src inst : Nat) : Nat :=
  let d := s.defaultSev src inst
  let c := bits (s.param 0x0E00 src) 0 3
  if c = 7 then d else if 4 ≤ d then max c d else c

/-- A rung has a target in the record (R433). -/
def State.rungTarget (s : State) (r : ActRec) (rung : Nat) : Bool :=
  match rung with
  | 1 => r.spindle.isSome
  | 2 => r.owner != 0
  | 3 => (s.skeinTarget r.src r.inst r.spindle).isSome
  | _ => true

/-- The countdown that follows rung k of a record (R433): 1 to 4 a rung that applies, 5 the one that exhausts the
ladder. -/
def State.nextCountdown (s : State) (r : ActRec) (k : Nat) : Nat × Nat :=
  if k = 4 ∨ r.limit < k then (0, 0)
  else
    let cand := ((List.range 5).filter fun j => decide (k < j ∧ j ≤ r.limit) && s.rungTarget r j).head?
    match cand with
    | some j => (j, s.time + s.param 0x0E03 j * 1000)
    | none => (5, s.time + s.param 0x0E03 (k + 1) * 1000)

/-- The actions of a rung on its target (R433), queued. -/
def State.applyRung (s : State) (r : ActRec) (k : Nat) : State :=
  let s := match k with
    | 1 => match r.spindle with
      | some i => s.todo (.stop i 5 r.seq 0)
      | none => s
    | 2 => s.todo (.stopPart r.owner r.seq)
    | 3 => match s.skeinTarget r.src r.inst r.spindle with
      | some n => s.todo (.loseSkein n .rung3)
      | none => s
    | 4 => s.todo .halt
    | _ => s
  if k = 0 then s else s.todo (.event ⟨0x0C07, 0, r.spindle, BitVec.ofNat 64 r.seq⟩ k)

/-- ERR_N follows the active records, OVERFLOW and HALT (R437). -/
def State.setErr (s : State) : State :=
  s.modPins fun p => { p with errLow := (!s.faults.active.isEmpty || s.faults.overflow || s.life == .halt) && !s.power.hubLost }

/-- A request for a snapshot (R440, R441): it shares a scheduled pulse, merges during a drain, or schedules a pulse; that of
a reel-fatal event waits for no ordinary drain. -/
def State.requestSnap (s : State) (trigger source seq : Nat) : State :=
  let f := s.faults
  let r : SnapReq := { trigger := trigger, source := source, seq := seq, fatal := trigger == 4, ctl := trigger == 1 }
  let join (p : SnapReq) : SnapReq := { p with many := true, fatal := p.fatal || r.fatal, ctl := p.ctl || r.ctl }
  match f.pulseReq with
  | some p => s.modFaults fun f => { f with pulseReq := some (join p) }
  | none =>
    if f.draining.isNone || (r.fatal && f.draining != some 3) then s.modFaults fun f => { f with pulseReq := some r }
    else
      let p : SnapReq := match f.pendSnap with
        | some p => join p
        | none => r
      (s.modFaults fun f => { f with pendSnap := some p, merged := satBits 12 (f.merged + 1) }).todo
        (.event ⟨0x0C09, 0, none, 0⟩ 0)

/-- A record appended to the fault log, unless the second's rate is used up and the severity lets it be suppressed
(R443). -/
def State.logRecord (s : State) (r : LogRec) : State :=
  let f := s.faults
  if f.secCount < s.param 0x0E05 0 ∨ 3 ≤ r.sev then
    s.modFaults fun f => { f with
      log := ({ r with seq := (f.seq + 1) % 2 ^ 32 } :: f.log).take 65536, seq := (f.seq + 1) % 2 ^ 32,
      secCount := f.secCount + 1 }
  else
    s.modFaults fun f => { f with suppressed := satBits 64 (f.suppressed + 1), secSup := f.secSup + 1 }

/-- The active record that an urgent or higher event opens, or the repeat it adds, or the overflow it meets (R432). -/
def State.openRecord (s : State) (e : EventIn) (owner sev handled : Nat) : State :=
  let f := s.faults
  if f.active.any fun r => r.src == e.src && r.inst == e.inst then
    s.modFaults fun f => { f with active := f.active.map fun r =>
      if r.src == e.src && r.inst == e.inst then { r with repeats := satBits 16 (r.repeats + 1) } else r }
  else if f.active.length < 1024 ∨ e.src = 0x0C05 then
    let limit := bits (s.param 0x0E00 e.src) 3 3
    let k := match handled with | 4 => 1 | 5 => 3 | 6 => 4 | _ => 0
    let r : ActRec := { seq := s.faults.seq, src := e.src, inst := e.inst, owner := owner, spindle := e.spindle,
                        sev := sev, rung := k, limit := limit,
                        skein := if k = 3 then s.skeinTarget e.src e.inst e.spindle else none }
    let (n, due) := if e.src = 0x0C05 then (0, 0) else s.nextCountdown r k
    let s1 := s.modFaults fun f => { f with active := f.active ++ [{ r with next := n, due := due }] }
    let s2 := (if owner = 0 then s1 else s1.notifyIntr 0x0E04 owner (urgentIntr (e.src / 256))).notifyIntr 0x0E04 0
      (urgentIntr (e.src / 256))
    (s2.applyRung r k).setErr
  else
    ((s.modFaults fun f => { f with overflow := true }).todo (.event ⟨0x0C05, 0, none, 0⟩ 0)).setErr

/-- One event collected (R426 to R433), in the second that is current. -/
def State.collectCore (s : State) (e : EventIn) (forced : Bool) (rung : Nat) : State :=
  let t := s.time / 1000 * 1000
  let block := e.src / 256
  let key := 65536 * block + e.inst
  let g := groupStep (s.param 0x0E01 block) (s.param 0x0E02 block) t (tget {} s.faults.groups key)
  let base := s.baseSev e.src e.inst
  let sev := min (base + b2n g.carry) 6
  let owner := s.ownerOf e.src e.inst e.spindle
  let handled := if (sev = 4 ∧ e.spindle = none) ∨ (sev = 5 ∧ s.skeinTarget e.src e.inst e.spindle = none) then 3
    else sev
  let s := s.modFaults fun f => { f with groups := tset {} f.groups key g,
                                         counts := tmod 0 f.counts e.src fun n => satBits 64 (n + 1) }
  if sev = 0 then s
  else
    let full := decide (3 ≤ sev) && e.src != 0x0C05 && decide (1024 ≤ s.faults.active.length) &&
      !(s.faults.active.any fun r => r.src == e.src && r.inst == e.inst)
    let s := s.logRecord { time := t, src := e.src, inst := e.inst, sev := sev, base := base, carry := g.carry,
                           forced := forced, owner := owner, spindle := e.spindle, rung := rung, overflow := full,
                           detail := e.detail }
    let s := if sev = 2 then s.modFaults fun f => { f with deferred := satBits 18 (f.deferred + 1) } else s
    let s := if 3 ≤ sev then s.openRecord e owner sev handled else s
    let s := if sev = 6 then
        ((s.modFaults fun f => { f with fatal := true }).modPins fun p => { p with fatalLow := true }).todo
          (.fatalSnap e.src s.faults.seq)
      else s
    if bitAt (s.param 0x0E00 e.src) 6 && e.src != 0x0C09 && sev != 6 then s.requestSnap 2 e.src s.faults.seq else s

/-- A new second of the timebase: the counts start afresh, and the records suppressed in the second that ended are
reported first (R443). -/
def State.rollSecond (s : State) : State :=
  let sec := s.time / 1000000000
  if sec = s.faults.secStart then s
  else
    let n := s.faults.secSup
    let s := s.modFaults fun f => { f with secStart := sec, secCount := 0, secSup := 0 }
    if n = 0 then s else s.collectCore ⟨0x0C06, 0, none, BitVec.ofNat 64 n⟩ false 0

/-- An event collected. -/
def State.collect (s : State) (e : EventIn) (forced : Bool) (rung : Nat) : State :=
  s.rollSecond.collectCore e forced rung

/-- A reserved encoding stored into a field (R14): the owning block's group counts the event, and a record of log severity
gives the register offset and the owner that R426 gives. The spec names no source for it, so SOURCE's row is free (log 9). -/
def State.reservedWrite (s : State) (block inst off : Nat) : State :=
  let s := s.rollSecond
  let t := s.time / 1000 * 1000
  let key := 65536 * block + inst
  let g := groupStep (s.param 0x0E01 block) (s.param 0x0E02 block) t (tget {} s.faults.groups key)
  let sev := 1 + b2n g.carry
  let s1 := s.modFaults fun f => { f with groups := tset {} f.groups key g, deferred := satBits 18 (f.deferred + b2n g.carry) }
  let r : LogRec := {
    time := t, src := 256 * block + Config.reservedSource block s.freeCtr % 256, inst := inst, sev := sev, base := 1,
    carry := g.carry, owner := s.ownerOf (256 * block) inst none, detail := BitVec.ofNat 64 off }
  { s1 with freeCtr := s1.freeCtr + 1 }.logRecord r

/-- An event of a source raised with a DETAIL that its rule states. -/
def State.raiseD (s : State) (src inst : Nat) (spindle : Option Nat) (detail : Nat) : State :=
  s.collect ⟨src, inst, spindle, BitVec.ofNat 64 detail⟩ false 0

/-- An event of a source raised; its DETAIL, where no rule states it, is a free value (R426; log 9). -/
def State.raise (s : State) (src inst : Nat) (spindle : Option Nat := none) : State :=
  { s with freeCtr := s.freeCtr + 1 }.collect ⟨src, inst, spindle, Config.faultDetail src s.freeCtr⟩ false 0

end Sys2Proof.Machine
end

