-- ==== Sys2Proof/Machine/Crypto.lean ====
section
/-!
DEFINITION. The cipher unit's arithmetic (R404, R407): AES (FIPS 197), the counter, chaining, Galois and XTS modes, on
lists of bytes as numbers.
-/

namespace Sys2Proof.Machine

/-- Product in GF(2^8) of AES, by k doubling steps. -/
def gfMulGo : Nat → Nat → Nat → Nat → Nat
  | 0, _, _, r => r
  | k + 1, a, b, r =>
    gfMulGo k (if a < 128 then 2 * a else (2 * a) % 256 ^^^ 0x1B) (b / 2) (if b % 2 = 1 then r ^^^ a else r)
/-- Product in GF(2^8). -/
def gfMul (a b : Nat) : Nat := gfMulGo 8 a b 0
/-- The k-th square of a in GF(2^8). -/
def gfSqr : Nat → Nat → Nat
  | 0, a => a
  | k + 1, a => gfSqr k (gfMul a a)
/-- The multiplicative inverse, a^254; 0 for 0. -/
def gfInv (a : Nat) : Nat :=
  let p (k : Nat) : Nat := gfSqr k a
  gfMul (gfMul (gfMul (p 1) (p 2)) (gfMul (p 3) (p 4))) (gfMul (gfMul (p 5) (p 6)) (p 7))
/-- Rotation of a byte to the left. -/
def rotl8 (x k : Nat) : Nat := (x * 2 ^ k % 256) ||| (x / 2 ^ (8 - k))
/-- The S-box computed. -/
def sboxOf (x : Nat) : Nat :=
  let b := gfInv x
  b ^^^ rotl8 b 1 ^^^ rotl8 b 2 ^^^ rotl8 b 3 ^^^ rotl8 b 4 ^^^ 0x63
/-- The inverse S-box computed. -/
def invSboxOf (x : Nat) : Nat := gfInv (rotl8 x 1 ^^^ rotl8 x 3 ^^^ rotl8 x 6 ^^^ 0x05)

/-- Byte k of a list; 0 past its end. -/
def nth (xs : List Nat) (k : Nat) : Nat := xs.getD k 0
/-- Two lists combined by XOR, as long as the first. -/
def xorBytes (xs ys : List Nat) : List Nat := (List.range xs.length).map fun k => nth xs k ^^^ nth ys k

/-- The AES key schedule: n words of four bytes, each from the one before and the one nk before. -/
def expandGo (nk : Nat) : Nat → List (List Nat) → List (List Nat)
  | 0, ws => ws
  | n + 1, ws =>
    let i := ws.length
    let prev := ws.getD (i - 1) []
    let t :=
      if i % nk = 0 then
        let r := [sboxOf (nth prev 1), sboxOf (nth prev 2), sboxOf (nth prev 3), sboxOf (nth prev 0)]
        xorBytes r [gfSqrt2 (i / nk - 1), 0, 0, 0]
      else if nk = 8 ∧ i % 8 = 4 then prev.map sboxOf
      else prev
    expandGo nk n (ws ++ [xorBytes (ws.getD (i - nk) []) t])
where
  /-- The round constant 2^j in GF(2^8). -/
  gfSqrt2 : Nat → Nat
    | 0 => 1
    | j + 1 => gfMul 2 (gfSqrt2 j)

/-- Four-byte words of a byte list. -/
def words4 (xs : List Nat) : List (List Nat) := (List.range (xs.length / 4)).map fun k => (xs.drop (4 * k)).take 4
/-- The round keys of an AES key of 16, 24 or 32 bytes, 16 bytes each. -/
def roundKeys (key : List Nat) : List (List Nat) :=
  let nk := key.length / 4
  let ws := expandGo nk (4 * (nk + 7) - nk) (words4 key)
  (List.range (nk + 7)).map fun r => (List.range 16).map fun j => nth (ws.getD (4 * r + j / 4) []) (j % 4)

/-- ShiftRows. -/
def shiftRows (s : List Nat) : List Nat := (List.range 16).map fun j => nth s ((j + 4 * (j % 4)) % 16)
/-- Its inverse. -/
def invShiftRows (s : List Nat) : List Nat := (List.range 16).map fun j => nth s ((j + 16 - 4 * (j % 4)) % 16)
/-- MixColumns with the coefficients of its first row. -/
def mixCols (c : List Nat) (s : List Nat) : List Nat :=
  (List.range 16).map fun j =>
    let col := j / 4 * 4
    let r := j % 4
    (List.range 4).foldl (fun x i => x ^^^ gfMul (nth c ((i + 4 - r) % 4)) (nth s (col + i))) 0

/-- The rounds of an encryption after the first key addition. -/
def encRounds : List (List Nat) → List Nat → List Nat
  | [], s => s
  | [k], s => xorBytes (shiftRows (s.map sboxOf)) k
  | k :: rest, s => encRounds rest (xorBytes (mixCols [2, 3, 1, 1] (shiftRows (s.map sboxOf))) k)
/-- The rounds of a decryption after the first key addition. -/
def decRounds : List (List Nat) → List Nat → List Nat
  | [], s => s
  | [k], s => xorBytes ((invShiftRows s).map invSboxOf) k
  | k :: rest, s => decRounds rest (mixCols [14, 11, 13, 9] (xorBytes ((invShiftRows s).map invSboxOf) k))

/-- AES encryption of a block. -/
def aesEnc (key block : List Nat) : List Nat :=
  match roundKeys key with
  | k :: rest => encRounds rest (xorBytes block k)
  | [] => block
/-- AES decryption of a block. -/
def aesDec (key block : List Nat) : List Nat :=
  match (roundKeys key).reverse with
  | k :: rest => decRounds rest (xorBytes block k)
  | [] => block

/-- The n bytes of x, the lowest first (R10). -/
def leBytes (n x : Nat) : List Nat := (List.range n).map fun k => x / 256 ^ k % 256
/-- The number that bytes spell, the lowest first. -/
def leNat (xs : List Nat) : Nat := xs.foldr (fun b n => b + 256 * n) 0
/-- The n bytes of x, the highest first. -/
def beBytes (n x : Nat) : List Nat := (leBytes n x).reverse
/-- The number that bytes spell, the highest first. -/
def beNat (xs : List Nat) : Nat := leNat xs.reverse

/-- Blocks of at most n bytes of a list. -/
def chunksGo (n : Nat) : Nat → List Nat → List (List Nat)
  | 0, _ => []
  | k + 1, xs => if xs.isEmpty then [] else xs.take n :: chunksGo n k (xs.drop n)
/-- Blocks of at most n bytes. -/
def chunks (n : Nat) (xs : List Nat) : List (List Nat) := chunksGo n xs.length xs

/-- The keystream block j of CTR from a counter block: the whole block increments as a big-endian integer (R407). -/
def ctrBlock (key iv : List Nat) (j : Nat) : List Nat := aesEnc key (beBytes 16 ((beNat iv + j) % 2 ^ 128))
/-- CTR over bytes that stand from position pos of the stream (R404). -/
def ctrCrypt (key iv : List Nat) (pos : Nat) (xs : List Nat) : List Nat :=
  let lead := pos % 16
  let padded := List.replicate lead 0 ++ xs
  let bs := chunks 16 padded
  (((List.range bs.length).map fun j => xorBytes (bs.getD j []) (ctrBlock key iv (pos / 16 + j))).flatten).drop lead

/-- CBC encryption of whole blocks: the output and the last chaining value. -/
def cbcEnc (key chain xs : List Nat) : List Nat × List Nat :=
  (chunks 16 xs).foldl (fun (o, c) b => let e := aesEnc key (xorBytes b c); (o ++ e, e)) ([], chain)
/-- CBC decryption of whole blocks. -/
def cbcDec (key chain xs : List Nat) : List Nat × List Nat :=
  (chunks 16 xs).foldl (fun (o, c) b => (o ++ xorBytes (aesDec key b) c, b)) ([], chain)

/-- Multiplication by the primitive element of XTS: the 128-bit little-endian value doubled. -/
def xtsDouble (t : Nat) : Nat := (2 * t) % 2 ^ 128 ^^^ (if 2 ^ 127 ≤ t then 0x87 else 0)
/-- XTS over one data unit, block by block from a tweak. -/
def xtsGo (enc : Bool) (key : List Nat) : List (List Nat) → Nat → List Nat
  | [], _ => []
  | b :: rest, t =>
    let tb := leBytes 16 t
    let x := xorBytes b tb
    xorBytes (if enc then aesEnc key x else aesDec key x) tb ++ xtsGo enc key rest (xtsDouble t)
/-- XTS over whole data units of du bytes, the first numbered n (R404): the key's first half encrypts, its second half
makes the tweaks (IEEE 1619). -/
def xtsCrypt (enc : Bool) (key : List Nat) (du n : Nat) (xs : List Nat) : List Nat :=
  let h := key.length / 2
  let us := chunks du xs
  ((List.range us.length).map fun j =>
    xtsGo enc (key.take h) (chunks 16 (us.getD j [])) (leNat (aesEnc (key.drop h) (leBytes 16 ((n + j) % 2 ^ 128))))).flatten

/-- Product in GF(2^128) of GCM, on big-endian numbers, by k steps. -/
def ghMulGo : Nat → Nat → Nat → Nat → Nat
  | 0, _, _, z => z
  | k + 1, x, v, z =>
    let z := if x.testBit k then z ^^^ v else z
    ghMulGo k x (if v % 2 = 1 then v / 2 ^^^ (0xE1 * 2 ^ 120) else v / 2) z
/-- Product in GF(2^128). -/
def ghMul (x h : Nat) : Nat := ghMulGo 128 x h 0
/-- The hash key of GCM. -/
def ghKey (key : List Nat) : Nat := beNat (aesEnc key (List.replicate 16 0))
/-- The hash after one block, padded with zeros. -/
def ghBlock (h acc : Nat) (b : List Nat) : Nat := ghMul (acc ^^^ (beNat (b ++ List.replicate (16 - b.length) 0))) h
/-- The hash over whole blocks; the rest is returned. -/
def ghUpdate (h acc : Nat) (part xs : List Nat) : Nat × List Nat :=
  let all := part ++ xs
  let n := all.length / 16 * 16
  ((chunks 16 (all.take n)).foldl (ghBlock h) acc, all.drop n)
/-- The counter block j of GCM after the 96-bit IV: the low 32 bits count from 1 (R407). -/
def gcmCtr (key iv : List Nat) (j : Nat) : List Nat := aesEnc key (iv.take 12 ++ beBytes 4 ((1 + j) % 2 ^ 32))
/-- GCM keystream over bytes from position pos of the encrypted data. -/
def gcmCrypt (key iv : List Nat) (pos : Nat) (xs : List Nat) : List Nat :=
  let lead := pos % 16
  let bs := chunks 16 (List.replicate lead 0 ++ xs)
  (((List.range bs.length).map fun j => xorBytes (bs.getD j []) (gcmCtr key iv (pos / 16 + j + 1))).flatten).drop lead
/-- The GCM tag after a hash with the lengths of the authenticated and encrypted data in bytes. -/
def gcmTag (key iv : List Nat) (acc : Nat) (part : List Nat) (aad data : Nat) : List Nat :=
  let h := ghKey key
  let acc := if part.isEmpty then acc else ghBlock h acc part
  xorBytes (beBytes 16 (ghMul (acc ^^^ (8 * aad * 2 ^ 64 + 8 * data)) h)) (gcmCtr key iv 0)

/-- GCM encryption of whole messages with a 96-bit IV: ciphertext and 16-byte tag. -/
def gcmSeal (key iv aad xs : List Nat) : List Nat × List Nat :=
  let h := ghKey key
  let ct := gcmCrypt key iv 0 xs
  let (a1, p1) := ghUpdate h 0 [] aad
  let a2 := if p1.isEmpty then a1 else ghBlock h a1 p1
  let (a3, p3) := ghUpdate h a2 [] ct
  (ct, gcmTag key iv a3 p3 aad.length xs.length)
/-- GCM decryption: the plaintext when the tag verifies. -/
def gcmOpen (key iv aad ct tag : List Nat) : Option (List Nat) :=
  let h := ghKey key
  let (a1, p1) := ghUpdate h 0 [] aad
  let a2 := if p1.isEmpty then a1 else ghBlock h a1 p1
  let (a3, p3) := ghUpdate h a2 [] ct
  if gcmTag key iv a3 p3 aad.length ct.length = tag then some (gcmCrypt key iv 0 ct) else none

/-- The check value of a key slot: the first three bytes of the AES-128 encryption of zeros under its first 128 bits
(R397). -/
def kcvOf (key : List Nat) : Nat := leNat ((aesEnc (key.take 16) (List.replicate 16 0)).take 3)

/-- One step of CRC-32 over a byte. -/
def crcByte (c b : Nat) : Nat :=
  (List.range 8).foldl (fun x _ => if x % 2 = 1 then x / 2 ^^^ 0xEDB88320 else x / 2) (c ^^^ b)
/-- CRC-32 continued from the CRC of the bytes before (RFC 1952); 0 of none. -/
def crc32 (c : Nat) (xs : List Nat) : Nat := (xs.foldl crcByte (c ^^^ 0xFFFFFFFF)) ^^^ 0xFFFFFFFF
/-- Adler-32 continued (RFC 1950); 1 of none. -/
def adler32 (c : Nat) (xs : List Nat) : Nat :=
  let (a, b) := xs.foldl (fun (a, b) x => let a := (a + x) % 65521; (a, (b + a) % 65521)) (c % 65536, c / 65536)
  b * 65536 + a

end Sys2Proof.Machine
end

