-- ==== Sys2Proof/Machine/Route.lean ====
section
/-!
DEFINITION. How packets travel (R268 to R277): the nodes of the two meshes, the route of a packet, its virtual channel, the
layout of its flits, the blocks of the strand links, and the order in which packets of one stream arrive.
-/

namespace Sys2Proof.Machine

/-! ### Nodes (R268) -/

/-- The L3 slice of a line: A[8:7] XOR A[16:15] XOR A[24:23] XOR A[32:31] XOR A[40:39] XOR A[48:47] (R213). -/
def l3SliceOf (l : Nat) : Nat :=
  bits l 0 2 ^^^ bits l 8 2 ^^^ bits l 16 2 ^^^ bits l 24 2 ^^^ bits l 32 2 ^^^ bits l 40 2
/-- The home slice of a line: the XOR fold of its two-bit fields (R241). -/
def homeSlice (l : Nat) : Nat := (List.range 22).foldl (fun x j => x ^^^ bits l (2 * j) 2) 0 ^^^ bits l 44 1

/-- The node of home slice h on the hub mesh. -/
def homeNode (h : Nat) : Nat := match h with | 0 => 18 | 1 => 21 | 2 => 26 | _ => 29
/-- The node of an L3 slice on the skein mesh. -/
def l3Node (h : Nat) : Nat := match h with | 0 => 6 | 1 => 8 | 2 => 16 | _ => 18
/-- The control node of a skein mesh: fasten controller, bead keeper, press unit, cipher unit, register block. -/
def controlNode : Nat := 12
/-- The node of ply p: the nodes that are neither an L3 slice nor the control node, in ascending order. -/
def plyNode (p : Nat) : Nat := ([0, 1, 2, 3, 4, 5, 7, 9, 10, 11, 13, 14, 15, 17, 19, 20, 21, 22, 23, 24][p]?).getD 0
/-- The ply at a node of a skein mesh. -/
def nodePly (n : Nat) : Option Nat := (List.range 20).find? fun p => plyNode p == n
/-- The port node of skein k on the hub mesh. -/
def portNode (k : Nat) : Nat := 8 * (k % 6) + (if k < 6 then 0 else 7)
/-- The firewall node of guest site g. -/
def firewallNode (g : Nat) : Nat := if g = 0 then 3 else 44
/-- The node of DDR5 channel c. -/
def channelNode (c : Nat) : Nat := 8 * (c / 4 + 1) + (if c % 4 < 2 then 1 else 6)
/-- The node of channel engine n. -/
def engineNode (n : Nat) : Nat := (if n < 64 then 10 else 34) + n % 64 / 16
/-- The node of flex group j. -/
def flexNode (j : Nat) : Nat := ([1, 2, 4, 41, 42, 43][j]?).getD 1
/-- The node of rack port k. -/
def rackNode (k : Nat) : Nat := ([5, 6, 45, 46][k / 3]?).getD 5
/-- The node of press and cipher lane j. -/
def laneNode (j : Nat) : Nat := 19 + j / 2
/-- The node of Jalif and the register decoder. -/
def jalifNode : Nat := 27
/-- The node of the interrupt router and the serial-output gate. -/
def gateNode : Nat := 28

/-! ### Packets (R270 to R273) -/

/-- The virtual channel of a command (R270, R272). -/
def vcOf (cmd : Nat) : Nat :=
  if cmd = 0x10 ∨ cmd = 0x11 ∨ cmd = 0x12 ∨ cmd = 0x13 ∨ cmd = 0x14 then 1
  else if (cmd ≤ 4 ∨ cmd = 0x07 ∨ cmd = 0x08 ∨ cmd = 0x09) ∨ (cmd = 0x23 ∨ cmd = 0x24 ∨ cmd = 0x27 ∨ cmd = 0x28) ∨
      (cmd = 0x29 ∨ cmd = 0x2C ∨ cmd = 0x2E) then 0
  else 2

/-- The command's LINE holds an address (R272). -/
def hasLine (cmd : Nat) : Bool :=
  !(cmd == 0x13 || cmd == 0x22 || cmd == 0x24 || cmd == 0x2C || cmd == 0x2D || cmd == 0x2E || cmd == 0x30)
/-- The command's AUX holds the eight granule tags of its data (R272). -/
def hasTags (cmd : Nat) : Bool :=
  cmd == 0x05 || cmd == 0x18 || cmd == 0x1C || cmd == 0x1D || cmd == 0x21 || cmd == 0x23 || cmd == 0x27

/-- LINE of the header: of DATA the dirty flag stands in its top bit, of NACK the hint in its low sixteen (R272). -/
def headerLine (p : Packet) : Nat :=
  if p.cmd = 0x18 then p.line % 2 ^ 44 + b2n p.dirty * 2 ^ 44
  else if p.cmd = 0x1A then p.hint % 2 ^ 16
  else p.line

/-- The header flit (R271). -/
def header (p : Packet) : BitVec 128 :=
  BitVec.ofNat 128 (pack [(0, p.age), (4, p.cmd), (10, p.len), (14, p.tag), (30, p.srcNode), (38, p.src), (42, p.dstNode), (50, p.dst),
    (54, p.tenant.getD 0), (66, b2n p.tenant.isSome), (67, p.part), (73, headerLine p),
    (118, if hasTags p.cmd then p.val.tags.toNat else p.aux), (126, b2n p.val.poison)])

/-- What a header flit says of its packet, but for the data (R271). -/
def ofHeader (h : BitVec 128) : Packet :=
  let n := h.toNat
  let cmd := bits n 4 6
  { age := bits n 0 4, cmd := cmd, len := bits n 10 4, tag := bits n 14 16, srcNode := bits n 30 8, src := bits n 38 4,
    dstNode := bits n 42 8, dst := bits n 50 4, tenant := if bitAt n 66 then some (bits n 54 12) else none, part := bits n 67 6,
    line := if cmd = 0x18 then bits n 73 44 else bits n 73 45, dirty := cmd == 0x18 && bitAt n 117, aux := bits n 118 8 }

/-- Granule g of a line's data: one data flit (R273). -/
def lineFlit (v : LineVal) (g : Nat) : BitVec 128 := (v.data >>> (128 * g)).setWidth 128
/-- A byte-enable mask touches granule g. -/
def maskTouches (m : BitVec 128) (g : Nat) : Bool := (List.range 16).any fun j => m.getLsbD (16 * g + j)
/-- The granules that a byte-enable mask touches. -/
def maskGranules (m : BitVec 128) : Nat := ((List.range 8).filter fun g => maskTouches m g).length

/-- A list of lines two to a flit (R272). -/
def lineFlits : List Nat → List (BitVec 128)
  | a :: b :: rest => BitVec.ofNat 128 (a % 2 ^ 45 + b % 2 ^ 45 * 2 ^ 64) :: lineFlits rest
  | [a] => [BitVec.ofNat 128 (a % 2 ^ 45)]
  | [] => []

/-- The data flits of a packet that carries a line, a masked write, or a list of lines (R272, R273). -/
def dataFlits (p : Packet) : List (BitVec 128) :=
  if p.cmd = 0x09 then p.mask :: ((List.range 8).filter fun g => maskTouches p.mask g).map fun g => lineFlit p.val g
  else if p.cmd = 0x22 then BitVec.ofNat 128 p.epoch :: lineFlits p.lines
  else (List.range p.len).map fun g => lineFlit p.val g

/-! ### Routes (R269) -/

/-- The port by which a packet at node a of a mesh w nodes wide leaves for node b: first in X, then in Y; 0 when it is there.
Row 0 lies at the north (DESIGN CHOICE, log 95). -/
def meshPort (w a b : Nat) : Nat :=
  if a % w < b % w then 2 else if b % w < a % w then 4 else if a / w < b / w then 3 else if b / w < a / w then 1 else 0
/-- The neighbour of node a through a port. -/
def meshHop (w a port : Nat) : Nat := match port with | 1 => a - w | 2 => a + 1 | 3 => a + w | 4 => a - 1 | _ => a
/-- The port of the neighbour that faces a port. -/
def facing (port : Nat) : Nat := match port with | 1 => 3 | 2 => 4 | 3 => 1 | 4 => 2 | n => n

/-- The routers that a packet passes from node a, entered by a port, to node b, left by a port: node, input port, output port. -/
def meshPath (w b out : Nat) : Nat → Nat → Nat → List (Nat × Nat × Nat)
  | 0, _, _ => []
  | n + 1, a, inp =>
    match meshPort w a b with
    | 0 => [(a, inp, out)]
    | q => (a, inp, q) :: meshPath w b out n (meshHop w a q) (facing q)

/-- The L3 slice whose edge port a packet uses off or onto a skein at a node: that of its line, else that of the ply or control
node (R269). -/
def edgeSlice (p : Packet) (node : Nat) : Nat :=
  if hasLine p.cmd then l3SliceOf p.line
  else match nodePly node with
    | some q => q % 4
    | none => ((List.range 4).find? fun h => l3Node h == node).getD 0

/-- The routers of a die that a packet passes (R269): on the hub, 12, it enters and leaves by port and firewall nodes. Buddy
traffic crosses the hub only while it is carried through it (R281). -/
def packetPath (viaHub : Bool) (die : Nat) (p : Packet) : List (Nat × Nat × Nat) :=
  let hubEnd (d node : Nat) : Nat × Nat := if d = 12 then (node, 0) else if d < 12 then (portNode d, 5) else (firewallNode (d - 13), 5)
  let skEnd (d node : Nat) : Nat × Nat := if d = die then (node, 0) else (0, 5)
  if die = 12 then
    if p.src < 12 ∧ p.dst < 12 ∧ (p.src = p.dst ∨ !viaHub) then []
    else
      let a := hubEnd p.src p.srcNode
      let b := hubEnd p.dst p.dstNode
      meshPath 8 b.1 b.2 14 a.1 a.2
  else if p.src ≠ die ∧ p.dst ≠ die then []
  else
    let a := if p.src = die then skEnd p.src p.srcNode else (l3Node (edgeSlice p p.dstNode), 5)
    let b := if p.dst = die then skEnd p.dst p.dstNode else (l3Node (edgeSlice p p.srcNode), 5)
    meshPath 5 b.1 b.2 10 a.1 a.2

/-! ### Strand links (R277) -/

/-- The ends of the strand links between which a packet crosses, each sender with its receiver: the hub role of a skein, or the
role of the two buddies, whose traffic goes through the hub while its own role is down (R269, R281). -/
def strandEnds (viaHub : Bool) (p : Packet) : List (Nat × Nat) :=
  if p.src = p.dst then []
  else if p.src < 12 ∧ p.dst < 12 then
    (if viaHub then [(2 * p.src, 24 + p.src), (24 + p.dst, 2 * p.dst)] else [(2 * p.src + 1, 2 * p.dst + 1)])
  else if p.src < 12 then [(2 * p.src, 24 + p.src)]
  else if p.dst < 12 then [(24 + p.dst, 2 * p.dst)]
  else []

/-- The flits of a packet: its header and its data (R271, R273). -/
def packetFlits (p : Packet) : List (BitVec 128) := header p :: dataFlits p
/-- Flits cut into blocks of 15. -/
def cutFlits : Nat → List (BitVec 128) → List (List (BitVec 128))
  | 0, _ => []
  | n + 1, fs => if fs.isEmpty then [] else fs.take 15 :: cutFlits n (fs.drop 15)
/-- A block sent: it takes the next sequence number and acknowledges what has arrived, and the last 64 are kept. -/
def StrandEnd.put (e : StrandEnd) (fs : List (BitVec 128)) : StrandEnd :=
  let sent := e.sent ++ [{ seq := e.seq, ack := e.got, flits := fs }]
  { e with seq := (e.seq + 1) % 2 ^ 48, sent := sent.drop (sent.length - 64) }
/-- Flits cross from one end to another in blocks. One that fails its CRC is replayed from the sender's buffer, so that each
arrives; idle blocks are not kept (DESIGN CHOICE, log 95). -/
def strandCross (t : Tbl StrandEnd) (e : Nat × Nat) (fs : List (BitVec 128)) : Tbl StrandEnd :=
  let a := (cutFlits fs.length fs).foldl StrandEnd.put (tget {} t e.1)
  tmod {} (tset {} t e.1 a) e.2 fun b => { b with got := a.seq }
/-- The 256 bytes of a block: 15 flits and the trailer of sequence number, acknowledgement and CRC-32 over what stands before it.
Where the three stand in the trailer the spec leaves open (DESIGN CHOICE, log 95). -/
def StrandBlock.bytes (b : StrandBlock) : List Nat :=
  let body := ((b.flits ++ List.replicate 15 0).take 15).flatMap (fun (f : BitVec 128) => leBytes 16 f.toNat) ++
    leBytes 6 b.seq ++ leBytes 6 b.ack
  body ++ leBytes 4 (crc32 0 body)
/-- A block arrives whole: its CRC is good. -/
def strandGood (xs : List Nat) : Bool := xs.length == 256 && crc32 0 (xs.take 252) == leNat (xs.drop 252)

/-- A packet is sent: it is under way, and its flits cross the strand links on its way in blocks (R271, R277). -/
def State.send (s : State) (p : Packet) : State :=
  let via := decide (p.src < 12) && (s.sk p.src).viaHub
  { s with fab := { s.fab with
      net := s.fab.net ++ [p],
      strands := (strandEnds via p).foldl (fun t e => strandCross t e (packetFlits p)) s.fab.strands } }

/-- The ends of skein k's strand link, and its buddy's end of the role between them, begin anew (R278). -/
def State.freshStrands (s : State) (k b : Nat) : State :=
  { s with fab := { s.fab with strands := [2 * k, 2 * k + 1, 2 * b + 1, 24 + k].foldl terase s.fab.strands } }

/-! ### Arbitration and arrival (R270, R274, R275) -/

/-- The choice at a router output among the packets whose virtual channel has credit, each with its input port (R275): the
highest AGE, then VC2 before VC1 before VC0, then round-robin after the input port served last. -/
def routerPick (last : Nat) (c : List (Packet × Nat)) : Option (Packet × Nat) :=
  let rank (x : Packet × Nat) : Nat := x.1.age * 64 + vcOf x.1.cmd * 8 + (5 - (x.2 + 5 - last) % 6)
  c.foldl (fun best x => match best with
    | none => some x
    | some y => if rank y < rank x then some x else some y) none

/-- Two packets of one virtual channel from one source node to one destination node. -/
def sameStream (p q : Packet) : Bool :=
  p.src == q.src && p.srcNode == q.srcNode && p.dst == q.dst && p.dstNode == q.dstNode && vcOf p.cmd == vcOf q.cmd

/-- The packet under way that arrives as p: p itself, or one whose data flits could not be corrected, which arrives with
POISON set (R274). -/
def State.underWay (s : State) (p : Packet) : Packet :=
  let q := { p with val := { p.val with poison := false } }
  if p.val.poison ∧ !s.fab.net.contains p ∧ s.fab.net.contains q then q else p

/-- An earlier packet of its stream has not arrived yet (R270). -/
def State.heldUp (s : State) (p : Packet) : Bool :=
  s.fab.net.contains p && (s.fab.net.takeWhile (· != p)).any fun q => sameStream q p

/-- The state without a packet that has been received (R271). -/
def State.received (s : State) (p : Packet) : State := { s with fab := { s.fab with net := s.fab.net.erase p } }

/-- A packet arrives, in the order of its stream, and f is what it does (R270). One that is not under way comes from an agent
outside the model (log 13). -/
def State.arrive (s : State) (p : Packet) (f : State → State) : State :=
  let q := s.underWay p
  if s.heldUp q then s else f (s.received q)

end Sys2Proof.Machine
end

