-- ==== Sys2Proof/Machine/Skein.lean ====
section
/-!
DEFINITION. The lines a skein holds: the slots of its L2s and L3 and their replacement (R213 to R221), requests to the
home slices (R246 to R249), evictions, writebacks and releases (R195, R220, R221, R255), and the performance of retired
stores in order (R145, R176, R215, R258).
-/

namespace Sys2Proof.Machine

/-- The reel runs bundles: RUN or DEGRADED (R33). -/
def State.running (s : State) : Bool := s.life == .run || s.life == .degraded

/-- The skein runs: admitted and not lost. -/
def State.skeinUp (s : State) (k : Nat) : Bool := (s.sk k).present && !(s.sk k).lost

/-- The directory set of a line within its slice (R241). -/
def dirSet (l : Nat) : Nat := bits l 2 18 ^^^ bits l 20 18 ^^^ bits l 38 7
/-- The L2 set of a line (R213). -/
def l2SetOf (l : Nat) : Nat := l % 2048
/-- The L3 set of a line within its slice: A[20:9] + 4,096 * (A[51:21] mod 3) (R213). -/
def l3SetOf (l : Nat) : Nat := bits l 2 12 + 4096 * (bits l 14 31 % 3)
/-- The first L3 slot of a line's set, over all four slices. -/
def l3Base (l : Nat) : Nat := (l3SliceOf l * 12288 + l3SetOf l) * 16
/-- The first L2 slot of a line's set. -/
def l2Base (l : Nat) : Nat := l2SetOf l * 16
/-- The skein holds the line in an L2, a side buffer or its L3 (R245), or in the buffer of a request. -/
def SkLine.held (x : SkLine) : Bool := x.l2 != 0 || x.sbh != 0 || x.l3 || x.buf
/-- The line is dirty. -/
def SkLine.dirty (x : SkLine) : Bool := x.fst != .clean

/-- What skein k holds of a line. -/
def State.skl (s : State) (k l : Nat) : SkLine := tget {} (s.sk k).lines l
/-- Skein k's holding of a line becomes x. -/
def State.setSkl (s : State) (k l : Nat) (x : SkLine) : State :=
  s.modSk k fun z => { z with lines := tset {} z.lines l x }
/-- Skein k's holding of a line changed by f. -/
def State.modSkl (s : State) (k l : Nat) (f : SkLine → SkLine) : State := s.setSkl k l (f (s.skl k l))

/-- Bit p of a mask of plies set or cleared. -/
def setPly (m : BitVec 20) (p : Nat) (v : Bool) : BitVec 20 :=
  if v then m ||| BitVec.ofNat 20 (2 ^ p) else m &&& ~~~(BitVec.ofNat 20 (2 ^ p))
/-- The bits of ply p's two fibres. -/
def fibreBits (p : Nat) : BitVec 40 := BitVec.ofNat 40 (3 * 2 ^ (2 * p))

/-- The first way from 0 upward whose slot satisfies the condition. -/
def findWay (t : Tbl CacheSlot) (base : Nat) (c : Nat → CacheSlot → Bool) : Option Nat :=
  (List.range 16).find? fun w => c w (tget {} t (base + w))

/-- Every line of a set aged by one (R217). -/
def ageSet (t : Tbl CacheSlot) (base : Nat) : Tbl CacheSlot :=
  (List.range 16).foldl (fun u w => tmod {} u (base + w) fun x => if x.line = 0 then x else { x with rrpv := min 3 (x.rrpv + 1) }) t

/-- The victim of a set: the first allowed way whose value is 3, the set aged until there is one (R217). -/
def pickVictim (base : Nat) (ok : Nat → CacheSlot → Bool) : Nat → Tbl CacheSlot → Option (Nat × Tbl CacheSlot)
  | 0, _ => none
  | n + 1, t =>
    match findWay t base fun w x => ok w x && x.line != 0 && x.rrpv == 3 with
    | some w => some (w, t)
    | none => pickVictim base ok n (ageSet t base)

/-- A way for a fill: an empty allowed slot, else the victim. -/
def pickWay (t : Tbl CacheSlot) (base : Nat) (ok : Nat → CacheSlot → Bool) : Option (Nat × Tbl CacheSlot) :=
  match findWay t base fun w x => ok w x && x.line == 0 with
  | some w => some (w, t)
  | none => pickVictim base ok 4 t

/-- A way of ply p's L2 that a fill may use (R217). -/
def State.l2Allowed (s : State) (k p w : Nat) : Bool :=
  let y := s.ply k p
  y.l2On.getLsbD w && !y.l2Off.getLsbD w && tget 0 y.l2Lock w == 0
/-- A way of skein k's L3 that a fill may use: on a Fastened skein not the four reserved ways (R191, R206, R217). -/
def State.l3Allowed (s : State) (k w : Nat) : Bool :=
  let z := s.sk k
  z.l3On.getLsbD w && !z.l3Off.getLsbD w && tget 0 z.l3Lock w == 0 && (z.loose || decide (w < 12))

/-- The slot that holds a line, cleared. -/
def dropSlot (t : Tbl CacheSlot) (base l : Nat) : Tbl CacheSlot :=
  match findWay t base fun _ x => x.line == l + 1 with
  | some w => tset {} t (base + w) {}
  | none => t

/-- Ply p's L2 gives the line up: its L1s first, then the slot (R214). -/
def State.l2Drop (s : State) (k p l : Nat) : State :=
  let s := s.modSkl k l fun x => { x with l2 := setPly x.l2 p false, l1d := x.l1d &&& ~~~(fibreBits p),
                                          l1i := x.l1i &&& ~~~(fibreBits p) }
  s.modPly k p fun y => { y with l2 := dropSlot y.l2 (l2Base l) l }
/-- Ply p's side buffer gives the line up. -/
def State.sbDrop (s : State) (k p l : Nat) : State :=
  let s := s.modSkl k l fun x => { x with sbh := setPly x.sbh p false }
  s.modPly k p fun y => { y with sb := y.sb.filter (· != l), sbAt := terase y.sbAt l }
/-- The L3 gives its copy up. -/
def State.l3Drop (s : State) (k l : Nat) : State :=
  let s := s.modSkl k l fun x => { x with l3 := false }
  s.modSk k fun z => { z with l3 := dropSlot z.l3 (l3Base l) l }
/-- Every copy of the line in the skein goes, with what the skein knows of it, and there is nothing of it to double. -/
def State.forget (s : State) (k l : Nat) : State :=
  let x := s.skl k l
  let s := foldS ((List.range 20).filter fun p => x.l2.getLsbD p) (fun p t => t.l2Drop k p l) s
  let s := foldS ((List.range 20).filter fun p => x.sbh.getLsbD p) (fun p t => t.sbDrop k p l) s
  ((s.l3Drop k l).setSkl k l {}).modSk k fun z => if z.toSend.contains l then { z with toSend := z.toSend.filter (· != l) } else z

/-- A packet of skein k for the home slice of a line. -/
def homePacket (k cmd l : Nat) : Packet :=
  { cmd := cmd, src := k, srcNode := l3Node (l3SliceOf l), dst := 12, dstNode := homeNode (homeSlice l), line := l }

/-- A TAG that no open request of the skein uses, its evictions included (R271). -/
def freeTag (z : Skein) : Nat :=
  ((List.range (z.reqs.length + z.evicts.length + 1)).find? fun t =>
    !((z.reqs.any fun r => r.pkt.tag == t) || z.evicts.any fun e => e.tag == t)).getD 0

/-- The release of a line goes to the buddy whenever the buddy is admitted, in the paired and pairing states (R195). -/
def State.sendRelease (s : State) (k l : Nat) : State :=
  let z := s.sk k
  if !z.loose && (z.pair = 0 || z.pair = 2) && (s.sk (buddyOf k)).present then
    s.modSk k fun z => { z with releases := z.releases ++ [l] }
  else s

/-- A line that CLEAN has written back and the skein keeps, its WB not yet acknowledged (log 23). -/
def Skein.cleans (z : Skein) (l : Nat) : Bool := z.evicts.any fun e => e.line == l && e.hint == 1
/-- A line is leaving the skein: its eviction record is open (R255). -/
def Skein.leaving (z : Skein) (l : Nat) : Bool := z.evicts.any fun e => e.line == l && e.hint != 1
/-- MARK_M of a line (R243). -/
def State.markM (s : State) (k l : Nat) : State := s.send { homePacket k 0x04 l with tag := freeTag (s.sk k) }

/-- A WB or EVICT_CLEAN of a line, with its eviction record (R255). -/
def State.sendEvict (s : State) (k : Nat) (p : Packet) : State :=
  let q := { p with tag := freeTag (s.sk k) }
  (s.modSk k fun z => { z with evicts := z.evicts ++ [q] }).send q

/-- The line leaves the skein: a dirty line is written back through its home and its release goes to the buddy, a clean
one sends the clean-eviction notice (R220, R221). -/
def State.evictLine (s : State) (k l : Nat) : State :=
  let x := s.skl k l
  let s1 := s.forget k l
  if x.dirty then
    (s1.sendEvict k { homePacket k 0x05 l with len := 8, val := x.val, dirty := true }).sendRelease k l
  else s1.sendEvict k (homePacket k 0x06 l)

/-- A dirty line written back and kept, now clean; the WB says so in HINT, and the home leaves the skein its holder
(R225; log 23). -/
def State.cleanLine (s : State) (k l : Nat) : State :=
  let x := s.skl k l
  if x.dirty then
    ((s.modSkl k l fun y => { y with fst := .clean, own := .exclusive }).sendEvict k
      { homePacket k 0x05 l with len := 8, val := x.val, dirty := true, hint := 1 }).sendRelease k l
  else s

/-- The L3 accepts a line: into an empty allowed slot, else in place of a victim, which leaves as R221 gives; none when
no way is allowed (R183). -/
def State.l3Insert (s : State) (k l : Nat) : Option State :=
  let z := s.sk k
  if (findWay z.l3 (l3Base l) fun _ x => x.line == l + 1).isSome then some (s.modSkl k l fun x => { x with l3 := true })
  else
    let ok (w : Nat) (x : CacheSlot) : Bool :=
      s.l3Allowed k w && (x.line == 0 || (let f := (s.skl k (x.line - 1)).fst; f == .clean || f == .fastenedDirty))
    match pickWay z.l3 (l3Base l) ok with
    | none => none
    | some (w, t) =>
      let v := (tget {} t (l3Base l + w)).line
      let s := s.modSk k fun z => { z with l3 := t }
      let s :=
        if v = 0 then s
        else
          let s1 := s.l3Drop k (v - 1)
          if (s1.skl k (v - 1)).held then s1 else (s1.setSkl k (v - 1) (s.skl k (v - 1))).evictLine k (v - 1)
      some ((s.modSk k fun z => { z with l3 := tset {} z.l3 (l3Base l + w) ⟨l + 1, 2, false⟩ }).modSkl k l fun x => { x with l3 := true })

/-- An L2 victim is offered to the L3 (R220): a dirty line is accepted, a clean one unless it was never hit and
cache.l3_decline is 1; a line that no cache of the skein keeps leaves it. While the L3 is draining or disabled the line
leaves for its home (R235); an unfastened or closing one then waits for its fasten (R183). -/
def State.l2Victim (s : State) (k p v : Nat) : Option State :=
  let x := s.skl k v
  let s1 := s.l2Drop k p v
  let y := s1.skl k v
  let decline := !x.dirty && !x.hit.getLsbD p && s.param 0x0702 k == 1
  if (s.sk k).l3State ≠ 0 ∨ decline then
    if y.held then some s1
    else if x.fst = .unfastened ∨ x.fst = .closing then none
    else some ((s1.setSkl k v { y with l2 := x.l2 }).evictLine k v)
  else
    match s1.l3Insert k v with
    | some s2 =>
      some (s2.modSkl k v fun u =>
        { u with val := x.val, fst := x.fst, own := x.own, due := x.due, hold := x.hold, nacked := x.nacked, nackEpoch := x.nackEpoch, holdAt := x.holdAt })
    | none => if x.dirty || y.held then (if y.held then some s1 else none) else some ((s1.setSkl k v { y with l2 := x.l2 }).evictLine k v)

/-- The L2 of ply p takes a line that the skein holds; none when no way is allowed or the victim cannot leave. -/
def State.l2Insert (s : State) (k p l : Nat) : Option State :=
  let y := s.ply k p
  if (findWay y.l2 (l2Base l) fun _ x => x.line == l + 1).isSome then
    some (s.modSkl k l fun x => { x with l2 := setPly x.l2 p true })
  else
    match pickWay y.l2 (l2Base l) fun w _ => s.l2Allowed k p w with
    | none => none
    | some (w, t) =>
      let v := (tget {} t (l2Base l + w)).line
      let s := s.modPly k p fun y => { y with l2 := t }
      match (if v = 0 then some s else s.l2Victim k p (v - 1)) with
      | none => none
      | some s1 =>
        some ((s1.modPly k p fun y => { y with l2 := tset {} y.l2 (l2Base l + w) ⟨l + 1, 2, false⟩ }).modSkl k l
          fun x => { x with l2 := setPly x.l2 p true, hit := setPly x.hit p false })

/-- After an L2 of the skein has taken a line, the L3 keeps its copy only when another L2 or side buffer holds the line,
when it lies in a locked way, or when the line is closing (R214); its re-reference value is then that of a hit (R217). -/
def State.l3AfterHit (s : State) (k p l : Nat) : State :=
  let x := s.skl k l
  let z := s.sk k
  let locked := match findWay z.l3 (l3Base l) fun _ y => y.line == l + 1 with
    | some w => tget 0 z.l3Lock w != 0
    | none => false
  if !x.l3 then s
  else if !locked && x.fst != .closing && setPly x.l2 p false == 0 && x.sbh == 0 then s.l3Drop k l
  else s.modSk k fun z => { z with l3 := match findWay z.l3 (l3Base l) fun _ y => y.line == l + 1 with
    | some w => tmod {} z.l3 (l3Base l + w) fun y => { y with rrpv := 0 }
    | none => z.l3 }

/-- The L2 of ply p serves: neither draining nor disabled (R235). -/
def State.l2Up (s : State) (k p : Nat) : Bool := (s.ply k p).l2State == 0

/-- The line, which the skein holds, brought to ply p: out of the side buffer into the L2 (R219), or from another L2 or
the L3 (R214, R245), or left where it is while the L2 is draining or disabled (R235). A hit sets the re-reference value
to 0, but not the access that filled the line (R217, R220). DESIGN CHOICE (log 91): a line moved out of the side buffer has
the value of a fill and counts as not yet hit, though the access is served as a hit. None when the L2 can take no line now;
the skein then asks for an early fasten (R183). -/
def State.bring (s : State) (k p l : Nat) : Option State :=
  let x := s.skl k l
  if x.l2.getLsbD p then
    let y := s.ply k p
    match findWay y.l2 (l2Base l) fun _ z => z.line == l + 1 with
    | some w =>
      let j := l2Base l + w
      if (tget ({} : CacheSlot) y.l2 j).fresh then
        some (s.modPly k p fun y => { y with l2 := tmod {} y.l2 j fun z => { z with fresh := false } })
      else some ((s.modPly k p fun y => { y with l2 := tmod {} y.l2 j fun z => { z with rrpv := 0 } }).modSkl k l fun x =>
        { x with hit := setPly x.hit p true })
    | none => some s
  else if !s.l2Up k p then some s
  else
    let s1 := if x.sbh.getLsbD p then s.sbDrop k p l else s
    match s1.l2Insert k p l with
    | some s2 => some ((s2.l3AfterHit k p l).modSkl k l fun y => { y with buf := false })
    | none => none

/-! ### The L1s (R213, R215, R217) -/

/-- The tree of pseudo-LRU bits after a use of way w: each node on its path points away from it. -/
def treeUse (t : BitVec 7) (w : Nat) : BitVec 7 :=
  let put (t : BitVec 7) (n : Nat) (v : Bool) : BitVec 7 :=
    if v then t ||| BitVec.ofNat 7 (2 ^ n) else t &&& ~~~(BitVec.ofNat 7 (2 ^ n))
  put (put (put t 0 (!bitAt w 2)) (1 + bits w 2 1) (!bitAt w 1)) (3 + bits w 1 2) (!bitAt w 0)
/-- The way that the tree points to. -/
def treeWay (t : BitVec 7) : Nat :=
  let a := b2n (t.getLsbD 0)
  let b := b2n (t.getLsbD (1 + a))
  4 * a + 2 * b + b2n (t.getLsbD (3 + 2 * a + b))

/-- The bits of a line's L1 presence on one side: instructions or data. -/
def SkLine.l1 (x : SkLine) (fetch : Bool) : BitVec 40 := if fetch then x.l1i else x.l1d
/-- Fibre f of ply p has the line in its L1I or L1D. -/
def SkLine.inL1 (x : SkLine) (p f : Nat) (fetch : Bool) : Bool := (x.l1 fetch).getLsbD (2 * p + f)
/-- The line's presence in the L1 of fibre f of ply p becomes v. -/
def SkLine.setL1 (x : SkLine) (p f : Nat) (fetch v : Bool) : SkLine :=
  let b : BitVec 40 := BitVec.ofNat 40 (2 ^ (2 * p + f))
  let m := if v then x.l1 fetch ||| b else x.l1 fetch &&& ~~~b
  if fetch then { x with l1i := m } else { x with l1d := m }

/-- One L1 takes or uses the line (R213, R217): its way, or an empty one, or the one that the tree of its set points to. A slot
is empty once the line's presence bit is gone. -/
def State.l1Use (s : State) (k p f l : Nat) (fetch : Bool) : State :=
  let c := (2 * f + b2n fetch) * 128 + l % 128
  let y := s.ply k p
  let at_ (w : Nat) : Nat := tget 0 y.l1 (8 * c + w)
  let live (w : Nat) : Bool := at_ w != 0 && (s.skl k (at_ w - 1)).inL1 p f fetch
  let tree := tget (0 : BitVec 7) y.l1t c
  let w := (((List.range 8).find? fun w => at_ w == l + 1) <|> ((List.range 8).find? fun w => !live w)).getD (treeWay tree)
  let s1 := if live w ∧ at_ w ≠ l + 1 then s.modSkl k (at_ w - 1) fun x => x.setL1 p f fetch false else s
  (s1.modPly k p fun y => { y with l1 := tset 0 y.l1 (8 * c + w) (l + 1), l1t := tset 0 y.l1t c (treeUse tree w) }).modSkl k l
    fun x => x.setL1 p f fetch true

/-- The fibres' L1 takes or uses the line while the L1s serve: both fibres of a Twin ply, one of a Split ply (R213, R215,
R235). -/
def State.l1Fill (s : State) (k p f l : Nat) (fetch : Bool) : State :=
  if !s.l2Up k p then s
  else if (s.sk k).split then s.l1Use k p f l fetch
  else (s.l1Use k p 0 l fetch).l1Use k p 1 l fetch

/-- The L1s of a ply hold nothing (R156 step 3, R235). -/
def State.clearL1 (s : State) (k p : Nat) : State :=
  s.modSk k fun z => { z with lines := z.lines.map fun e =>
    (e.1, { e.2 with l1d := e.2.l1d &&& ~~~(fibreBits p), l1i := e.2.l1i &&& ~~~(fibreBits p) }) }

/-- An L2 miss of a fibre, as the ply's prefetcher sees it (R218): the last two lines that each fibre missed. -/
def State.noteMiss (s : State) (h : Place) (l : Nat) : State :=
  if (s.skl h.skein l).l2.getLsbD h.ply then s
  else s.modPly h.skein h.ply fun y =>
    let last := tget 0 y.strides (2 * h.fibre)
    if last = l + 1 then y
    else { y with strides := tset 0 (tset 0 y.strides (2 * h.fibre) (l + 1)) (2 * h.fibre + 1) last }

/-- The skein asks the home slice for a line, once (R246): RD_SHARED, or RD_OWN, or UPGRADE when it holds the line
Shared. It does not ask for a line while its own eviction of it is open, which the home might take for one of the line that it
grants (log 95). -/
def State.ask (s : State) (k p l : Nat) (own pf : Bool) (lock : Bool := false) : State :=
  let z := s.sk k
  if z.leaving l || z.reqs.any fun r => r.pkt.line == l then s
  else
    let cmd := if !own then 1 else if (s.skl k l).held then 3 else 2
    let q := { homePacket k cmd l with tag := freeTag z, since := s.time }
    (s.modSk k fun z => { z with reqs := z.reqs ++ [{ pkt := q, ply := p, pf := pf, lock := lock }] }).send q

/-- A fibre's access asks for a line that the skein lacks. -/
def State.askFor (s : State) (h : Place) (l : Nat) (own : Bool) : State := (s.noteMiss h l).ask h.skein h.ply l own false

/-- The ply and fibre a spindle runs on. -/
def State.placeOf (s : State) (i : Nat) : Option Place := (s.sp i).host

/-- A line that spindle i of place h needs for a read: the state with the line in its ply, an L1 hit being no access of the L2,
or the state in which the skein asks for it. -/
def State.wantShared (s : State) (h : Place) (l : Nat) (fetch : Bool) : Bool × State :=
  let x := s.skl h.skein l
  if x.held then
    if s.l2Up h.skein h.ply && x.inL1 h.ply h.fibre fetch then (true, s.l1Fill h.skein h.ply h.fibre l fetch)
    else match (s.noteMiss h l).bring h.skein h.ply l with
      | some s1 => (true, s1.l1Fill h.skein h.ply h.fibre l fetch)
      | none => (false, s.modSk h.skein fun z => { z with early := true })
  else (false, s.askFor h l false)

/-- A store to the line would wait: a hold (R185), or a value that the doubling engine has still to send (R178, R205, R526). -/
def SkLine.stalled (x : SkLine) : Bool := x.hold != 0 || x.due

/-- The line is brought to where a write of ply p is performed: its L2, or, while that is draining or disabled, the L3, or,
while that is too, the request's own buffer on its way to the home (R235). None while no way takes it. -/
def State.bringWrite (s : State) (k p l : Nat) : Option State :=
  if s.l2Up k p then s.bring k p l
  else if (s.skl k l).l3 then some s
  else if (s.sk k).l3State = 0 then s.l3Insert k l
  else some (s.modSkl k l fun x => { x with buf := true })

/-- The line is ready for a store of ply p, or the skein asks for ownership. -/
def State.wantOwned (s : State) (h : Place) (l : Nat) : Bool × State :=
  let x := s.skl h.skein l
  if x.held && x.own != .shared then
    if x.stalled then (false, s)
    else match (s.noteMiss h l).bringWrite h.skein h.ply l with
      | some s1 => (true, s1)
      | none => (false, s.modSk h.skein fun z => { z with early := true })
  else (false, s.askFor h l true)

/-- A line that only the request's buffer holds leaves for its home, once no fasten of it is awaited (R183, R235). -/
def State.bufLeave (s : State) (k l : Nat) : State :=
  let x := s.skl k l
  if x.buf && x.l2 == 0 && x.sbh == 0 && !x.l3 && x.fst != .unfastened && x.fst != .closing && !x.due then s.evictLine k l else s

/-- The lines that only requests' buffers hold leave for their homes. -/
def State.bufsLeave (s : State) (k : Nat) : State :=
  foldS (((s.sk k).lines.filter fun e => e.2.buf).map (·.1)) (fun l t => t.bufLeave k l) s

/-- A write of a line that the skein owns, by ply p or a unit of the skein (R182, R215, R216, R243): the value, the
fasten state, MARK_M on the first write of an Exclusive line, and the invalidation of the other copies. While the ply's L2 is
draining or disabled its own copy goes too, the write being performed one level down (R235). -/
def State.writeOwned (s : State) (k p l : Nat) (v : LineVal) : State :=
  let x := s.skl k l
  let up := s.l2Up k p
  let s := foldS ((List.range 20).filter fun q => x.l2.getLsbD q && (q != p || !up)) (fun q t => t.l2Drop k q l) s
  let s := foldS ((List.range 20).filter fun q => x.sbh.getLsbD q && (q != p || !up)) (fun q t => t.sbDrop k q l) s
  let s := if (s.skl k l).l2.getLsbD p then s.l3AfterHit k p l else s
  let loose := (s.sk k).loose
  let s := s.modSkl k l fun y => { y with val := v, fst := if loose then .fastenedDirty else .unfastened, own := .modified,
                                          l1i := y.l1i &&& ~~~(fibreBits p) }
  let s := if x.own = .exclusive && !(s.sk k).cleans l then s.markM k l else s
  let s := if loose ∨ x.fst = .unfastened then s
    else
      let n := (s.sk k).newLines + 1
      s.modSk k fun z => { z with newLines := n, early := z.early || decide (s.param 0x0605 k ≤ n) }
  if up then s else s.bufLeave k l

/-- The value of a line after one retired store. -/
def applyStore (r : StoreRec) (v : LineVal) : LineVal :=
  if r.n = 128 then ⟨r.data, r.tags, false⟩
  else
    let o := r.addr % 128
    if r.isCap then linePutCap v (o / 16) ⟨r.data.setWidth 128, r.tag⟩ else linePut v o r.n r.data.toNat

/-! ### The order of a spindle's accesses (R257 to R260) -/

/-- The kinds of access that the memory order tells apart. -/
inductive Access where
  | load | store | atomic | ucLoad | ucStore
deriving DecidableEq, Repr

/-- The access of an operation in flight that is not yet performed, with its place in the spindle's order. -/
def OpRec.access (r : OpRec) : Option (Nat × Access) :=
  match r.kind with
  | .load _ _ _ _ o => some (o, .load)
  | .atomic _ _ _ _ _ o => some (o, .atomic)
  | .answer _ n _ o => if n = 0 then none else some (o, .ucLoad)
  | _ => none

/-- The serial outputs of a spindle, the pending one first (R187). -/
def Spindle.serials (x : Spindle) : List Serial := x.serial.toList ++ x.serialNext

/-- The pending serial output ends; the next of the bundle takes its place. -/
def Spindle.endSerial (x : Spindle) : Spindle := { x with serial := x.serialNext.head?, serialNext := x.serialNext.drop 1 }

/-- The accesses of a spindle that are not yet performed, with their places in its order. -/
def Spindle.accesses (x : Spindle) : List (Nat × Access) :=
  x.ops.filterMap OpRec.access ++ x.stores.map (fun r => (r.order, Access.store)) ++
    x.serials.filterMap fun q => if q.kind = .ucStore then some (q.order, Access.ucStore) else none

/-- A later access waits for an earlier one: an atomic for every access and every access for it (R257), a load or store for
the loads before it and a store for the stores before it (R258), an uncached access for every store before it (R260). -/
def Access.follows (later earlier : Access) : Bool :=
  match earlier, later with
  | .atomic, _ => true
  | _, .atomic => true
  | .load, .load => true
  | .load, .store => true
  | .store, .store => true
  | .store, .ucLoad => true
  | .store, .ucStore => true
  | .ucStore, .ucLoad => true
  | .ucStore, .ucStore => true
  | _, _ => false

/-- Every access of the spindle before place o is performed (R259). -/
def Spindle.performedTo (x : Spindle) (o : Nat) : Bool := !x.accesses.any fun e => decide (e.1 < o)

/-- An access at place o may be performed: no earlier one that it follows is open, and no fence before it waits (R257 to
R260). -/
def Spindle.mayPerform (x : Spindle) (a : Access) (o : Nat) : Bool :=
  !(x.accesses.any fun e => decide (e.1 < o) && a.follows e.2) &&
  !(x.ops.any fun r => match r.kind with
    | .fence f _ => decide (f < o) && !x.performedTo f
    | _ => false)

/-- The oldest retired store of spindle i performed, when its line allows it; none when it must wait, with the state in
which the skein asks for the line. -/
def State.drainOne (s : State) (i : Nat) : Bool × State :=
  let x := s.sp i
  match x.host, x.stores with
  | some h, r :: rest =>
    if !x.mayPerform .store r.order then (false, s)
    else
      let l := lineOf r.addr
      match s.wantOwned h l with
      | (true, s1) =>
        let s2 := s1.writeOwned h.skein h.ply l (applyStore r (s1.skl h.skein l).val)
        (true, s2.modSp i fun y => { y with stores := rest })
      | (false, s1) => (false, s1)
  | _, _ => (false, s)

/-- The retired stores of spindle i performed in order as far as their lines allow (R145, R258). -/
def State.drainN : Nat → Nat → State → State
  | 0, _, s => s
  | n + 1, i, s => match s.drainOne i with
    | (true, s1) => State.drainN n i s1
    | (false, s1) => s1
/-- All of them. -/
def State.drain (s : State) (i : Nat) : State := State.drainN (s.sp i).stores.length i s
/-- The retired stores of every spindle that the skein hosts. -/
def State.drainSkein (s : State) (k : Nat) : State := foldS (s.hosted k) (fun i t => t.drain i) s

end Sys2Proof.Machine
end

