-- ==== Sys2Proof/Machine/Epoch.lean ====
section
/-!
DEFINITION. The epoch tick and the start of a barrier (R175, R176, R180, R189, R205), with the lengths that parameters give in
cycles as ticks of the timebase (R268, R476).
-/

namespace Sys2Proof.Machine

/-- The clock of a frequency step in tenths of a GHz (R476). -/
def stepClock (n : Nat) : Nat := ([8, 16, 22, 28, 32, 36, 38, 40, 42][n]?).getD 8
/-- Ply cycles at a step, in ticks of 1 ns, rounded up (log 93). -/
def plyTicks (step cycles : Nat) : Nat := (10 * cycles + stepClock step - 1) / stepClock step
/-- Fabric cycles of 0.4 ns in ticks, rounded up (R268; log 93). -/
def fabricTicks (cycles : Nat) : Nat := (2 * cycles + 4) / 5

/-- The highest step held by a hosting ply of skein k (R175). -/
def State.topStep (s : State) (k : Nat) : Nat :=
  (List.range 20).foldl (fun m p => let y := s.ply k p; if y.state = 0 ∧ y.step < 9 then max m y.step else m) 0

/-- The epoch count of skein k has expired (R175). -/
def State.epochOver (s : State) (k : Nat) : Bool :=
  decide ((s.sk k).barrierAt + plyTicks (s.topStep k) (s.sk k).epochCycles ≤ s.time)

/-- A solo skein whose buddy is admitted again enters the pairing state with it; both hold no doubled state (R205). -/
def State.enterPairing (s : State) (k : Nat) : State :=
  let b := buddyOf k
  let both := (!(s.sk k).returned || (s.sk b).returned) && (s.sk b).closingEpoch == 0
  if (s.sk k).pair = 1 ∧ s.skeinUp b ∧ !(s.sk b).loose ∧ !(s.sk b).toHub ∧ !(s.sk k).toHub ∧ both then
    (s.modSk k fun z => { z with pair := 2, pairFirst := false, returned := false, dbl := [], imgC := [], imgP := [] }).modSk b fun z =>
      { z with pair := 2, pairFirst := false, returned := false, dbl := [], imgC := [], imgP := [] }
  else s

/-- A barrier begins (R175, R176): the fibres stop, the epoch count starts again under the committed length, and released stores
are written as far as their lines allow. -/
def State.beginBarrier (s : State) (k : Nat) : State :=
  let s1 := s.enterPairing k
  (s1.modSk k fun z => { z with
      inBarrier := true, barrierAt := s.time, epochCycles := s.param 0x0600 k, tickHeld := false, gather := none, early := false,
      forced := if z.early || z.gather.isSome then satBits 64 (z.forced + 1) else z.forced }).drainSkein k

/-- An epoch tick (R175, R180): a barrier begins, or the tick is held while a fasten is doubling. -/
def State.epochTick (s : State) (k : Nat) : State :=
  let z := s.sk k
  if !s.running ∨ !s.skeinUp k ∨ z.loose ∨ z.inBarrier ∨ z.resvClean then s
  else if z.closingEpoch ≠ 0 then s.modSk k fun z => { z with tickHeld := true }
  else s.beginBarrier k

/-- An early fasten is requested, and raises the tick at once (R175, R183, R184, R190); a barrier under way serves it. -/
def State.requestFasten (s : State) (k : Nat) : State :=
  if (s.sk k).loose || (s.sk k).inBarrier then s else (s.modSk k fun z => { z with early := true }).epochTick k

/-- A spindle's oldest store or an atomic of it waits for the line. -/
def Spindle.writeWaits (x : Spindle) (l : Nat) : Bool :=
  (x.stores.head?.any fun r => lineOf r.addr == l) || x.ops.any fun r => match r.kind with
    | .atomic _ a _ _ _ _ => lineOf a == l
    | _ => false

end Sys2Proof.Machine
end

