-- ==== Sys2Proof/Machine/Cap.lean ====
section
/-!
DEFINITION. Capabilities: their fields (R109), permissions (R111), the authority check (R112), and the operations of the
capability unit (R116), which answer a result or a fault cause.
-/

namespace Sys2Proof.Machine

/-- BASE (R109). -/
def capBase (c : Cap) : Nat := bits c.bits.toNat 0 52
/-- LENGTH. -/
def capLen (c : Cap) : Nat := bits c.bits.toNat 52 44
/-- PERMS. -/
def capPerms (c : Cap) : Nat := bits c.bits.toNat 96 16
/-- OTYPE. -/
def capOtype (c : Cap) : Nat := bits c.bits.toNat 112 12
/-- KIND: 0 memory, 1 sealed, 2 entry, 3 system. -/
def capKind (c : Cap) : Nat := bits c.bits.toNat 124 4
/-- A capability with the fields given. -/
def mkCap (base len perms otype kind : Nat) (tag : Bool) : Cap :=
  ⟨BitVec.ofNat 128 (base % 2 ^ 52 + len % 2 ^ 44 * 2 ^ 52 + perms % 2 ^ 16 * 2 ^ 96 + otype % 2 ^ 12 * 2 ^ 112 +
    kind % 16 * 2 ^ 124), tag⟩

/-- Permission bit numbers (R111). -/
def pLOAD : Nat := 0
/-- STORE. -/
def pSTORE : Nat := 1
/-- EXEC. -/
def pEXEC : Nat := 2
/-- LOADCAP. -/
def pLOADCAP : Nat := 3
/-- STORECAP. -/
def pSTORECAP : Nat := 4
/-- SEAL. -/
def pSEAL : Nat := 5
/-- UNSEAL. -/
def pUNSEAL : Nat := 6
/-- DISCARD. -/
def pDISCARD : Nat := 7
/-- LOCK. -/
def pLOCK : Nat := 8
/-- SYSTEM. -/
def pSYSTEM : Nat := 9
/-- GLOBAL. -/
def pGLOBAL : Nat := 10
/-- FREEZE. -/
def pFREEZE : Nat := 11

/-- The capability holds permission k. -/
def capHas (c : Cap) (k : Nat) : Bool := bitAt (capPerms c) k
/-- The capability holds every permission of the list. -/
def capHasAll (c : Cap) (ks : List Nat) : Bool := ks.all (capHas c)
/-- A tagged memory capability. -/
def capMem (c : Cap) : Bool := c.tag && capKind c == 0
/-- The capability covers the n bytes from x. -/
def capCovers (c : Cap) (x n : Nat) : Bool := decide (capBase c ≤ x) && decide (x + n ≤ capBase c + capLen c)
/-- Every tagged capability is well formed (R110). -/
def capWf (c : Cap) : Bool :=
  !c.tag || (decide (capKind c ≤ 3) && decide (capPerms c < 2 ^ 12) && decide (capBase c + capLen c ≤ 2 ^ 52))

/-- The failing cause of a use of a memory capability, the lowest code first (R78, R120): none when authorised. -/
def capUse (c : Cap) (x n : Nat) (ks : List Nat) : Option Nat :=
  if !c.tag then some 0x01
  else if capKind c ≠ 0 then some 0x02
  else if !capCovers c x n then some 0x03
  else if !capHasAll c ks then some 0x04
  else none

/-- A number as an untagged 128-bit value. -/
def capNum (x : Nat) : Cap := ⟨BitVec.ofNat 128 x, false⟩

/-- NARROW (R116). -/
def capNarrow (a : Cap) (b : BitVec 128) : Except Nat Cap :=
  let nb := bits b.toNat 0 52
  let nl := bits b.toNat 52 44
  if !a.tag then .error 0x01
  else if capKind a ≠ 0 then .error 0x02
  else if nb < capBase a ∨ capBase a + capLen a < nb + nl then .error 0x07
  else .ok (mkCap nb nl (capPerms a) (capOtype a) 0 true)
/-- PDROP (R116). -/
def capPdrop (a : Cap) (b : BitVec 128) : Except Nat Cap :=
  if !a.tag then .error 0x01
  else if capKind a ≠ 0 ∧ capKind a ≠ 3 then .error 0x02
  else
    let p := capPerms a &&& bits b.toNat 0 16
    let keep := capKind a = 3 ∨ bitAt p pSEAL ∨ bitAt p pUNSEAL
    .ok (mkCap (capBase a) (capLen a) p (if keep then capOtype a else 0) (capKind a) true)
/-- WRAP (R116). -/
def capWrap (a b : Cap) : Except Nat Cap :=
  if !a.tag || !b.tag then .error 0x01
  else if capKind a ≠ 0 ∨ capOtype a ≠ 0 ∨ capKind b ≠ 0 then .error 0x02
  else if !capHas b pSEAL || capOtype b == 0 then .error 0x04
  else .ok (mkCap (capBase a) (capLen a) (capPerms a) (capOtype b) 1 true)
/-- UNWRAP (R116): GLOBAL is kept only when both hold it. -/
def capUnwrap (a b : Cap) : Except Nat Cap :=
  if !a.tag || !b.tag then .error 0x01
  else if capKind a ≠ 1 ∨ capKind b ≠ 0 then .error 0x02
  else if !capHas b pUNSEAL then .error 0x04
  else if capOtype b ≠ capOtype a then .error 0x08
  else
    let p := if capHas a pGLOBAL && !capHas b pGLOBAL then capPerms a - 2 ^ pGLOBAL else capPerms a
    .ok (mkCap (capBase a) (capLen a) p 0 0 true)
/-- TAGQ. -/
def capTagq (a : Cap) : Cap := capNum (b2n a.tag)
/-- BASEQ. -/
def capBaseq (a : Cap) : Cap := capNum (capBase a)
/-- LENQ. -/
def capLenq (a : Cap) : Cap := capNum (capLen a)
/-- INFOQ: PERMS, OTYPE, KIND and tag. -/
def capInfoq (a : Cap) : Cap :=
  capNum (capPerms a + capOtype a * 2 ^ 16 + capKind a * 2 ^ 28 + b2n a.tag * 2 ^ 32)
/-- UNTAG. -/
def capUntag (a : Cap) : Cap := ⟨a.bits, false⟩
/-- MKENTRY (R116). -/
def capMkentry (a : Cap) (b : BitVec 128) : Except Nat Cap :=
  let off := bits b.toNat 0 12
  if !a.tag then .error 0x01
  else if capKind a ≠ 0 then .error 0x02
  else if !capHas a pEXEC then .error 0x04
  else if capLen a ≤ 16 * off then .error 0x09
  else .ok (mkCap (capBase a) (capLen a) (capPerms a) off 2 true)
/-- AUTHQ: 1 when a would authorise the access that b describes (R112, R116). -/
def capAuthq (a : Cap) (b : BitVec 128) : Cap :=
  let x := b.toNat
  let want := bits x 96 16
  capNum (b2n (capMem a && capCovers a (bits x 0 52) (bits x 64 20) && (capPerms a &&& want) == want))

/-- A trigger of the capability unit by socket number: the result, or the cause of its capability fault. -/
def capOp (t : Nat) (a b : Cap) : Except Nat Cap :=
  match t with
  | 4 => capNarrow a b.bits | 5 => capPdrop a b.bits | 6 => capWrap a b | 7 => capUnwrap a b
  | 8 => .ok (capTagq a) | 9 => .ok (capBaseq a) | 10 => .ok (capLenq a) | 11 => .ok (capInfoq a)
  | 12 => .ok (capUntag a) | 13 => capMkentry a b.bits | _ => .ok (capAuthq a b.bits)

/-- An entry capability converted as a transfer through it converts it: KIND memory, OTYPE 0 (R117). -/
def capEnter (c : Cap) : Cap := mkCap (capBase c) (capLen c) (capPerms c) 0 0 true

/-- The transfer of JCAP and CALLCAP through c with operand a: the target bundle and the new CODECAP, or the cause (R117). -/
def capTarget (c : Cap) (a : Word) : Except Nat (Nat × Cap) :=
  if !c.tag then .error 0x01
  else if capKind c = 0 then
    let t := capBase c + 16 * a.toNat
    if capBase c + capLen c < t + 16 then .error 0x03
    else if !capHas c pEXEC then .error 0x04
    else .ok (t, c)
  else if capKind c = 2 then
    if !capHas c pEXEC then .error 0x04 else .ok (capBase c + 16 * capOtype c, capEnter c)
  else .error 0x02

/-- The return offset of a link: (BA + 16 - CODECAP base) / 16 (R68, R118). -/
def linkOf (ba : Word) (codecap : Cap) : Nat := ((ba.toNat + 16 + 2 ^ 64 - capBase codecap) % 2 ^ 64) / 16

end Sys2Proof.Machine
end

