-- ==== Sys2Proof/Machine/Operands.lean ====
section
/-!
DEFINITION. The operand forms of the move architecture: sockets and their widths (R55 to R59), the fields of a slot and
of a bundle (R42 to R49, R523), the modifier fields (R64, R525), and reading and writing a socket.
-/

namespace Sys2Proof.Machine

/-- What a socket number names (R55). A unit's socket has a role: 0 operand 0, 1 operand 1, 2 result, 3 status, 4 to 15
triggers (R58). -/
inductive Sock where
  | g (k : Nat) | c (k : Nat) | p (k : Nat) | special (n : Nat) | unit (u role : Nat) | reserved
deriving DecidableEq, Repr

/-- The number of triggers of a unit, listed from socket 4 upward (R63). -/
def trigCount (u : Nat) : Nat :=
  if u < 4 then 12 else if 80 ≤ u then 12
  else match u with
    | 4 => 4 | 5 => 4 | 6 => 12 | 7 => 12 | 8 => 12 | 9 => 10 | 10 => 12 | 11 => 12 | 12 => 6 | 13 => 2 | 14 => 11
    | 15 => 9 | 16 => 11 | 17 => 2 | 18 => 3 | 19 => 3 | _ => 0

/-- The special sockets (R56). -/
def specialKnown (n : Nat) : Bool := between 0x150 0x157 n || between 0x160 0x16C n
/-- Special sockets that are read only: CODECAP, BA, SPINDLE. -/
def specialRO (n : Nat) : Bool := n == 0x153 || n == 0x154 || n == 0x157
/-- Special sockets that need SYSTEM in CODECAP: TSB, TDT, EVENT_BASE, IMASK. -/
def specialSystem (n : Nat) : Bool := between 0x150 0x152 n || n == 0x156

/-- The meaning of a socket number (R55, R63). -/
def sockOf (n : Nat) : Sock :=
  if n < 0x100 then .g n
  else if n < 0x140 then .c (n - 0x100)
  else if n < 0x150 then .p (n - 0x140)
  else if n < 0x200 then (if specialKnown n then .special n else .reserved)
  else
    let u := if n < 0x340 then (n - 0x200) / 16 else (n - 0x700) / 16 + 80
    let r := n % 16
    if between 0x340 0x6FF n then .reserved
    else if r < 4 + trigCount u then .unit u r else .reserved

/-- The data width of a socket (R59). -/
inductive Width where
  | one | w64 | w128 | cap
deriving DecidableEq, Repr

/-- The width of a unit's socket; a trigger has the width of operand 0 (R58, R59). -/
def unitWidth (u role : Nat) : Width :=
  let r := if 4 ≤ role then 0 else role
  if (u = 10 ∨ u = 11 ∨ u = 12 ∨ u = 14) ∧ (r = 1 ∨ r = 2) then .cap
  else if u = 14 ∧ r = 0 then .cap
  else if (u = 18 ∨ u = 19) ∧ r = 1 then .cap
  else if u = 4 ∧ r = 2 then .w128
  else if (u = 6 ∨ u = 7 ∨ u = 8) ∧ r ≤ 2 then .w128
  else if u = 16 ∧ r ≤ 1 then .w128
  else if 80 ≤ u ∧ r ≤ 2 then .w128
  else .w64

/-- The width of a socket (R55, R56, R59). -/
def sockWidth : Sock → Width
  | .g _ => .w64
  | .c _ => .cap
  | .p _ => .one
  | .special n => if n ≤ 0x153 then .cap else .w64
  | .unit u r => unitWidth u r
  | .reserved => .w64

/-- A unit's trigger socket. -/
def Sock.isTrigger : Sock → Bool
  | .unit _ r => decide (4 ≤ r)
  | _ => false
/-- A general register. -/
def Sock.isG : Sock → Bool
  | .g _ => true
  | _ => false

/-- A move of a bundle: its slot and the fields of the slot (R45, R46). -/
structure Move where
  slot  : Nat := 0
  guard : Nat := 0
  neg   : Bool := false
  imm   : Bool := false
  dst   : Nat := 0
  src   : Nat := 0
  pair  : Bool := false
  mod   : Nat := 0
  immV  : Nat := 0
deriving DecidableEq, Repr

/-- The 42 bits of slot k of a bundle (R42). -/
def slotBits (b k : Nat) : Nat := bits b (42 * k) 42

/-- The fields of a slot (R45, R46): in the immediate form the guard sense, PAIR and the modifier are zero. -/
def decodeSlot (k v : Nat) : Move :=
  if bitAt v 37 then
    { slot := k, guard := bits v 38 4, imm := true, dst := bits v 26 11, immV := bits v 0 26 }
  else
    { slot := k, guard := bits v 38 4, neg := bitAt v 14, dst := bits v 26 11, src := bits v 15 11, pair := bitAt v 13,
      mod := bits v 0 13 }

/-- The 42 bits of a move, from the same table (R45). -/
def encodeSlot (m : Move) : Nat :=
  if m.imm then m.guard * 2 ^ 38 + 2 ^ 37 + m.dst * 2 ^ 26 + m.immV
  else m.guard * 2 ^ 38 + m.dst * 2 ^ 26 + m.src * 2 ^ 15 + b2n m.neg * 2 ^ 14 + b2n m.pair * 2 ^ 13 + m.mod

/-- The KIND of a bundle (R42, R44). -/
def bundleKind (b : Nat) : Nat := bits b 126 2

/-- A bundle of three slots and a KIND. -/
def encodeBundle (kind v0 v1 v2 : Nat) : Nat := v0 + v1 * 2 ^ 42 + v2 * 2 ^ 84 + kind * 2 ^ 126

/-- The slots of a bundle that hold moves: all three in a normal bundle, slot 0 in the others; a slot of zeros is a
no-operation slot and performs no move (R44, R523). -/
def bundleMoves (b : Nat) : List Move :=
  let ks := if bundleKind b = 0 ∨ bundleKind b = 3 then [0, 1, 2] else [0]
  ks.filterMap fun k => if slotBits b k = 0 then none else some (decodeSlot k (slotBits b k))

/-- The 64-bit immediate of a long-immediate bundle (R49). -/
def longImm (b : Nat) : Option Word :=
  if bundleKind b = 1 then some (BitVec.ofNat 64 (slotBits b 1 + bits (slotBits b 2) 0 22 * 2 ^ 42)) else none

/-- The 84 opaque bits of a coprocessor bundle (R73). -/
def opaqueBits (b : Nat) : Nat := bits b 42 84

/-- A modifier field of a unit's trigger that the operation defines, with a mask of its bits, and the reserved
encodings it must not hold (R64, R92, R225, R525): true when the modifier is misused. -/
def modMisuse (u sock m : Nat) : Bool :=
  if m = 0 then false
  else
    let fields : Nat × Bool :=
      if u = 6 ∨ u = 7 then
        (0x3F + (if sock = 12 then 0xC0 else 0) + (if sock = 10 ∨ sock = 11 then 0x100 else 0),
         bits m 0 2 = 3 || decide (8 ≤ bits m 2 4) || (sock = 12 && bits m 6 2 = 3))
      else if u = 8 then (0x3F, decide (2 ≤ bits m 0 2) || decide (8 ≤ bits m 2 4))
      else if u = 10 ∨ u = 11 then
        (0x3F + (if sock = 13 ∨ sock = 15 then 0x1C0 else 0) + (if sock = 15 then 0xE00 else 0),
         (decide (sock = 13 ∨ sock = 15) && decide (5 ≤ bits m 6 3)) || (sock = 15 && decide (5 ≤ bits m 9 3)))
      else if u = 12 then (if sock = 8 ∨ sock = 9 then 0x3F else 0, false)
      else if u = 15 then (if sock = 11 then 0xF else 0, sock = 11 && decide (6 ≤ bits m 0 4))
      else if u = 16 then (0xF + (if between 10 13 sock then 0x30 else 0), false)
      else if between 17 19 u then (0xFFF, false)
      else if 80 ≤ u then (0x1FFF, false)
      else (0, false)
    fields.2 || m &&& (0x1FFF ^^^ fields.1) != 0

/-- A long operation's trigger (R72). -/
def longTrigger (u sock : Nat) : Bool :=
  (between 17 19 u && (sock == 4 || sock == 5)) || (u == 8 && sock == 14)

/-- A sync point's trigger (R103). -/
def syncTrigger (u sock : Nat) : Bool :=
  (u == 15 && between 4 7 sock) || (u == 12 && (sock == 8 || sock == 9))

/-- PAIR misused (R48): the general register must stand on exactly one side, be even, and meet a 128-bit or
capability-wide socket. The immediate of a long-immediate bundle is no socket. -/
def pairMisuse (m : Move) (long : Bool) : Bool :=
  if !m.pair then false
  else
    let d := sockOf m.dst
    let sg := !long && (sockOf m.src).isG
    if d.isG == sg then true
    else
      let reg := if d.isG then m.dst else m.src
      let other := if d.isG then (if long then Width.w64 else sockWidth (sockOf m.src)) else sockWidth d
      reg % 2 == 1 || !(other == .cap || other == .w128)

/-- The causes one move raises by its encoding alone (R77). -/
def moveCauses (m : Move) (long : Bool) : List Nat :=
  let d := sockOf m.dst
  let sr := sockOf m.src
  (if d = .reserved then [2] else []) ++
  (if !m.imm && !long then (if m.src < 0x340 ∧ 0x200 ≤ m.src ∧ 4 ≤ m.src % 16 then [4]
    else if sr = .reserved then [3] else if sr.isTrigger then [4] else []) else []) ++
  (match d with | .special n => if specialRO n then [5] else [] | _ => []) ++
  (if m.mod != 0 then (match d with
    | .unit u r => if decide (4 ≤ r) && !modMisuse u r m.mod then [] else [8]
    | _ => [8]) else []) ++
  (if pairMisuse m long then [9] else [])

/-- Two moves of one destination that R51 allows. -/
def complementary (a b : Move) : Bool := !a.imm && !b.imm && a.guard == b.guard && a.neg != b.neg

/-- The unit and trigger socket of a move whose destination is a trigger. -/
def Move.trigger (m : Move) : Option (Nat × Nat) :=
  match sockOf m.dst with
  | .unit u r => if 4 ≤ r then some (u, r) else none
  | _ => none

/-- The causes that a move raises together with the earlier moves of its bundle: a repeated destination (R51) or a
barred combination of triggers (R52). -/
def jointCauses (earlier : List Move) (m : Move) : List Nat :=
  (if earlier.any fun e => e.dst == m.dst && !complementary e m then [6] else []) ++
  (match m.trigger with
    | none => []
    | some (u, r) =>
      let tr := earlier.filterMap Move.trigger
      let same := tr.any fun t => t.1 == u
      let longs := longTrigger u r && tr.any fun t => longTrigger t.1 t.2
      let loopCtl := (u == 12 && tr.any fun t => t == (13, 4)) || (u == 13 && r == 4 && tr.any fun t => t.1 == 12)
      if same || longs || loopCtl then [7] else [])

/-- The pairs of slot and cause of a list of moves, each against the earlier ones (R78). -/
def causesFrom (long : Bool) : List Move → List Move → List (Nat × Nat)
  | _, [] => []
  | earlier, m :: rest =>
    (moveCauses m long ++ jointCauses earlier m).map (fun c => (m.slot, c)) ++ causesFrom long (earlier ++ [m]) rest

/-- The first in the precedence of R78: the lowest slot, then the lowest cause. -/
def leastCause (xs : List (Nat × Nat)) : Option (Nat × Nat) :=
  xs.foldl (fun best x => match best with
    | none => some x
    | some b => if x.1 < b.1 ∨ (x.1 = b.1 ∧ x.2 < b.2) then some x else some b) none

/-- The slot and cause of the illegal-bundle event that a bundle raises, by its encoding alone (R77, R78). DESIGN CHOICE
(log 91): cause 0x01, which is a breach of the whole bundle, is reported against slot 0. -/
def illegalOf (b : Nat) : Option (Nat × Nat) :=
  let k := bundleKind b
  let ms := bundleMoves b
  let s0 := slotBits b 0
  leastCause
    ((if k = 3 then [(0, 1)] else []) ++
     (if k = 1 then
        (if s0 ≠ 0 ∧ (bitAt s0 37 ∨ bits s0 15 11 ≠ 0) then [(0, 0xA)]
         else if bits (slotBits b 2) 22 20 ≠ 0 then [(2, 0xA)] else [])
      else []) ++
     (if k = 2 then
        (match (decodeSlot 0 s0).trigger with
          | some (u, _) => if 80 ≤ u then [] else [(0, 0xB)]
          | none => [(0, 0xB)])
      else []) ++
     causesFrom (k == 1) [] ms)

/-- A 26-bit immediate sign-extended to 128 bits (R46). -/
def immValue (v : Nat) : BitVec 128 := BitVec.ofInt 128 (signedOf 26 v)

/-- A value delivered to a socket of a width (R54, R59): the tag goes from a capability-wide socket to another only. -/
def convertTo (w : Width) (fromCap : Bool) (v : Cap) : Cap :=
  match w with
  | .one => ⟨v.bits &&& 1, false⟩
  | .w64 => ⟨(v.bits.setWidth 64).setWidth 128, false⟩
  | .w128 => ⟨v.bits, false⟩
  | .cap => ⟨v.bits, v.tag && fromCap⟩

/-- A 64-bit value as a socket value. -/
def ofWord (w : Word) : Cap := ⟨w.setWidth 128, false⟩
/-- The low 64 bits of a socket value. -/
def Cap64 (c : Cap) : Word := c.bits.setWidth 64

/-- The MODE word a spindle reads (R57): PRECISE, CONST_TIME, and SPLIT and LOOSE of its host. -/
def State.modeWord (s : State) (x : Spindle) : Word :=
  let h := match x.host with
    | some h => b2n (s.sk h.skein).split * 4 + b2n (s.sk h.skein).loose * 8
    | none => 0
  BitVec.ofNat 64 (b2n x.arch.precise + b2n x.arch.constTime * 2 + h)

/-- The SPINDLE word (R57). -/
def State.spindleWord (s : State) (i : Nat) : Word :=
  BitVec.ofNat 64 (i + ((s.partOf i).getD 0) * 2 ^ 16)

/-- The value of a special socket (R56). -/
def State.readSpecial (s : State) (i : Nat) (x : Spindle) (n : Nat) : Cap :=
  let a := x.arch
  if n = 0x150 then x.tsb else if n = 0x151 then x.tdt else if n = 0x152 then x.eventBase
  else if n = 0x153 then a.codecap else if n = 0x154 then ofWord x.ba
  else if n = 0x155 then ofWord (s.modeWord x) else if n = 0x156 then ofWord a.imask
  else if n = 0x157 then ofWord (s.spindleWord i)
  else if n = 0x16C then ofWord (BitVec.ofNat 64 a.loopDepth)
  else
    let k := (n - 0x160) / 3
    if (n - 0x160) % 3 = 0 then ofWord (tget 0 a.loopStart k)
    else if (n - 0x160) % 3 = 1 then ofWord (tget 0 a.loopEnd k) else ofWord (tget 0 a.loopCount k)

/-- The value of a socket, as wide as the socket is (R55 to R58). -/
def State.readSock (s : State) (i : Nat) (x : Spindle) : Sock → Cap
  | .g k => ofWord (x.arch.getG k)
  | .c k => x.arch.getC k
  | .p k => ⟨BitVec.ofNat 128 (b2n (x.arch.p.getLsbD k)), false⟩
  | .special n => s.readSpecial i x n
  | .unit u 0 => (x.arch.unit u).o0
  | .unit u 1 => (x.arch.unit u).o1
  | .unit u 2 => (x.arch.unit u).r
  | .unit u 3 => ofWord (x.arch.unit u).st
  | .unit _ _ => Cap.zero
  | .reserved => Cap.zero

/-- The RW fields of a unit's status socket (R65). -/
def statusMask (u : Nat) : Word :=
  if u < 5 then 2 else if u = 5 then 3 else if u = 6 ∨ u = 7 then 0xF1F1F else if u = 8 then 0xF3F3F
  else if 80 ≤ u then 1 else 0

/-- A write of IMASK: THRESHOLD and NOTICE (R132). -/
def imaskWrite (old v : Word) : Word := (old &&& ~~~(0x11F : Word)) ||| (v &&& 0x11F)

/-- A write of a special socket (R56, R57, R71, R132): a value above 4 leaves LOOP_DEPTH unchanged, and a move to TSB
clears TSB_BUSY. -/
def Spindle.writeSpecial (x : Spindle) (n : Nat) (v : Cap) : Spindle :=
  let w := Cap64 v
  if n = 0x150 then { x with tsb := v, arch := { x.arch with imask := x.arch.imask &&& ~~~(0x10000 : Word) } }
  else if n = 0x151 then { x with tdt := v }
  else if n = 0x152 then { x with eventBase := v }
  else if n = 0x155 then x.modArch fun a => { a with precise := w.getLsbD 0, constTime := w.getLsbD 1 }
  else if n = 0x156 then x.modArch fun a => { a with imask := imaskWrite a.imask w }
  else if n = 0x16C then x.modArch fun a => if w.toNat ≤ 4 then { a with loopDepth := w.toNat } else a
  else if between 0x160 0x16B n then
    let k := (n - 0x160) / 3
    x.modArch fun a =>
      if (n - 0x160) % 3 = 0 then { a with loopStart := tset 0 a.loopStart k w }
      else if (n - 0x160) % 3 = 1 then { a with loopEnd := tset 0 a.loopEnd k w }
      else { a with loopCount := tset 0 a.loopCount k w }
  else x

/-- A write of a socket that is no trigger, the value already as wide as the socket (R54, R58, R61, R62): p0 discards
it, a status socket takes its RW fields, a result socket of a load/store unit takes the marker of the new value. -/
def Spindle.writeSock (x : Spindle) (t : Sock) (v : Cap) : Spindle :=
  match t with
  | .g k => x.modArch fun a => { a with g := tset 0 a.g k (Cap64 v) }
  | .c k => x.modArch fun a => { a with c := tset Cap.zero a.c k v }
  | .p k => x.modArch fun a =>
      if k = 0 then a
      else { a with p := (a.p &&& ~~~(BitVec.ofNat 16 (2 ^ k))) ||| BitVec.ofNat 16 (b2n (v.bits.getLsbD 0) * 2 ^ k) }
  | .special n => x.writeSpecial n v
  | .unit u r => x.modArch fun a => a.modUnit u fun w =>
      match r with
      | 0 => { w with o0 := v }
      | 1 => { w with o1 := v }
      | 2 => { w with r := v, poison := none }
      | 3 => { w with st := (w.st &&& ~~~(statusMask u)) ||| (Cap64 v &&& statusMask u) }
      | _ => w
  | .reserved => x

/-- A write of a pair of general registers g(2k) and g(2k+1) (R48). -/
def Spindle.writePair (x : Spindle) (k : Nat) (v : Cap) : Spindle :=
  x.modArch fun a => { a with g := tset 0 (tset 0 a.g k (Cap64 v)) (k + 1) ((v.bits >>> 64).setWidth 64) }

end Sys2Proof.Machine
end

