-- ==== Sys2Proof/Machine/Events.lean ====
section
/-!
DEFINITION. Taking an event and returning from one: the image of the task-state block (R122), delivery through a
descriptor (R123 to R127), entry to a hardware event (R128, R129), the TSB fault and the double event (R142, R143), and
the restore that ERET makes (R138, R140).
-/

namespace Sys2Proof.Machine

/-- FAULT_INFO (R120). -/
def faultInfo (cause slot unit : Nat) (fetch : Bool) : Word :=
  BitVec.ofNat 64 (cause % 256 + slot % 4 * 2 ^ 8 + unit % 128 * 2 ^ 10 + b2n fetch * 2 ^ 17)

/-- UNIT when no unit is involved (R120). -/
def noUnit : Nat := 0x7F

/-- What an event brings with it besides its index: SAVED_BA, FAULT_ADDR, FAULT_INFO, the arithmetic words when it is an
arithmetic event, whether that event is the pending imprecise record, and whether a long operation is interrupted. -/
structure EvInfo where
  ba     : Word
  fa     : Word := 0
  fi     : Word := 0
  arith  : Option (Word × Word) := none
  isPend : Bool := false
  isPrec : Bool := false
  resume : Bool := false
deriving DecidableEq, Repr

/-- The state that an event saves (R122): a precise arithmetic event passed over is saved with PRECISE_PENDING (R137),
the pending record leaves with the state unless it is the event (R126). -/
def Spindle.image (x : Spindle) (code : Nat) (e : EvInfo) : Saved :=
  let passed := if e.isPrec then none else x.precPend
  let ar := match e.arith with
    | some p => some p
    | none => passed
  { arch := { x.arch with pendBa := if e.isPend then 0 else x.arch.pendBa,
                          pendInfo := if e.isPend then 0 else x.arch.pendInfo,
                          progress := if e.resume then x.arch.progress else {} },
    eventCode := BitVec.ofNat 64 code, savedBa := e.ba,
    flags := BitVec.ofNat 64 (b2n e.resume + b2n passed.isSome * 2),
    faultAddr := e.fa, faultInfo := e.fi,
    arithBa := (ar.map (·.1)).getD 0, arithInfo := (ar.map (·.2)).getD 0 }

/-- Two words of one granule. -/
def wordPair (lo hi : Word) : Cap := ⟨hi ++ lo, false⟩

/-- The poison word of units 10 and 11 (R122, R130). -/
def poisonWord : Option Nat → Word
  | some l => BitVec.ofNat 64 (2 ^ 63 + 128 * l)
  | none => 0

/-- Granule g of the TSB image of a saved state, with its tag; mode is the MODE word as it is read (R122, R139). -/
def Saved.granule (v : Saved) (mode : Word) (g : Nat) : Cap :=
  let a := v.arch
  let lp (j : Nat) : Word :=
    match j % 3 with | 0 => tget 0 a.loopStart (j / 3) | 1 => tget 0 a.loopEnd (j / 3) | _ => tget 0 a.loopCount (j / 3)
  if g < 8 then
    match g with
    | 0 => wordPair v.eventCode v.savedBa
    | 1 => wordPair v.flags v.faultAddr
    | 2 => wordPair v.faultInfo v.arithBa
    | 3 => wordPair v.arithInfo a.pendBa
    | 4 => wordPair a.pendInfo mode
    | 5 => wordPair a.imask (a.p.setWidth 64 ||| 1)
    | 6 => wordPair (BitVec.ofNat 64 a.loopDepth) a.deadline
    | _ => Cap.zero
  else if g < 14 then wordPair (lp (2 * (g - 8))) (lp (2 * (g - 8) + 1))
  else if g = 16 then a.codecap
  else if between 32 95 g then a.getC (g - 32)
  else if between 96 223 g then wordPair (a.getG (2 * (g - 96))) (a.getG (2 * (g - 96) + 1))
  else if between 224 303 g then
    let u := a.unit ((g - 224) / 4)
    match (g - 224) % 4 with | 0 => u.o0 | 1 => u.o1 | 2 => u.r | _ => wordPair u.st (poisonWord u.poison)
  else if between 304 335 g then
    let u := a.unit (80 + (g - 304) / 2)
    if g % 2 = 0 then u.o0 else u.o1
  else if g = 336 then wordPair (BitVec.ofNat 64 a.progress.unit) (BitVec.ofNat 64 a.progress.done)
  else if g = 337 then wordPair (BitVec.ofNat 64 a.progress.remain) a.progress.ctx
  else if g = 338 then a.progress.src
  else if g = 339 then a.progress.dst
  else if between 340 351 g then ⟨(a.progress.ustate >>> (128 * (g - 340))).setWidth 128, false⟩
  else Cap.zero

/-- A line of eight granules. -/
def lineOfGranules (f : Nat → Cap) : LineVal :=
  (List.range 8).foldl (fun v g => linePutCap v g (f g)) LineVal.zero

/-- A unit socket's value as a restore delivers it: only capability-wide sockets keep a tag (R59). -/
def fitWidth (u role : Nat) (v : Cap) : Cap := convertTo (unitWidth u role) true v

/-- Every defined field of a unit's status socket (R65). -/
def statusAll (u : Nat) : Word :=
  if u < 4 then 3 else if u = 16 then 1 else if between 17 19 u then 0xFF else statusMask u

/-- Words of a granule. -/
def loWord (c : Cap) : Word := c.bits.setWidth 64
/-- The upper word of a granule. -/
def hiWord (c : Cap) : Word := (c.bits >>> 64).setWidth 64

/-- The unit sockets that an image holds. -/
def imageUnit (f : Nat → Cap) (u : Nat) : UnitSock :=
  let b := 224 + 4 * u
  let pw := hiWord (f (b + 3))
  { o0 := fitWidth u 0 (f b), o1 := fitWidth u 1 (f (b + 1)), r := fitWidth u 2 (f (b + 2)),
    st := loWord (f (b + 3)) &&& statusAll u,
    poison := if (u = 10 ∨ u = 11) ∧ pw.getLsbD 63 then some (bits pw.toNat 7 45) else none }

/-- The state that a TSB image holds, read granule by granule; the sockets that the image has no room for are those of
live (R122, R138). -/
def imageSaved (f : Nat → Cap) (live : Arch) : Saved :=
  let ws (base n : Nat) : Tbl Word := (List.range n).foldl
    (fun t k => tset 0 t k (if k % 2 = 0 then loWord (f (base + k / 2)) else hiWord (f (base + k / 2)))) []
  let lp (j : Nat) : Word := if j % 2 = 0 then loWord (f (8 + j / 2)) else hiWord (f (8 + j / 2))
  let lps (o : Nat) : Tbl Word := (List.range 4).foldl (fun t k => tset 0 t k (lp (3 * k + o))) []
  let units := (List.range 20).foldl (fun t u => tset {} t u (imageUnit f u)) live.units
  let units := (List.range 16).foldl (fun t u => tmod {} t (80 + u) fun w =>
    { w with o0 := ⟨(f (304 + 2 * u)).bits, false⟩, o1 := ⟨(f (305 + 2 * u)).bits, false⟩ }) units
  let us : Nat := (List.range 12).foldl (fun n k => n + (f (340 + k)).bits.toNat * 2 ^ (128 * k)) 0
  { arch :=
      { g := ws 96 256, c := (List.range 64).foldl (fun t k => tset Cap.zero t k (f (32 + k))) [],
        p := (hiWord (f 5)).setWidth 16 ||| 1, codecap := f 16,
        precise := (hiWord (f 4)).getLsbD 0, constTime := (hiWord (f 4)).getLsbD 1,
        imask := loWord (f 5) &&& 0x3011F, loopStart := lps 0, loopEnd := lps 1, loopCount := lps 2,
        loopDepth := (loWord (f 6)).toNat, deadline := hiWord (f 6), units := units,
        pendBa := hiWord (f 3), pendInfo := loWord (f 4),
        progress := { unit := (loWord (f 336)).toNat % 128, done := (hiWord (f 336)).toNat,
                      remain := (loWord (f 337)).toNat, ctx := hiWord (f 337), src := f 338, dst := f 339,
                      ustate := BitVec.ofNat 1536 us } },
    eventCode := loWord (f 0), savedBa := hiWord (f 0), flags := loWord (f 1), faultAddr := hiWord (f 1),
    faultInfo := loWord (f 2), arithBa := hiWord (f 2), arithInfo := loWord (f 3) }

/-- TSB_BUSY (R132). -/
def tsbBusy (x : Spindle) : Bool := x.arch.imask.getLsbD 16
/-- SLOT_BUSY. -/
def slotBusy (x : Spindle) : Bool := x.arch.imask.getLsbD 17

/-- IMASK with THRESHOLD, NOTICE and the two busy bits. -/
def imaskOf (threshold : Nat) (notice tsb slot : Bool) : Word :=
  BitVec.ofNat 64 (threshold % 32 + b2n notice * 2 ^ 8 + b2n tsb * 2 ^ 16 + b2n slot * 2 ^ 17)

/-- The TSB capability fulfils R121. -/
def State.tsbOk (s : State) (x : Spindle) : Bool :=
  let c := x.tsb
  capMem c && capHasAll c [pLOAD, pSTORE, pLOADCAP, pSTORECAP] && capBase c % 128 == 0 && decide (6144 ≤ capLen c) &&
    s.localRange (capBase c) 6144

/-- EVENT_BASE fulfils R128. -/
def eventBaseOk (x : Spindle) : Bool := capMem x.eventBase && capHas x.eventBase pEXEC && decide (512 ≤ capLen x.eventBase)

/-- The value of a line as a spindle sees it: what the skein holds, with the spindle's own retired stores that come
before place o in its order (R215, R258). -/
def State.viewLine (s : State) (i : Nat) (h : Place) (l o : Nat) : LineVal :=
  (s.sp i).stores.foldl (fun v r => if lineOf r.addr = l ∧ r.order < o then applyStore r v else v) (s.skl h.skein l).val

/-- Every line of the list is in the place's ply; else the state in which the skein asks for those it lacks. -/
def State.wantLines (s : State) (h : Place) (ls : List Nat) (fetch : Bool) : Bool × State :=
  ls.foldl (fun (b, t) l => let (c, u) := t.wantShared h l fetch; (b && c, u)) (true, s)

/-- The stores of a TSB save: 48 whole lines in order (R121). -/
def saveStores (v : Saved) (mode : Word) (base order : Nat) : List StoreRec :=
  (List.range 48).map fun j =>
    let l := lineOfGranules fun g => v.granule mode (8 * j + g)
    { addr := base + 128 * j, order := order + j, n := 128, data := l.data, tags := l.tags }

/-- The live record, progress and precise event leave with the saved state (R126). -/
def Spindle.leave (x : Spindle) : Spindle :=
  { x with arch := { x.arch with pendBa := 0, pendInfo := 0, progress := {} }, precPend := none, longOn := false,
           longTrig := 0, longJump := none, longTrap := none, resume := false, waitUntil := none }

/-- Execution goes on at ba under CODECAP c (R126). -/
def Spindle.enter (x : Spindle) (c : Cap) (ba : Nat) : Spindle :=
  { x with arch := { x.arch with codecap := c }, ba := BitVec.ofNat 64 ba }

/-- A double event (R143): the spindle stops, its state kept; the notices and the fault follow. -/
def State.doubleEvent (s : State) (i cause : Nat) : State :=
  (s.todo (.stop i 6 0 cause)).raise 0x0D00 i (some i)

/-- A TSB fault (R142): the state goes to the save slot and hardware event 4 is entered; a double event while the slot
is in use or when EVENT_BASE fails (R129, R143). -/
def State.tsbFault (s : State) (i code cause : Nat) (e : EvInfo) : State :=
  let x := s.sp i
  if slotBusy x then s.doubleEvent i cause
  else if !eventBaseOk x then s.doubleEvent i 9
  else
    let y := x.leave
    s.setSp i ({ y with slot := some (x.image (code + cause * 2 ^ 16) e),
                        arch := { y.arch with imask := imaskOf 16 true (tsbBusy x) true } }.enter x.eventBase
      (capBase x.eventBase + 32 * 4))

/-- The MODE word of a saved state: its own PRECISE and CONST_TIME (R57, R122). -/
def State.savedMode (s : State) (x : Spindle) (v : Saved) : Word := s.modeWord { x with arch := v.arch }

/-- The save of a state to the TSB, as stores in the spindle's order (R121, R125); the MODE word is that of the state saved
(R57, R122). -/
def State.saveTsb (s : State) (i : Nat) (v : Saved) : State :=
  let x := s.sp i
  s.setSp i { x with stores := x.stores ++ saveStores v (s.savedMode x v) (capBase x.tsb) x.memSeq, memSeq := x.memSeq + 48 }

/-- A descriptor's fields (R124). -/
structure Descr where
  entry : Cap
  stack : Cap
  data  : Cap
  flags : Nat
deriving DecidableEq, Repr

/-- The first requirement that a descriptor fails, as a TSB_CAUSE; 0 when it fails none (R124, R142). -/
def Descr.cause (d : Descr) : Nat :=
  if !bitAt d.flags 0 then 4
  else if !(d.entry.tag && (capKind d.entry == 0 || capKind d.entry == 2) && capHas d.entry pEXEC) then 5
  else if !(capMem d.stack && capHasAll d.stack [pLOAD, pSTORE]) then 6
  else if !bitAt d.flags 1 && !(d.data.tag && (capKind d.data == 0 || capKind d.data == 3)) then 7
  else 0

/-- The two bytes-wide granules of an address range read as one granule, whatever its alignment: the tag is kept only on
a 16-byte boundary. -/
def State.viewGranule (s : State) (i : Nat) (h : Place) (a o : Nat) : Cap :=
  if a % 16 = 0 then lineCap (s.viewLine i h (lineOf a) o) (a % 128 / 16)
  else
    let b (k : Nat) : Nat := lineGet (s.viewLine i h (lineOf (a + k)) o) ((a + k) % 128) 1
    ⟨BitVec.ofNat 128 ((List.range 16).foldl (fun x k => x + b k * 256 ^ k) 0), false⟩

/-- The lines of a byte range. -/
def linesOf (a n : Nat) : List Nat := if n = 0 then [] else natsFrom (lineOf a) (lineOf (a + n - 1) + 1 - lineOf a)

/-- Delivery of a software-visible event through descriptor index n (R123 to R126): all checks before any write, a
failure becoming a TSB fault (R142). The spindle first waits for its results in flight (log 20) and for the descriptor's
line; the flag says whether the event was taken or turned into a TSB fault. -/
def State.deliver (s : State) (i n : Nat) (e : EvInfo) : Bool × State :=
  let x := s.sp i
  match x.host with
  | none => (false, s)
  | some h =>
    if !x.ops.isEmpty then (false, s)
    else
      let fault (c : Nat) : Bool × State := (!slotBusy x && eventBaseOk x, s.tsbFault i n c e)
      if !s.tsbOk x then fault 1
      else if tsbBusy x then fault 2
      else
        let a := capBase x.tdt + 64 * n
        if !(capMem x.tdt && capHasAll x.tdt [pLOAD, pLOADCAP] && capCovers x.tdt a 64) then fault 3
        else if !s.memRange a 64 then fault 8
        else
          let (ok, s1) := s.wantLines h (linesOf a 64) false
          if !ok then (false, s1)
          else if (linesOf a 64).any fun l => (s1.skl h.skein l).val.poison then fault 8
          else
            let o := x.memSeq
            let d : Descr := ⟨s1.viewGranule i h a o, s1.viewGranule i h (a + 16) o, s1.viewGranule i h (a + 32) o,
              (s1.viewGranule i h (a + 48) o).bits.toNat % 2 ^ 64⟩
            if d.cause ≠ 0 then fault d.cause
            else
              let s2 := s1.saveTsb i ((s1.sp i).image n e)
              let y := (s2.sp i).leave
              let c := if bitAt d.flags 1 then y.arch.c else tset Cap.zero y.arch.c 0 d.data
              let y := { y with arch := { y.arch with
                c := tset Cap.zero c 62 d.stack,
                imask := imaskOf (bits d.flags 4 5) (bitAt d.flags 9) true (slotBusy y) } }
              let y := if capKind d.entry = 2 then y.enter (capEnter d.entry) (capBase d.entry + 16 * capOtype d.entry)
                else y.enter d.entry (capBase d.entry)
              (true, (s2.setSp i y).drain i)

/-- Entry to a hardware event other than 4 (R128, R129). -/
def State.hwEntry (s : State) (i n : Nat) (e : EvInfo) : Bool × State :=
  let x := s.sp i
  if x.host.isNone ∨ !x.ops.isEmpty then (false, s)
  else
    let code := n + 2 ^ 13
    let fault (c : Nat) : Bool × State := (!slotBusy x && eventBaseOk x, s.tsbFault i code c e)
    if !s.tsbOk x then fault 1
    else if tsbBusy x then fault 2
    else if !eventBaseOk x then (false, s.doubleEvent i 9)
    else
      let s1 := s.saveTsb i (x.image code e)
      let y := (s1.sp i).leave
      let y := { y with arch := { y.arch with imask := imaskOf 16 true true (slotBusy y) } }
      (true, (s1.setSp i (y.enter x.eventBase (capBase x.eventBase + 32 * n))).drain i)

/-- The registers a restore brings back (R138): every saved field; THRESHOLD and NOTICE as saved, TSB_BUSY as given,
SLOT_BUSY clear or as it stands. RESUME_PENDING and PRECISE_PENDING take effect at the next boundary (R137, R140). -/
def Spindle.restore (x : Spindle) (v : Saved) (tsb slot : Bool) : Spindle :=
  let im := v.arch.imask
  { x with
    arch := { v.arch with imask := imaskOf (bits im.toNat 0 5) (im.getLsbD 8) tsb slot,
                          progress := if v.flags.getLsbD 0 then v.arch.progress else {} },
    ba := v.savedBa, resume := v.flags.getLsbD 0 && v.arch.progress.unit != 0,
    precPend := if v.flags.getLsbD 1 then some (v.arithBa, v.arithInfo) else none,
    longOn := false, longTrig := 0 }

/-- ERET of variant 0 (R138): the whole TSB is read before any register changes. The ERET bundle is at ba. -/
def State.eret0 (s : State) (i : Nat) (ba : Word) : Bool × State :=
  let x := s.sp i
  let ret : EvInfo := { ba := ba }
  match x.host with
  | none => (false, s)
  | some h =>
    if !s.tsbOk x then (true, s.tsbFault i 4357 1 ret)
    else
      let ls := linesOf (capBase x.tsb) 6144
      let (ok, s1) := s.wantLines h ls false
      if !ok then (false, s1)
      else if ls.any fun l => (s1.viewLine i h l x.memSeq).poison then (true, s.tsbFault i 4357 8 ret)
      else
        let f (g : Nat) : Cap := s1.viewGranule i h (capBase x.tsb + 16 * g) x.memSeq
        if 4 < (loWord (f 6)).toNat then (true, s.tsbFault i 4357 10 ret)
        else (true, s1.setSp i ((s1.sp i).restore (imageSaved f x.arch) false (slotBusy x)))

/-- ERET of variant 1 while SLOT_BUSY is 1 (R138): the slot's state becomes a TSB image. -/
def State.eret1 (s : State) (i : Nat) : State :=
  let x := s.sp i
  match x.slot with
  | some v =>
    if !s.tsbOk x then s.doubleEvent i 1
    else
      let s1 := s.saveTsb i v
      (s1.modSp i fun y => { y with slot := none, arch := { y.arch with
        imask := imaskOf (bits y.arch.imask.toNat 0 5) (y.arch.imask.getLsbD 8) true false } }).drain i
  | none => s

/-- The units of a saved state with what no image holds taken from the live state: results and status of units 80 to 95. -/
def keepCop (saved live : Tbl UnitSock) : Tbl UnitSock :=
  (List.range 16).foldl (fun t k => tmod {} t (80 + k) fun w =>
    { w with r := (tget {} live (80 + k)).r, st := (tget {} live (80 + k)).st }) saved

/-- ERET of variant 2 while SLOT_BUSY is 1 (R138): the state comes back from the slot. -/
def State.eret2 (s : State) (i : Nat) : State :=
  let x := s.sp i
  match x.slot with
  | some v =>
    let a := { v.arch with units := keepCop v.arch.units x.arch.units }
    let y := x.restore { v with arch := a } (tsbBusy x) false
    s.setSp i { y with slot := none }
  | none => s

end Sys2Proof.Machine
end

