-- ==== Sys2Proof/Machine/Units.lean ====
section
/-!
DEFINITION. The units of the move architecture: the checks a trigger makes at issue (R67, R69, R70, R112 to R118, R226, R399),
the conditions on which it waits (R60, R61, R103, R230, R260, R261), and what starting it does (R58, R68, R69, R79 to
R101, R116 to R118, R135, R256, R259).
-/

namespace Sys2Proof.Machine

/-- A trigger that a bundle starts: its slot, unit, trigger socket and modifier, and operand 0 as delivered (R58). -/
structure Trig where
  slot : Nat := 0
  u    : Nat
  sock : Nat
  mod  : Nat := 0
  a    : Cap
deriving DecidableEq, Repr

/-- An event that a bundle raises at issue: class 0 illegal bundle, 1 program event, 2 capability fault, 3 memory fault,
4 poison consumed; its slot, cause, unit and address (R78, R120, R136). -/
structure Fail where
  cls  : Nat
  slot : Nat
  code : Nat
  unit : Nat := noUnit
  fa   : Nat := 0
  fetch : Bool := false
deriving DecidableEq, Repr

/-- Operand 0 as a word. -/
def Trig.w (t : Trig) : Word := Cap64 t.a

/-- Bytes of a load, store or atomic by trigger socket and SIZE (R64, R114). -/
def lsSize (t : Trig) : Nat :=
  let size := match bits t.mod 6 3 with | 1 => 1 | 2 => 2 | 3 => 4 | 4 => 16 | _ => 8
  match t.sock with
  | 4 | 5 => 1 | 6 | 7 => 2 | 8 | 9 => 4 | 10 => 8 | 13 | 15 => size | _ => 16

/-- The capability a load/store trigger uses: the register that its CAP field names (R64, R112). -/
def lsCap (x : Spindle) (t : Trig) : Cap := x.arch.getC (bits t.mod 0 6)
/-- The address: BASE plus the signed offset (R112). -/
def lsAddr (x : Spindle) (t : Trig) : Int := (capBase (lsCap x t) : Int) + t.w.toInt
/-- The address as a number, wrapped when it lies below 0. -/
def lsAddrN (x : Spindle) (t : Trig) : Nat := wrapOf 64 (lsAddr x t)
/-- The trigger stores: ST or STCAP. -/
def lsStores (t : Trig) : Bool := t.sock == 13 || t.sock == 14
/-- The operand 1 that ST, STCAP and ATOM store. -/
def lsData (x : Spindle) (t : Trig) : Cap := (x.arch.unit t.u).o1

/-- The address lies in a mailbox page (R41). -/
def inMailbox (a : Nat) : Bool := between (regBase + 0x10000) (regBase + 0x40FFF) a

/-- The width and alignment that a page of reel register space admits (R40, R334, R394, R451). -/
def regAccessOk (a n : Nat) (store : Bool) : Bool :=
  let o := a - regBase
  let q := o % 4096
  let w16 := store && n == 16 && a % 16 == 0
  let w8 := n == 8 && a % 8 == 0
  if between 0x10000 0x40FFF o then (w8 || (w16 && decide (q < 0x200) && decide (q % 0x80 < 0x40)))
  else if between 0x1000000 0x1FFFFFF o then
    (if q < 0x10 ∨ (0x100 ≤ q ∧ q < 0x200) then w16 else w8)
  else if between 0x3000000 0x3FFFFFF o then (if 0x40 ≤ q ∧ q < 0x50 then w16 else w8)
  else w8 || (n == 4 && a % 4 == 0)

/-- The capability fault that a load/store trigger raises at issue, lowest cause first (R112, R114, R41, R325). -/
def State.lsCapCause (s : State) (x : Spindle) (t : Trig) : Option Nat :=
  let c := lsCap x t
  let n := lsSize t
  let v := lsAddr x t
  let a := lsAddrN x t
  let d := lsData x t
  let perms := match t.sock with
    | 12 => [pLOAD, pLOADCAP] | 13 => [pSTORE] | 14 => if d.tag then [pSTORE, pSTORECAP] else [pSTORE]
    | 15 => [pLOAD, pSTORE] | _ => [pLOAD]
  if !c.tag then some 0x01
  else if capKind c ≠ 0 then some 0x02
  else if v < 0 ∨ !capCovers c a n then some 0x03
  else if !capHasAll c perms || (inMailbox a && !capHas c pSYSTEM) ||
      (t.sock == 14 && d.tag && s.addrKind a == .cxl && !s.tagsHere a) then some 0x04
  else if (t.sock = 12 ∨ t.sock = 14) ∧ a % 16 ≠ 0 then some 0x05
  else if t.sock = 14 ∧ d.tag ∧ !capHas d pGLOBAL ∧ capHas c pGLOBAL then some 0x06
  else none

/-- The memory fault that an authorised load/store trigger raises at issue (R39, R40, R112, R113, R256). -/
def State.lsMemCause (s : State) (x : Spindle) (t : Trig) : Option Nat :=
  let a := lsAddrN x t
  let n := lsSize t
  match s.addrKind a with
  | .none => some 0x20
  | .register => if t.sock = 15 then some 0x20 else if regAccessOk a n (lsStores t) then none else some 0x21
  | .flexWindow | .guest _ => if t.sock = 15 then some 0x20 else if a % n ≠ 0 then some 0x22 else none
  | _ => if a % n ≠ 0 then some 0x22 else none

/-- What the capability register a CACHEOP names must hold (R225, R226): the lowest cause it raises. -/
def cacheopCause (c : Cap) (cop : Nat) : Option Nat :=
  let perms := match cop with
    | 0 | 1 => [pLOAD] | 2 => [pSTORE, pDISCARD] | 4 => [pLOAD, pLOCK] | _ => [pLOCK]
  if !c.tag then some 0x01 else if capKind c ≠ 0 then some 0x02 else if !capHasAll c perms then some 0x04 else none

/-- The guest to which the firewall binds a coprocessor unit for the spindle's partition: 0 none (R73, R292, R294). -/
def State.copBinding (s : State) (i u : Nat) : Nat :=
  bits (s.param 0x0945 (16 * (s.partOf i).getD 0 + (u - 80))) 0 2

/-- A compare-and-swap, which reads its unit's result socket for the expected value (R61, R256). -/
def casTrigger (t : Trig) : Bool := (t.u == 10 || t.u == 11) && t.sock == 15 && bits t.mod 9 3 == 0

/-- The events that a trigger raises at issue, on the registers as phase 3 leaves them; an ATOM CAS whose expected value
is poisoned consumes it (R130). -/
def State.trigFails (s : State) (i : Nat) (x : Spindle) (t : Trig) : List Fail :=
  let prog (c : Nat) : Fail := { cls := 1, slot := t.slot, code := c, unit := t.u, fa := x.ba.toNat }
  let capF (c fa : Nat) : Fail := { cls := 2, slot := t.slot, code := c, unit := t.u, fa := fa }
  let memF (c fa : Nat) : Fail := { cls := 3, slot := t.slot, code := c, unit := t.u, fa := fa }
  let a := t.w
  let o1 := (x.arch.unit t.u).o1
  if t.u = 10 ∨ t.u = 11 then
    match s.lsCapCause x t with
    | some c => [capF c (lsAddrN x t)]
    | none => match s.lsMemCause x t with
      | some c => [memF c (lsAddrN x t)]
      | none => match (x.arch.unit t.u).poison with
        | some l => if casTrigger t then [{ cls := 4, slot := t.slot, code := 0, unit := t.u, fa := 128 * l }] else []
        | none => []
  else if t.u = 12 then
    if t.sock = 8 ∨ t.sock = 9 then
      let c := x.arch.getC (bits t.mod 0 6)
      let tgt := wrapOf 64 (if capKind c = 2 then capBase c + 16 * capOtype c else capBase c + 16 * a.toNat : Nat)
      let c1 := match capTarget c a with
        | .error e => [e]
        | .ok _ => []
      let c2 := if t.sock = 9 ∧ 4095 < linkOf x.ba x.arch.codecap then [9] else []
      (c1 ++ c2).map fun e => capF e tgt
    else []
  else if t.u = 13 then
    if t.sock = 4 then
      let m := (Cap64 o1).toNat
      (if m < 1 ∨ 65536 < m then [prog 0x12] else []) ++ (if a ≠ 0 ∧ 4 ≤ x.arch.loopDepth then [prog 0x10] else [])
    else if x.arch.loopDepth = 0 then [prog 0x11] else []
  else if t.u = 14 then
    match capOp t.sock t.a o1 with
    | .error e => [capF e 0]
    | .ok _ => []
  else if t.u = 15 then
    if t.sock = 4 then (if 4095 < a.toNat then [prog 0x14] else [])
    else if t.sock = 11 then
      let c := x.arch.getC (bits a.toNat 0 6)
      let cop := bits t.mod 0 4
      match cacheopCause c cop with
      | some e => [capF e 0]
      | none => if cop = 4 ∧ !s.memRange (capBase c) (capLen c) then [memF 0x20 (capBase c)] else []
    else []
  else if t.u = 18 ∨ t.u = 19 then
    let use (c : Cap) (kind : Nat) (ps : List Nat) : List Nat :=
      if !c.tag then [1] else if capKind c ≠ kind then [2] else if !capHasAll c ps then [4] else []
    let src := x.arch.getC (bits t.mod 0 6)
    let dst := x.arch.getC (bits t.mod 6 6)
    let all := use o1 3 [pLOAD, pSTORE] ++ use src 0 [pLOAD] ++ use dst 0 [pSTORE] ++
      (if t.sock = 6 ∧ capLen dst < 32 then [3] else [])
    match all.min? with
    | some e => [capF e 0]
    | none => []
  else if 80 ≤ t.u then (if s.copBinding i t.u = 0 then [prog 0x15] else [])
  else []

/-- An address that is reached only by uncached accesses (R242). -/
def uncachedKind : AddrKind → Bool
  | .register | .flexWindow | .guest _ => true
  | _ => false

/-- The spindle is hosted by a Fastened skein. -/
def State.fastened (s : State) (x : Spindle) : Bool :=
  match x.host with
  | some h => !(s.sk h.skein).loose
  | none => false

/-- The trigger makes a serial output (R187): an uncached store, a load from a window, a coprocessor request, a CLEAN or
INVAL. -/
def State.serialOut (s : State) (x : Spindle) (t : Trig) : Bool :=
  if t.u = 10 ∨ t.u = 11 then
    match s.addrKind (lsAddrN x t) with
    | .register => lsStores t
    | .flexWindow | .guest _ => true
    | _ => false
  else 80 ≤ t.u || (t.u == 15 && t.sock == 11 && bits t.mod 0 4 ≤ 1)

/-- The trigger waits (R60, R61, R103, R230, R259, R260, R261). -/
def State.trigWaits (s : State) (x : Spindle) (t : Trig) : Bool :=
  let mine := x.ops.filter fun r => r.unit == t.u
  (mine.any fun r => r.excl) ||
  (!mine.isEmpty && ((t.sock == 9 && (t.u == 6 || t.u == 7)) || (t.u == 8 && t.sock == 8) || (t.u == 9 && t.sock == 6) ||
    casTrigger t)) ||
  (syncTrigger t.u t.sock && x.ops.any fun r => r.arith) ||
  (t.u == 15 && t.sock == 5 && !x.ops.isEmpty) ||
  (t.u == 15 && t.sock == 7 && t.w.getLsbD 0 && s.fastened x && !x.stores.isEmpty) ||
  (t.u == 15 && t.sock == 11 && mine.any fun r => r.trig == 11) ||
  ((t.u == 10 || t.u == 11) && uncachedKind (s.addrKind (lsAddrN x t)) && !x.stores.isEmpty) ||
  (s.serialOut x t && (x.serial.isSome || !x.stores.isEmpty)) ||
  (longTrigger t.u t.sock && !(x.ops.isEmpty && x.stores.isEmpty))

/-- The loads and the stores that a bundle's triggers would add to those outstanding, held against 64 and 32 (R261): an
uncached access counts as the load or store it is, an atomic as one of each (log 91). -/
def Spindle.overFull (x : Spindle) (ts : List Trig) : Bool :=
  let ls := ts.filter fun t => t.u == 10 || t.u == 11
  let count (f : Access → Bool) : Nat := (x.accesses.filter fun e => f e.2).length
  let loads := count fun a => a == .load || a == .ucLoad || a == .atomic
  let stores := count fun a => a == .store || a == .ucStore || a == .atomic
  let newL := (ls.filter fun t => !lsStores t).length
  let newS := (ls.filter fun t => lsStores t || t.sock == 15).length
  (newL != 0 && decide (64 < loads + newL)) || (newS != 0 && decide (32 < stores + newS))

/-- What starting a trigger does beside the operations in flight: a control transfer with its CODECAP, a loop that is
skipped, a system call, a return, a long operation. -/
structure Started where
  x    : Spindle
  jump : Option (Word × Cap) := none
  trap : Option Nat := none
  eret : Option Nat := none
  cacheReq : Option (Nat × Bool) := none
  early : Bool := false
  gather : Bool := false
deriving DecidableEq, Repr

/-- An operation's outcome as a record in flight (R98, R101 to R104): flags whose trap is enabled are precise causes,
integer overflow and ID are precise causes in Precise mode and enter the pending record otherwise. -/
def opRecord (t : Trig) (ba : Word) (o : OpOut) (precise : Bool) (te mask : Nat) : OpRec :=
  let ieee := o.flags &&& te &&& 31
  let idc := (o.flags &&& te) / 32 % 2
  let imp := b2n o.iov + idc * 64
  let units := 2 ^ (8 + t.u)
  let mk (c : Nat) : Word := BitVec.ofNat 64 (if c = 0 then 0 else c + units)
  let arith := (decide (t.u < 4) && (t.sock == 6 || t.sock == 7)) || (t.u == 4 && t.sock == 7) || t.u == 8
  { unit := t.u, trig := t.sock, res := ⟨o.res, false⟩, orSt := o.set, clrSt := o.clr,
    pcause := mk (2 * ieee + (if precise then imp else 0)), cause := mk (if precise then 0 else imp),
    serial := (te &&& mask &&& 31) != 0 ||
      (precise && arith && (t.u != 8 || 32 ≤ te)),
    arith := arith, imprec := arith && !precise, ba := ba, lat := o.lat,
    excl := t.u == 5 || ((t.u == 6 || t.u == 7) && (bits t.mod 0 2 == 2 || t.sock == 7 || t.sock == 8)) ||
      (t.u == 8 && (t.sock == 6 || t.sock == 7 || t.sock == 8 || t.sock == 15)) }

/-- The trap-enable bits of a floating-point unit's status (R65). -/
def teOf (st : Word) : Nat := bits st.toNat 8 6

/-- An arithmetic, bit, compare or capability operation, by unit and trigger socket; st is the status, r the result
socket as the operation takes it (R61, R79 to R97, R116). -/
def computeOp (t : Trig) (w : UnitSock) (ct : Bool) : OpOut :=
  let b := Cap64 w.o1
  if t.u < 4 then aluOp t.sock t.w b w.st
  else if t.u = 4 then mulOp t.sock t.w b ct
  else if t.u = 5 then divOp t.sock t.w b ct
  else if t.u = 6 ∨ t.u = 7 then fpuOp t.sock t.mod t.a.bits w.o1.bits w.r.bits w.st
  else if t.u = 8 then dfpOp t.sock t.mod t.a.bits w.o1.bits w.r.bits w.st
  else if t.u = 9 then bitOp t.sock t.w b (Cap64 w.r) ct
  else cmpOp t.sock t.mod t.a.bits w.o1.bits

/-- The flags an operation can raise, as IEEE flag bits. -/
def opMask (t : Trig) : Nat :=
  if t.u = 6 ∨ t.u = 7 then fpuMask t.sock else if t.u = 8 then dfpMask t.sock (bits t.mod 0 2) else 0

/-- A computing unit's trigger started: units 0 to 9 and 16. -/
def startCompute (x : Spindle) (t : Trig) (precise ct : Bool) : Spindle :=
  let w := x.arch.unit t.u
  let o := computeOp t w ct
  let te := if between 6 8 t.u then teOf w.st else 0
  let r := opRecord t x.ba o precise te (opMask t)
  { x with ops := x.ops ++ [{ r with pred := if t.u = 16 then bits t.mod 0 4 else 0 }] }

/-- A capability operation started (R116). -/
def startCap (x : Spindle) (t : Trig) : Spindle :=
  match capOp t.sock t.a (x.arch.unit 14).o1 with
  | .ok c =>
    let r : OpRec := { unit := 14, trig := t.sock, res := c, ba := x.ba, lat := if t.sock = 6 ∨ t.sock = 7 then 12 else 1 }
    { x with ops := x.ops ++ [r] }
  | .error _ => x

/-- A record of a serial output (R187, R188): the next sequence number, and the epoch whose fasten releases it; a second
output of the same bundle waits behind the first (log 91). -/
def State.withSerial (s : State) (x : Spindle) (r : Serial) : Spindle :=
  let e := match x.host with
    | some h => if (s.sk h.skein).loose then 0 else (s.sk h.skein).openEpoch
    | none => 0
  let q := { r with seq := x.serialSeq + 1, waitEpoch := e }
  if x.serial.isNone then { x with serial := some q, serialSeq := x.serialSeq + 1 }
  else { x with serialNext := x.serialNext ++ [q], serialSeq := x.serialSeq + 1 }

/-- A load, store or atomic started (R112, R114, R145, R256). -/
def State.startLs (s : State) (x : Spindle) (t : Trig) : Spindle :=
  let a := lsAddrN x t
  let n := lsSize t
  let d := lsData x t
  let o := x.memSeq
  let signed := t.sock == 5 || t.sock == 7 || t.sock == 9
  let unc := uncachedKind (s.addrKind a)
  let op (k : OpKind) : OpRec := { unit := t.u, trig := t.sock, kind := k, ba := x.ba, lat := 4 }
  let y := { x with memSeq := o + 1 }
  if lsStores t then
    if unc then
      s.withSerial y { kind := .ucStore, order := o, addr := a, size := n, data := (d.bits.toNat % 2 ^ (8 * n) : Nat), tag := d.tag && t.sock == 14 }
    else
      { y with stores := y.stores ++ [{ addr := a, order := o, n := n, data := d.bits.setWidth 1024,
                                        tag := d.tag && t.sock == 14, isCap := t.sock == 14 }] }
  else if t.sock = 15 then
    { y with ops := y.ops ++ [op (.atomic (bits t.mod 9 3) a n d.bits (x.arch.unit t.u).r.bits o)] }
  else if unc then
    if s.addrKind a = .register then { y with ops := y.ops ++ [op (.answer a n signed o)] }
    else s.withSerial { y with ops := y.ops ++ [{ op (.answer a n signed o) with ser := x.serialSeq + 1 }] }
      { kind := .ucLoad, order := o, addr := a, size := n }
  else { y with ops := y.ops ++ [op (.load a n signed (t.sock == 12) o)] }

/-- A control transfer started (R68, R117, R118): the link, and the transfer. -/
def startCtl (x : Spindle) (t : Trig) : Started :=
  let a := x.arch
  let link := linkOf x.ba a.codecap
  let base := capBase a.codecap
  let rel : Word := BitVec.ofInt 64 (x.ba.toNat + 16 * t.w.toInt)
  let abs : Word := BitVec.ofNat 64 (base + 16 * t.w.toNat)
  let withLink (c : Cap) : Spindle := { x with ops := x.ops ++ [{ unit := 12, trig := t.sock, res := c, ba := x.ba }] }
  let lw := ofWord (BitVec.ofNat 64 link)
  match t.sock with
  | 4 => { x := x, jump := some (rel, a.codecap) }
  | 5 => { x := x, jump := some (abs, a.codecap) }
  | 6 => { x := withLink lw, jump := some (rel, a.codecap) }
  | 7 => { x := withLink lw, jump := some (abs, a.codecap) }
  | k =>
    match capTarget (a.getC (bits t.mod 0 6)) t.w with
    | .error _ => { x := x }
    | .ok (tgt, c) =>
      let ret := mkCap base (capLen a.codecap) (capPerms a.codecap) link 2 a.codecap.tag
      { x := if k = 9 then withLink ret else x, jump := some (BitVec.ofNat 64 tgt, c) }

/-- LOOP and BREAK (R69, R70): a level pushed, or the body skipped; a level popped. DESIGN CHOICE (log 91): the skip of a
LOOP with count 0 that stands in the LOOP_END bundle of the enclosing level is a transfer for R70, so that level is
neither decremented nor popped; a BREAK in such a bundle leaves the check of the level below to R70. -/
def startLoop (x : Spindle) (t : Trig) : Started :=
  let a := x.arch
  let m := (Cap64 (a.unit 13).o1).toNat
  if t.sock = 5 then { x := { x with arch := { a with loopDepth := a.loopDepth - 1 } } }
  else if t.w = 0 then { x := x, jump := some (x.ba + BitVec.ofNat 64 (16 * (m + 1)), a.codecap) }
  else
    let k := a.loopDepth
    { x := { x with arch := { a with
        loopStart := tset 0 a.loopStart k (x.ba + 16), loopEnd := tset 0 a.loopEnd k (x.ba + BitVec.ofNat 64 (16 * m)),
        loopCount := tset 0 a.loopCount k t.w, loopDepth := k + 1 } } }

/-- A system operation started (R103, R131, R135, R138, R190, R225, R259). -/
def State.startSys (s : State) (x : Spindle) (t : Trig) : Started :=
  let op (r : OpRec) : Spindle := { x with ops := x.ops ++ [{ r with unit := 15, trig := t.sock, ba := x.ba }] }
  let o := x.memSeq
  let epoch := match x.host with
    | some h => (s.sk h.skein).openEpoch
    | none => 0
  match t.sock with
  | 4 => { x := x, trap := some t.w.toNat }
  | 5 => { x := x, eret := some (t.w.toNat % 4) }
  | 6 => { x := { op { kind := .sync } with ahead := [] } }
  | 7 =>
    let y := { op { kind := .fence o (if t.w.getLsbD 0 && s.fastened x then epoch else 0) } with memSeq := o + 1 }
    { x := y, gather := t.w.getLsbD 0 && s.fastened x }
  | 8 =>
    let y := op { res := ofWord (BitVec.ofNat 64 s.time), lat := 20 }
    { x := if t.w = 0 then y else { y with arch := { y.arch with deadline := t.w } } }
  | 9 => { x := op { res := ofWord (Config.entropy s.freeCtr), lat := 40 } }
  | 10 => { x := { op { kind := .wait t.w } with waitUntil := some t.w.toNat, waitFrom := s.time } }
  | 11 =>
    let a := t.w.toNat
    let c := x.arch.getC (bits a 0 6)
    let cop := bits t.mod 0 4
    if bits a 12 52 ≠ 0 ∨ bitAt a 7 ∨ (cop = 2 ∧ (capBase c % 128 ≠ 0 ∨ capLen c % 128 ≠ 0)) then
      { x := op { res := capNum (4 * 2 ^ 48) } }
    else
      let h := x.host.getD {}
      let y := op { kind := .cacheop cop (capBase c) (capLen c) (bits a 8 4) (bitAt a 6) h.skein h.ply,
                    ser := if cop ≤ 1 then x.serialSeq + 1 else 0 }
      if cop ≤ 1 then { x := s.withSerial y { kind := .cacheop, addr := capBase c, size := 0 }, gather := s.fastened x }
      else { x := y }
  | _ =>
    if s.fastened x then { x := op { kind := .fasten epoch, res := capNum epoch }, early := true }
    else { x := { op { kind := .fence o 0 } with memSeq := o + 1 } }

/-- A coprocessor request started (R73, R75): the request waits as a serial output, the answer in flight. -/
def State.startCop (s : State) (x : Spindle) (t : Trig) (opq : Nat) : Spindle :=
  let w := x.arch.unit t.u
  let y := { x with ops := x.ops ++ [{ unit := t.u, trig := t.sock, kind := .answer 0 0 false 0, ser := x.serialSeq + 1, ba := x.ba }] }
  s.withSerial y { kind := .cop, addr := t.u * 16 + t.sock, data := w.o1.bits ++ t.a.bits,
                   extra := BitVec.ofNat 128 (t.sock + t.mod * 2 ^ 4 + opq * 2 ^ 17) }

/-- A long operation started (R72, R139): its progress, with the operands latched, and PRECISE and CONST_TIME as they
held before the bundle (R57). DLDIV starts with the partial remainder 0 and its count of quotient digits to come; the
operands stay in the unit's sockets, which nothing writes before it ends (log 44). -/
def startLong (x : Spindle) (t : Trig) (ctx : Word) (precise ct : Bool) : Spindle :=
  let w := x.arch.unit t.u
  let us : Nat := if t.u = 17 then (Cap64 w.o1).toNat % 256 else 0
  { x with longOn := true, longTrig := t.sock, longSlot := t.slot, longMod := t.mod, longPrec := precise, longCt := ct,
           arch := { x.arch with progress :=
             { unit := t.u, done := 0, ctx := ctx,
               remain := if t.u = 8 then dldivDigits (bits t.mod 0 2) t.a.bits w.o1.bits else t.w.toNat,
               src := if t.u = 8 then Cap.zero else x.arch.getC (bits t.mod 0 6),
               dst := if t.u = 8 then Cap.zero else x.arch.getC (bits t.mod 6 6), ustate := BitVec.ofNat 1536 us } } }

/-- The operations in flight once r has entered a cause that ARITH_BA names: those triggered before r are the earlier
ones (R100, R102). -/
def markEarly (ops : List OpRec) (r : OpRec) : List OpRec :=
  ((ops.takeWhile fun q => q != r).map fun q => { q with early := true }) ++
    ((ops.dropWhile fun q => q != r).map fun q => { q with early := false })

/-- A completed operation's effect on the spindle (R60, R87, R98, R100 to R102, R130): the result socket with its marker,
the status, the predicate of a compare, the pending record, whose ARITH_BA names the earliest trigger bundle that
contributed a cause, and the precise event. -/
def Spindle.complete (x : Spindle) (r : OpRec) : Spindle :=
  let first := r.cause != 0 && (x.arch.pendInfo == 0 || r.early)
  let a := x.arch.modUnit r.unit fun w =>
    { w with r := if r.unit = 13 ∨ (r.unit = 15 ∧ r.kind = .sync) then w.r else r.res, poison := r.poison,
             st := (w.st &&& ~~~r.clrSt) ||| r.orSt }
  let a := if r.unit = 16 ∧ r.pred ≠ 0 then
      { a with p := (a.p &&& ~~~(BitVec.ofNat 16 (2 ^ r.pred))) ||| BitVec.ofNat 16 (b2n (r.res.bits.getLsbD 0) * 2 ^ r.pred) }
    else a
  let a := if r.cause = 0 then a
    else { a with pendBa := if first then r.ba else a.pendBa, pendInfo := a.pendInfo ||| r.cause }
  let p := if r.pcause = 0 then x.precPend
    else match x.precPend with
      | none => some (r.ba, r.pcause ||| 0x80)
      | some (b, c) => some (b, c ||| r.pcause ||| 0x80)
  { x with arch := a, precPend := p, ops := (if first then markEarly x.ops r else x.ops).erase { r with early := r.early && !first } }

/-- An atomic's value of memory after it (R256). -/
def atomicNew (op n : Nat) (old d e : Nat) : Nat :=
  let m := 2 ^ (8 * n)
  match op with
  | 0 => if old = e % m then d % m else old
  | 1 => (old + d) % m
  | 2 => d % m
  | 3 => (old ||| d) % m
  | _ => old &&& ((m - 1) ^^^ (d % m))

/-- The value that a load delivers (R63, R114): zero- or sign-extended, or with the granule's tag. DESIGN CHOICE (log 91):
the sign goes to bit 63, and bits 127 to 64 of the capability-wide result socket are 0. -/
def loadValue (v : LineVal) (o n : Nat) (signed keep : Bool) : Cap :=
  if keep then lineCap v (o / 16)
  else
    let x := lineGet v o n
    ⟨if signed then (BitVec.ofInt 64 (signedOf (8 * n) x)).setWidth 128 else BitVec.ofNat 128 x, false⟩

/-- The oldest operation of unit u in flight. -/
def Spindle.frontOp (x : Spindle) (u : Nat) : Option OpRec := x.ops.find? fun r => r.unit == u

/-- The result of operation r has come, as r' holds it: it is entered, or, while an earlier operation of the unit is in
flight, it waits as a known value, so that the unit completes in trigger order (R60). -/
def Spindle.arrive (x : Spindle) (r r' : OpRec) : Spindle :=
  if x.frontOp r.unit = some r then { x.complete r' with ops := x.ops.erase r }
  else { x with ops := x.ops.replace r { r' with kind := .value } }

/-- UNIT_COMPLETION (R60): the oldest operation of the unit completes when what it awaits is there; a load or atomic
that lacks its line has the skein ask for it. -/
def State.completeUnit (s : State) (i u : Nat) : State :=
  let x := s.sp i
  match x.frontOp u, x.host with
  | some r, some h =>
    match r.kind with
    | .value => s.modSp i fun y => y.complete r
    | .load a n signed keep o =>
      if !x.mayPerform .load o then s
      else
        match s.wantShared h (lineOf a) false with
        | (false, s1) => s1
        | (true, s1) =>
          let v := s1.viewLine i h (lineOf a) o
          let r' := { r with res := loadValue v (a % 128) n signed keep, poison := if v.poison then some (lineOf a) else none }
          (s1.modSp i fun y => { (y.complete r') with ops := y.ops.erase r }).bufLeave h.skein (lineOf a)
    | .atomic op a n d e o =>
      if !x.mayPerform .atomic o then s
      else
        match s.wantOwned h (lineOf a) with
        | (false, s1) => s1
        | (true, s1) =>
          let v := (s1.skl h.skein (lineOf a)).val
          let old := lineGet v (a % 128) n
          let s2 := if v.poison then s1
            else s1.writeOwned h.skein h.ply (lineOf a) (linePut v (a % 128) n (atomicNew op n old d.toNat e.toNat))
          let r' := { r with res := capNum old, poison := if v.poison then some (lineOf a) else none }
          (s2.modSp i fun y => { (y.complete r') with ops := y.ops.erase r }).drain i
    | .fasten e =>
      if (s.sk h.skein).loose ∨ e ≤ (s.sk h.skein).committed then s.modSp i fun y => y.complete r else s
    | .fence o e =>
      if x.performedTo o && (e == 0 || (s.sk h.skein).loose || decide (e ≤ (s.sk h.skein).committed)) then
        (s.modSp i fun y => y.complete r).drain i
      else s
    | .sync => if (x.ops.takeWhile fun q => q != r).isEmpty then s.modSp i fun y => y.complete r else s
    | _ => s
  | _, _ => s

end Sys2Proof.Machine
end

