-- ==== Sys2Proof/Machine/Boundary.lean ====
section
/-!
DEFINITION. Bundle boundaries: whether a spindle may issue, the events that fall due there and their order (R136, R137),
and what a retirement does to the bundle address (R68, R70).
-/

namespace Sys2Proof.Machine

/-- The highest set bit of the low n bits of x. -/
def highBit (x : Nat) : Nat → Option Nat
  | 0 => none
  | n + 1 => if x.testBit n then some n else highBit x n

/-- The deliverable interrupt of highest number (R132, R133, R136). -/
def dueInterrupt (x : Spindle) : Option Nat :=
  if tsbBusy x || slotBusy x then none
  else match highBit x.intPending.toNat 256 with
    | some n => if bits x.arch.imask.toNat 0 5 ≤ n / 16 then some n else none
    | none => none

/-- The notice due: 1, 2 or 5 in that order, when NOTICE is 0 (R128, R132, R136). -/
def dueNotice (x : Spindle) : Option Nat :=
  if tsbBusy x || slotBusy x || x.arch.imask.getLsbD 8 then none
  else if x.notice1 then some 1 else if x.notice2 then some 2 else if x.notice5.isSome then some 5 else none

/-- A notice or interrupt is pending that IMASK lets through (R135). -/
def admits (x : Spindle) : Bool := (dueNotice x).isSome || (dueInterrupt x).isSome

/-- A WAIT ends with a result, which enters the socket in the unit's order (R60, R135). -/
def Spindle.endWait (x : Spindle) (r : Nat) : Spindle :=
  match x.ops.find? fun q => match q.kind with
    | .wait _ => true
    | _ => false with
  | some q => { x.arrive q { q with res := capNum r } with waitUntil := none }
  | none => { x with waitUntil := none }

/-- Hardware notice n entered; delivery consumes it (R128, R129, R148). -/
def State.takeNotice (s : State) (i n : Nat) (ba : Word) (resume : Bool) : State :=
  let x := s.sp i
  let fa := if n = 5 then x.notice5.getD 0 else 0
  match s.hwEntry i n { ba := ba, fa := fa, resume := resume } with
  | (true, t) => t.modSp i fun y =>
      { y with notice1 := y.notice1 && n != 1, notice2 := y.notice2 && n != 2, notice5 := if n = 5 then none else y.notice5 }
  | (false, t) => t

/-- Interrupt n delivered; delivery clears its pending bit (R133). -/
def State.takeInterrupt (s : State) (i n : Nat) (ba : Word) (resume : Bool) : State :=
  match s.deliver i (4096 + n) { ba := ba, resume := resume } with
  | (true, t) => t.modSp i fun y => { y with intPending := y.intPending &&& ~~~(BitVec.ofNat 256 (2 ^ n)) }
  | (false, t) => t

/-- The events of ranks 3 and 4 at a boundary or progress point: the state after the one that is due, if any. -/
def State.takeDue (s : State) (i : Nat) (ba : Word) (resume : Bool) : Option State :=
  let x := s.sp i
  match dueNotice x with
  | some n => some (s.takeNotice i n ba resume)
  | none => match dueInterrupt x with
    | some n => some (s.takeInterrupt i n ba resume)
    | none => none

/-- The events of ranks 1 to 4 at the boundary before the bundle at ba, and before them a system call whose bundle has
retired (R131, R136, R137). DESIGN CHOICE (log 91): where one bundle holds both a TRAP and an operation whose IEEE trap
fires, the system call, which belongs to that bundle's own boundary, comes first, and the arithmetic event is saved with
PRECISE_PENDING as R137 has it for an event that is passed over. -/
def State.takeEvents (s : State) (i : Nat) : Option State :=
  let x := s.sp i
  match x.trapPend with
  | some t =>
    some (match s.deliver i t { ba := x.ba } with
      | (true, u) => u.modSp i fun y => { y with trapPend := none }
      | (false, u) => u)
  | none =>
    if x.exhausted then
      some (match s.hwEntry i 3 { ba := x.ba, fa := x.ba, resume := x.resume } with
        | (true, u) => u.modSp i fun y => { y with exhausted := false }
        | (false, u) => u)
    else match x.precPend with
      | some p => some (s.deliver i 4354 { ba := x.ba, arith := some p, isPrec := true, resume := x.resume }).2
      | none => s.takeDue i x.ba x.resume

/-- The loop unit's check at the retirement of the bundle at ba (R70): levels closed, and the next bundle. -/
def loopEndCheck (ba : Word) : Nat → Arch → Arch × Word
  | 0, a => (a, ba + 16)
  | n + 1, a =>
    let k := a.loopDepth - 1
    if a.loopDepth = 0 ∨ tget 0 a.loopEnd k ≠ ba then (a, ba + 16)
    else
      let c := tget 0 a.loopCount k
      if 1 < c.toNat then ({ a with loopCount := tset 0 a.loopCount k (c - 1) }, tget 0 a.loopStart k)
      else if c = 1 then loopEndCheck ba n { a with loopDepth := k }
      else (a, ba + 16)

/-- The bundle at BA retires: a taken transfer, or the loop check and the next bundle (R68, R70). -/
def Spindle.retire (x : Spindle) (jump : Option (Word × Cap)) : Spindle :=
  match jump with
  | some (t, c) => { x with ba := t, arch := { x.arch with codecap := c } }
  | none => let (a, n) := loopEndCheck x.ba 5 x.arch; { x with ba := n, arch := a }

/-- The ply that hosts a spindle issues: it is hosting, its skein is present, not lost and not in a barrier. -/
def State.hostIssues (s : State) (x : Spindle) : Bool :=
  match x.host with
  | some h =>
    let z := s.sk h.skein
    z.present && !z.lost && !z.inBarrier && (s.ply h.skein h.ply).state == 0 && !(s.ply h.skein h.ply).testPend &&
      decide ((s.ply h.skein h.ply).step < 15)
  | none => false

/-- The spindle may act: released, not stopped, frozen, suspended or moving, on a ply that issues. -/
def State.alive (s : State) (i : Nat) : Bool :=
  let x := s.sp i
  s.running && x.released && x.stopped == 0 && !x.frozen && !x.suspended && !x.moving && s.hostIssues x

/-- No arithmetic event and no system call is due (R30, R136): a spindle is not frozen with one (R470). -/
def Spindle.eventFree (x : Spindle) : Bool := x.precPend.isNone && x.trapPend.isNone && !x.exhausted

/-- The spindle may issue a bundle: no long operation runs, no WAIT, no serialising operation or output is awaited, no
freeze of a Loose spindle waits (R31, R72, R101, R104, R135, R187, R470). -/
def State.canIssue (s : State) (i : Nat) : Bool :=
  let x := s.sp i
  s.alive i && !x.longOn && x.waitUntil.isNone && !(x.ops.any fun r => r.serial) &&
    !(x.freezeReq && !s.fastened x && x.eventFree) &&
    (x.serial.isNone || !s.fastened x)

/-- A spindle of a Loose skein reaches its freeze point when its stores are globally visible (R31, R470); one of a
Fastened skein reaches it at the next fasten (Machine/Fasten.lean). -/
def State.park (s : State) (i : Nat) : State :=
  let x := s.sp i
  if x.freezeReq && !s.fastened x && x.ops.isEmpty && x.stores.isEmpty && x.serial.isNone && x.eventFree && !x.moving then
    s.modSp i fun y => { y with frozen := true, freezeReq := false }
  else s

end Sys2Proof.Machine
end

