-- ==== Sys2Proof/Machine/Beads.lean ====
section
/-!
DEFINITION. Bead requests at the keepers (R475, R476, R479): the queue of a keeper, in the order in which requests wait,
and the totals that grants change.
-/

namespace Sys2Proof.Machine

/-- A request in its place: by priority, then by arrival (R479). -/
def insertReq (r : BeadReq) : List BeadReq → List BeadReq
  | [] => [r]
  | q :: rest => if r.prio < q.prio then r :: q :: rest else q :: insertReq r rest

/-- The requests that wait at keeper d: 0 to 11 a skein's, 12 the hub's. -/
def State.waitingAt (s : State) (d : Nat) : List BeadReq := if d < 12 then (s.sk d).waiting else s.power.hubWait
/-- The requests at keeper d become q. -/
def State.setWaiting (s : State) (d : Nat) (q : List BeadReq) : State :=
  if d < 12 then s.modSk d fun z => { z with waiting := q } else s.modPower fun p => { p with hubWait := q }

/-- A bead request arrives at keeper d, once for one purpose (R479); beads in thirty-seconds. -/
def State.askBeads (s : State) (d prio beads : Nat) (what : BeadFor) : State :=
  if (s.waitingAt d).any fun q => q.what == what then s
  else s.setWaiting d (insertReq { prio := prio, what := what, beads := beads, since := s.time } (s.waitingAt d))
/-- A request that its owner no longer needs leaves the queue (R479). -/
def State.withdrawBeads (s : State) (d : Nat) (what : BeadFor) : State :=
  s.setWaiting d ((s.waitingAt d).filter fun q => q.what != what)

/-- The granted total of keeper d, in thirty-seconds (R475). -/
def State.grantedAt (s : State) (d : Nat) : Nat := if d < 12 then (s.sk d).granted else s.power.hubGranted
/-- The granted total changed by f. -/
def State.modGranted (s : State) (d : Nat) (f : Nat → Nat) : State :=
  if d < 12 then s.modSk d fun z => { z with granted := f z.granted } else s.modPower fun p => { p with hubGranted := f p.hubGranted }
/-- Beads given back to keeper d (R476). -/
def State.returnBeads (s : State) (d beads : Nat) : State := s.modGranted d fun g => g - beads

/-- The beads of a ply at a frequency step (R476). -/
def stepBeads (n : Nat) : Nat :=
  match n with
  | 0 => 1 | 1 => 2 | 2 => 3 | 3 => 3 | 4 => 4 | 5 => 4 | 6 => 5 | 7 => 6 | 8 => 7 | _ => 0

/-- The gate of power domain n is switched on for a grant: it has 100 µs to report on (R478). -/
def State.gateOn (s : State) (n : Nat) : State := s.modPower fun p => { p with gateAt := tset 0 p.gateAt n s.time }
/-- The gate has had its 100 µs (R478). -/
def State.gateLate (s : State) (n : Nat) : Bool := decide (tget 0 s.power.gateAt n + 100000 ≤ s.time)

/-- Power domain n takes a state: 0 off, 1 on, 2 waiting for beads, 3 draining, 4 fenced, 5 failed (R477, R502). -/
def State.setDomain (s : State) (n v : Nat) : State := s.modPower fun p => { p with domains := tset 0 p.domains n v }
/-- The state of power domain n. -/
def State.domainState (s : State) (n : Nat) : Nat := tget 0 s.power.domains n

/-- The beads of a hub domain when it is on (R477). -/
def domainBeads (n : Nat) : Nat :=
  if n = 313 then 6 else if n = 314 ∨ n = 315 then 1 else if between 316 319 n then 8 else if between 320 335 n then 6
  else if between 336 343 n then 3 else if between 344 347 n then 4 else if between 348 353 n then 5
  else if between 354 357 n then 4 else if between 358 359 n then 2 else if between 360 371 n then 1 else 0
/-- The beads a hub domain holds when it is on, in thirty-seconds: each halving of a rate gives back half of what the lane pairs,
then the engine groups, hold (R477, R487). -/
def State.domainHolds (s : State) (n : Nat) : Nat :=
  let h := s.power.hubRate
  32 * domainBeads n / (if between 344 347 n then 2 ^ ((h + 1) / 2) else if between 336 343 n then 2 ^ (h / 2) else 1)
/-- A hub domain that is off, or failed, asks for its beads at priority 4 (R479). -/
def State.wantDomain (s : State) (n : Nat) : State :=
  if s.domainState n = 1 ∨ s.domainState n = 2 then s
  else (s.setDomain n 2).askBeads 12 4 (s.domainHolds n) (.domain n)
/-- A bead request of the domain still waits. -/
def State.domainWaits (s : State) (n : Nat) : Bool := s.power.hubWait.any fun q => q.what == .domain n
/-- A hub domain goes to state v, off or failed: what it holds returns, what it asks is withdrawn (R478, R479). -/
def State.dropDomain (s : State) (n v : Nat) : State :=
  let holds := s.domainState n = 1 ∨ (s.domainState n = 2 ∧ !s.domainWaits n)
  let s1 := if holds then s.returnBeads 12 (s.domainHolds n) else s
  (s1.withdrawBeads 12 (.domain n)).setDomain n v

end Sys2Proof.Machine
end

