-- ==== Sys2Proof/Machine/Deflate.lean ====
section
/-!
DEFINITION. DEFLATE (RFC 1951) with the zlib (RFC 1950) and gzip (RFC 1952) framings as R406 supports them: what a
prefix of a stream decodes to, the blocks of a compressed stream, headers and trailers.
-/

namespace Sys2Proof.Machine

/-- A symbol of a DEFLATE stream: a literal byte, or a match of a length at a distance. -/
inductive Tok where
  | lit (b : Nat)
  | copy (len dist : Nat)
deriving DecidableEq, Repr

/-- The bits of a byte list, the lowest of each byte first. -/
def bitsOf (xs : List Nat) : List Bool := xs.flatMap fun b => (List.range 8).map fun k => b.testBit k
/-- The number that the first n bits spell, the lowest first; none when they are not there. -/
def takeBits : Nat → List Bool → Option (Nat × List Bool)
  | 0, bs => some (0, bs)
  | _ + 1, [] => none
  | n + 1, b :: bs => match takeBits n bs with
    | some (v, r) => some (b2n b + 2 * v, r)
    | none => none

/-- A Huffman code: code length, code, symbol. -/
abbrev HCode := List (Nat × Nat × Nat)

/-- The first code of length n of a canonical code (RFC 1951, 3.2.2). -/
def firstCode (lens : List Nat) : Nat → Nat
  | 0 => 0
  | n + 1 => 2 * (firstCode lens n + (if n = 0 then 0 else (lens.filter (· = n)).length))
/-- The canonical code of a list of code lengths. -/
def canonical (lens : List Nat) : HCode :=
  ((List.range lens.length).foldl (fun (acc : HCode × List Nat) sym =>
    let n := nth lens sym
    if n = 0 then acc
    else
      let seen := (acc.2.filter (· = n)).length
      (acc.1 ++ [(n, firstCode lens n + seen, sym)], n :: acc.2)) ([], [])).1
/-- More codes of some length than a prefix code can have. -/
def oversubscribed (lens : List Nat) : Bool :=
  decide (2 ^ 15 < (lens.map fun n => if n = 0 then 0 else 2 ^ (15 - n)).sum)

/-- What reading a symbol finds: the symbol, the end of the bits, or no such code. -/
inductive Rd (α : Type) where
  | ok (v : α) (rest : List Bool)
  | more
  | bad

/-- One symbol read, the code's bits highest first. -/
def readSym (h : HCode) : Nat → Nat → Nat → List Bool → Rd Nat
  | 0, _, _, _ => .bad
  | _ + 1, _, _, [] => .more
  | f + 1, n, c, b :: bs =>
    let c := 2 * c + b2n b
    match h.find? fun e => e.1 = n + 1 ∧ e.2.1 = c with
    | some e => .ok e.2.2 bs
    | none => readSym h f (n + 1) c bs

/-- Base and extra bits of length symbol 257 + k. -/
def lenBase (k : Nat) : Nat × Nat :=
  if k < 8 then (3 + k, 0) else if k = 28 then (258, 0)
  else let e := k / 4 - 1; (3 + (4 + k % 4) * 2 ^ e, e)
/-- Base and extra bits of distance symbol k. -/
def distBase (k : Nat) : Nat × Nat :=
  if k < 4 then (1 + k, 0) else let e := k / 2 - 1; (1 + (2 + k % 2) * 2 ^ e, e)

/-- How the symbols of one block end: at the end-of-block symbol with the bits that follow, where the bits run out, or
at invalid data. -/
inductive BlockEnd where
  | done (rest : List Bool)
  | more
  | bad
deriving DecidableEq, Repr

/-- The symbols of a Huffman block. -/
def readSyms (ll dd : HCode) : Nat → List Bool → List Tok × BlockEnd
  | 0, _ => ([], .more)
  | f + 1, bs =>
    match readSym ll 15 0 0 bs with
    | .more => ([], .more)
    | .bad => ([], .bad)
    | .ok sym r =>
      if sym < 256 then let (t, e) := readSyms ll dd f r; (.lit sym :: t, e)
      else if sym = 256 then ([], .done r)
      else if 285 < sym then ([], .bad)
      else
        let (lb, le) := lenBase (sym - 257)
        match takeBits le r with
        | none => ([], .more)
        | some (lx, r1) =>
          match readSym dd 15 0 0 r1 with
          | .more => ([], .more)
          | .bad => ([], .bad)
          | .ok ds r2 =>
            if 29 < ds then ([], .bad)
            else
              let (db, de) := distBase ds
              match takeBits de r2 with
              | none => ([], .more)
              | some (dx, r3) => let (t, e) := readSyms ll dd f r3; (.copy (lb + lx) (db + dx) :: t, e)

/-- The order of the code-length code lengths (RFC 1951, 3.2.7). -/
def clOrder : List Nat := [16, 17, 18, 0, 8, 7, 9, 6, 10, 5, 11, 4, 12, 3, 13, 2, 14, 1, 15]
/-- n fields of w bits. -/
def takeFields (w : Nat) : Nat → List Bool → Option (List Nat × List Bool)
  | 0, bs => some ([], bs)
  | n + 1, bs => match takeBits w bs with
    | some (v, r) => (takeFields w n r).map fun (vs, q) => (v :: vs, q)
    | none => none
/-- The run-length coded lengths of a dynamic block, until n of them are there. -/
def readLens (cl : HCode) (n : Nat) : Nat → List Nat → List Bool → Rd (List Nat)
  | 0, _, _ => .bad
  | f + 1, acc, bs =>
    if n ≤ acc.length then (if acc.length = n then .ok acc bs else .bad)
    else
      match readSym cl 7 0 0 bs with
      | .more => .more
      | .bad => .bad
      | .ok sym r =>
        if sym < 16 then readLens cl n f (acc ++ [sym]) r
        else
          let (w, base, v) := if sym = 16 then (2, 3, acc.getLast?) else if sym = 17 then (3, 3, some 0) else (7, 11, some 0)
          match v, takeBits w r with
          | none, _ => .bad
          | _, none => .more
          | some x, some (k, r1) => readLens cl n f (acc ++ List.replicate (base + k) x) r1

/-- The literal/length lengths of a fixed block. -/
def fixedLens : List Nat :=
  List.replicate 144 8 ++ List.replicate 112 9 ++ List.replicate 24 7 ++ List.replicate 8 8

/-- Bytes of a stored block. -/
def takeStored : Nat → List Bool → List Tok × BlockEnd
  | 0, bs => ([], .done bs)
  | n + 1, bs => match takeBits 8 bs with
    | some (v, r) => let (t, e) := takeStored n r; (.lit v :: t, e)
    | none => ([], .more)

/-- One block from bit position pos: whether it is the last, its symbols, how it ends. -/
def readBlock (pos : Nat) (bs : List Bool) : Bool × List Tok × BlockEnd :=
  match takeBits 3 bs with
  | none => (false, [], .more)
  | some (h, r) =>
    let fin := h % 2 = 1
    let (t, e) : List Tok × BlockEnd :=
      match h / 2 with
      | 0 =>
        match takeBits ((8 - (pos + 3) % 8) % 8) r with
        | none => ([], .more)
        | some (_, r1) => match takeBits 32 r1 with
          | none => ([], .more)
          | some (v, r2) =>
            if v % 65536 + v / 65536 = 65535 then takeStored (v % 65536) r2 else ([], .bad)
      | 1 => readSyms (canonical fixedLens) (canonical (List.replicate 30 5)) (bs.length + 1) r
      | 2 =>
        match takeBits 14 r with
        | none => ([], .more)
        | some (v, r1) =>
          let hl := v % 32 + 257
          let hd := v / 32 % 32 + 1
          let hc := v / 1024 + 4
          match takeFields 3 hc r1 with
          | none => ([], .more)
          | some (cls, r2) =>
            let lens := (List.range 19).map fun s => match clOrder.findIdx? (· = s) with
              | some j => nth cls j
              | none => 0
            if 286 < hl ∨ 30 < hd ∨ oversubscribed lens then ([], .bad)
            else match readLens (canonical lens) (hl + hd) (hl + hd + 1) [] r2 with
              | .more => ([], .more)
              | .bad => ([], .bad)
              | .ok ls r3 =>
                if oversubscribed (ls.take hl) ∨ oversubscribed (ls.drop hl) then ([], .bad)
                else readSyms (canonical (ls.take hl)) (canonical (ls.drop hl)) (bs.length + 1) r3
      | _ => ([], .bad)
    (fin, t, e)

/-- How a stream's prefix ends: it goes on, its last block ended with so many bits used, or its data are invalid. -/
inductive StreamEnd where
  | more
  | last (used : Nat)
  | bad
deriving DecidableEq, Repr

/-- The symbols of a prefix of a DEFLATE stream from bit position pos. -/
def readStream : Nat → Nat → List Bool → List Tok × StreamEnd
  | 0, _, _ => ([], .more)
  | f + 1, pos, bs =>
    match readBlock pos bs with
    | (_, t, .more) => (t, .more)
    | (_, t, .bad) => (t, .bad)
    | (fin, t, .done r) =>
      let used := pos + (bs.length - r.length)
      if fin then (t, .last used)
      else let (t2, e) := readStream f used r; (t ++ t2, e)

/-- Bytes of a list up to and with the first zero; none when there is none. -/
def skipZ : List Nat → Option (List Nat)
  | [] => none
  | b :: r => if b = 0 then some r else skipZ r

/-- What a framing header's prefix says: not all there, invalid, a check failed, a zlib DICTID that needs comparing, or
so many bytes of header, the CINFO or gzip framing being checked. -/
inductive Header where
  | more
  | bad
  | check
  | ok (bytes : Nat) (dictId : Option Nat)
deriving DecidableEq, Repr

/-- The zlib header (RFC 1950): CM 8, CINFO 0 to 7, FCHECK. -/
def zlibHeader (xs : List Nat) : Header :=
  if xs.length < 2 then .more
  else
    let cmf := nth xs 0
    let flg := nth xs 1
    if cmf % 16 ≠ 8 ∨ 7 < cmf / 16 ∨ (256 * cmf + flg) % 31 ≠ 0 then .bad
    else if flg.testBit 5 then
      (if xs.length < 6 then .more else .ok 6 (some (beNat ((xs.drop 2).take 4))))
    else .ok 2 none

/-- The gzip header (RFC 1952): FEXTRA, FNAME and FCOMMENT skipped, FHCRC checked. -/
def gzipHeader (xs : List Nat) : Header :=
  if xs.length < 10 then .more
  else
    let flg := nth xs 3
    if nth xs 0 ≠ 0x1F ∨ nth xs 1 ≠ 0x8B ∨ nth xs 2 ≠ 8 ∨ 32 ≤ flg then .bad
    else
      let r0 : Option (List Nat) := some (xs.drop 10)
      let r1 := if flg.testBit 2 then r0.bind fun r =>
          if r.length < 2 then none
          else let n := nth r 0 + 256 * nth r 1; if r.length < 2 + n then none else some (r.drop (2 + n))
        else r0
      let r2 := if flg.testBit 3 then r1.bind skipZ else r1
      let r3 := if flg.testBit 4 then r2.bind skipZ else r2
      match r3 with
      | none => .more
      | some r =>
        if flg.testBit 1 then
          (if r.length < 2 then .more
           else
             let used := xs.length - r.length
             if nth r 0 + 256 * nth r 1 = crc32 0 (xs.take used) % 65536 then .ok (used + 2) none else .check)
        else .ok (xs.length - r.length) none

/-- What a prefix of a press stream's input decodes to, before its symbols are expanded: the symbols, how the DEFLATE
part ends, the trailer's check words once they are there, and the input bytes used to the stream's end. -/
structure Decoded where
  toks    : List Tok := []
  bad     : Bool := false
  check   : Bool := false
  dictId  : Option Nat := none
  ended   : Option Nat := none
  trailer : Option (Nat × Nat) := none
deriving DecidableEq, Repr

/-- The decoding of the input so far under a framing: 0 raw, 1 zlib, 2 gzip. -/
def decodeStream (framing : Nat) (xs : List Nat) : Decoded :=
  let h := match framing with | 1 => zlibHeader xs | 2 => gzipHeader xs | _ => .ok 0 none
  match h with
  | .more => {}
  | .bad => { bad := true }
  | .check => { check := true }
  | .ok n did =>
    let body := xs.drop n
    let bs := bitsOf body
    match readStream (bs.length + 1) 0 bs with
    | (t, .more) => { toks := t, dictId := did }
    | (t, .bad) => { toks := t, bad := true, dictId := did }
    | (t, .last used) =>
      let at_ := n + (used + 7) / 8
      let tl := match framing with | 1 => 4 | 2 => 8 | _ => 0
      if xs.length < at_ + tl then { toks := t, dictId := did }
      else
        let w := (xs.drop at_).take tl
        { toks := t, dictId := did, ended := some (at_ + tl),
          trailer := match framing with
            | 1 => some (beNat w, 0)
            | 2 => some (leNat (w.take 4), leNat (w.drop 4))
            | _ => none }

/-- Number of output bytes of a symbol. -/
def Tok.size : Tok → Nat
  | .lit _ => 1
  | .copy n _ => n

/-- The output bytes of symbols from output position pos on, at most limit: earlier bytes come from hist by position,
negative positions lying in the preset dictionary. None stands for a distance that reaches before the history. -/
def expand (hist : Int → Option Nat) (start : Nat) : Nat → List Tok → List Nat → Option (List Nat)
  | _, [], acc => some acc
  | pos, t :: rest, acc =>
    if pos + t.size ≤ start then expand hist start (pos + t.size) rest acc
    else
      match t with
      | .lit b => expand hist start (pos + 1) rest (acc ++ [b])
      | .copy n d =>
        let from_ := if pos < start then start - pos else 0
        let r := (List.range n).foldl (fun (o : Option (List Nat)) j =>
          match o with
          | none => none
          | some a =>
            if j < from_ then some a
            else
              let q : Int := (pos + j : Int) - d
              if q < start then (hist q).map fun b => a ++ [b] else some (a ++ [nth a (q.toNat - start)])) (some acc)
        match r with
        | none => none
        | some a => expand hist start (pos + n) rest a

/-- The bits of a stored block from bit position pos, not the last of its stream (RFC 1951, 3.2.4). -/
def storedBlock (pos : Nat) (xs : List Nat) : List Bool :=
  [false, false, false] ++ List.replicate ((8 - (pos + 3) % 8) % 8) false ++
    bitsOf (leBytes 2 xs.length ++ leBytes 2 (65535 - xs.length) ++ xs)

/-- Bits that are whole blocks, none the last, decode from bit position pos to the bytes xs, with back-references into
hist (R405, R406). -/
def blockDecodes (hist : Int → Option Nat) (start pos : Nat) (bs : List Bool) (xs : List Nat) : Bool :=
  match readBlock pos bs with
  | (false, t, .done []) => expand hist start start t [] == some xs
  | _ => false

/-- The last block of a compressed stream: an empty fixed block (BFINAL 1, type 1, end of block). -/
def finalBlock : List Bool := [true, true, false, false, false, false, false, false, false, false]

/-- Whole bytes of a bit list and the bits that are left. -/
def bytesOfBits : Nat → List Bool → List Nat × List Bool
  | 0, bs => ([], bs)
  | f + 1, bs => match takeBits 8 bs with
    | some (v, r) => let (x, q) := bytesOfBits f r; (v :: x, q)
    | none => ([], bs)

end Sys2Proof.Machine
end

