-- ==== Sys2Proof/Machine/Press.lean ====
section
/-!
DEFINITION. The press and cipher units (R391 to R422): the checks of a trigger, the streams of a tenant page, and one
piece of work of an operation.
-/

namespace Sys2Proof.Machine

/-- Bytes of a list of numbers. -/
def toBytes (xs : List Nat) : List Byte := xs.map (BitVec.ofNat 8)
/-- Numbers of a list of bytes. -/
def ofBytes (xs : List Byte) : List Nat := xs.map BitVec.toNat

/-- Bytes of a key by length code: 0 128, 1 192, 2 256, 3 512 bits (R394). -/
def keyBytes (len : Nat) : Nat := match len with | 0 => 16 | 1 => 24 | 2 => 32 | _ => 64
/-- The bytes of a key slot's key (R396). -/
def KeySlot.bytes (k : KeySlot) : List Nat := (k.words.flatMap fun w => leBytes 8 w.toNat).take (keyBytes k.len)
/-- The key slot that CIPHER_CFG selects. -/
def Tenant.keySlot (t : Tenant) (n : Nat) : KeySlot := tget {} t.keys n

/-- Fields of CIPHER_CFG (R394). -/
def cfgMode (c : Word) : Nat := bits c.toNat 0 2
/-- KEYSIZE. -/
def cfgKeySize (c : Word) : Nat := bits c.toNat 2 2
/-- SLOT. -/
def cfgSlot (c : Word) : Nat := bits c.toNat 4 1
/-- TAG_LEN. -/
def cfgTagLen (c : Word) : Nat := bits c.toNat 8 5
/-- XTS data-unit size in bytes. -/
def cfgDu (c : Word) : Nat := 2 ^ bits c.toNat 16 4
/-- AAD_LEN. -/
def cfgAad (c : Word) : Nat := bits c.toNat 32 32

/-- The configuration does not fit the mode, or the key's length does not (R404). -/
def cipherConfigBad (c : Word) (k : KeySlot) : Bool :=
  let m := cfgMode c
  let ks := cfgKeySize c
  let want := match ks with | 0 => 16 | 1 => 24 | _ => 32
  ks == 3 || (m == 2 && !between 12 16 (cfgTagLen c)) || (m == 3 && (!between 9 16 (bits c.toNat 16 4) || ks == 1)) ||
    (k.loaded && keyBytes k.len != (if m = 3 then 2 * want else want))

/-- FRAMING, LEVEL, USE_DICT and DICT_LEN of PRESS_CFG (R394). -/
def pFraming (c : Word) : Nat := bits c.toNat 0 2
/-- LEVEL. -/
def pLevel (c : Word) : Nat := bits c.toNat 2 2
/-- Dictionary bytes in use. -/
def pDict (c : Word) : Nat := if c.getLsbD 4 then bits c.toNat 16 16 else 0
/-- A press configuration with a reserved value, or a dictionary with gzip framing (R394, R406). -/
def pressConfigBad (c : Word) : Bool :=
  pFraming c == 3 || decide (32768 < bits c.toNat 16 16) || (pFraming c == 2 && c.getLsbD 4)

/-- The tenant page and generation of a CONTEXT word (R139; log 16). -/
def ctxPage (c : Word) : Nat := bits c.toNat 0 12
/-- The generation. -/
def ctxGen (c : Word) : Nat := bits c.toNat 32 32
/-- The CONTEXT word of a page. -/
def State.ctxWord (s : State) (pg : Nat) : Word := BitVec.ofNat 64 (pg + (s.tenant pg).gen * 2 ^ 32)

/-- The state of a skein's press (18) or cipher (19) unit (R420). -/
def Skein.pcState (z : Skein) (u : Nat) : Nat := if u = 18 then z.press else z.cipher
/-- A unit is out of service or not enabled (R419, R421). -/
def State.pcFailed (s : State) (k u : Nat) : Bool :=
  (s.sk k).pcState u == 3 || !bitAt (s.param 0x0D01 k) (u - 18)

/-- The code that ends an operation with nothing done, in the order of R400; 0 when the unit runs it. sock is 4 or 5, or
6 for FINISH, which opens no stream. -/
def State.pcCode (s : State) (i k u sock pg len : Nat) : Nat :=
  let t := s.tenant pg
  let part := (s.partOf i).getD 0
  let owner := s.param 0x0D10 pg
  let pst := t.press.st
  let cst := t.cipher.st
  let opening := sock != 6 && (if u = 18 then pst == 0 else cst == 0)
  let ccfg := if cst = 0 then t.cipherCfg else t.cipher.cfg
  if owner = 0 ∨ owner ≠ part then 0x0D
  else if t.frozen then 0x0C
  else if s.pcFailed k u then 0x0F
  else if u = 19 ∧ !(s.sk k).entropyOk then 0x10
  else if t.poisoned then 0x0E
  else if (u = 18 ∧ sock = 4 ∧ 2 ≤ pst) ∨ (u = 18 ∧ sock = 5 ∧ pst = 1) ∨ (u = 19 ∧ sock = 4 ∧ cst = 2) ∨
      (u = 19 ∧ sock = 5 ∧ cst = 1) then 0x0B
  else if opening && (if u = 18 then pressConfigBad t.pressCfg else cipherConfigBad t.cipherCfg (t.keySlot (cfgSlot t.cipherCfg)))
    then 0x06
  else if opening && u == 19 && !(t.keySlot (cfgSlot t.cipherCfg)).loaded then 0x07
  else if u = 18 ∧ sock ≠ 6 ∧ (if pst = 0 then t.hist else (match t.press.hist with | some c => some c | none => t.hist)) = none then 0x08
  else if sock ≠ 6 ∧ (2 ^ 32 ≤ len ∨ (u = 19 ∧ ((cfgMode ccfg = 0 ∧ len % 16 ≠ 0) ∨ (cfgMode ccfg = 3 ∧ len % cfgDu ccfg ≠ 0)))) then 0x05
  else 0

/-- The header a compressed stream begins with (R406); xfl is the gzip XFL byte, which the spec does not fix. -/
def pressHeader (cfg : Word) (dictAdler xfl : Nat) : List Nat :=
  match pFraming cfg with
  | 1 =>
    let fd := b2n (cfg.getLsbD 4)
    let flg := pLevel cfg * 64 + fd * 32
    let chk := (31 - (0x78 * 256 + flg) % 31) % 31
    [0x78, flg + chk] ++ (if fd = 1 then beBytes 4 dictAdler else [])
  | 2 => [0x1F, 0x8B, 8, 0, 0, 0, 0, 0, xfl, 255]
  | _ => []

/-- The running check of a framing over more bytes: Adler-32 for zlib, CRC-32 for gzip (R394). -/
def pressCheckOver (cfg : Word) (c : Nat) (xs : List Nat) : Nat :=
  match pFraming cfg with
  | 1 => adler32 c xs
  | 2 => crc32 c xs
  | _ => 0

/-- A press stream as it opens (R395). -/
def openPress (t : Tenant) (compress : Bool) (dictAdler xfl : Nat) : PressStream :=
  { st := if compress then 1 else 2, cfg := t.pressCfg, hist := t.hist,
    check := if pFraming t.pressCfg = 1 then 1 else 0,
    carry := if compress then bitsOf (pressHeader t.pressCfg dictAdler xfl) else [], code := t.press.code }
/-- A cipher stream as it opens (R395). -/
def openCipher (t : Tenant) (enc : Bool) : CipherStream :=
  let k := (t.keySlot (cfgSlot t.cipherCfg)).bytes
  { st := if enc then 1 else 2, cfg := t.cipherCfg, iv := t.iv, key := toBytes k, chain := t.iv, code := t.cipher.code }

/-- COMPRESS over a piece of input: bytes collect in the open block, which ends at the first progress point with at
least 2,048 of them and at the end of the operation; the block is free among those that decode to the input and no
longer than a stored block (R405, R406; log 11). The stream and the output bytes. -/
def compressPiece (st : PressStream) (hist : Int → Option Nat) (xs : List Nat) (atEnd : Bool) (n : Nat) :
    PressStream × List Nat :=
  let blk := ofBytes st.blk ++ xs
  let pos := st.carry.length
  let start := st.inTot - st.blk.length
  let emit := decide (2048 ≤ blk.length) || atEnd
  let stored := storedBlock pos blk
  let cand := Config.deflateBlock n
  let body := if blk.isEmpty then []
    else if pLevel st.cfg ≠ 0 ∧ cand.length ≤ stored.length ∧ blockDecodes hist start pos cand blk then cand else stored
  let all := if emit then st.carry ++ body else st.carry
  let (out, rest) := if emit then bytesOfBits (all.length + 1) all else ([], all)
  ({ st with carry := rest, blk := if emit then [] else toBytes blk, inTot := st.inTot + xs.length,
             outTot := st.outTot + out.length, check := pressCheckOver st.cfg st.check xs }, out)

/-- DECOMPRESS over a piece of input: the stream, the output bytes, the input bytes used, and the code that ends the
operation, if one does; dictAdler is the Adler-32 of the loaded dictionary, none when none is in use (R400, R406). -/
def decompressPiece (st : PressStream) (hist : Int → Option Nat) (dictAdler : Option Nat) (xs : List Nat) :
    PressStream × List Nat × Nat × Option Nat :=
  if st.st = 3 then (st, [], 0, if xs.isEmpty then none else some 0x01)
  else
    let input := ofBytes st.input ++ xs
    let d := decodeStream (pFraming st.cfg) input
    let idle : PressStream := { st with st := 0, input := [] }
    match d.dictId with
    | some id => if dictAdler ≠ some id then (idle, [], xs.length, some 0x09) else go d input idle
    | none => go d input idle
where
  /-- The symbols expanded and the trailer compared. -/
  go (d : Decoded) (input : List Nat) (idle : PressStream) : PressStream × List Nat × Nat × Option Nat :=
    if d.check then (idle, [], xs.length, some 0x03)
    else
      match expand hist st.outTot 0 d.toks [] with
      | none => (idle, [], xs.length, some 0x02)
      | some out =>
        let chk := pressCheckOver st.cfg st.check out
        let tot := st.outTot + out.length
        let st1 : PressStream := { st with check := chk, outTot := tot }
        if d.bad then (idle, out, xs.length, some 0x02)
        else match d.ended with
          | none => ({ st1 with input := toBytes input, inTot := st.inTot + xs.length }, out, xs.length, none)
          | some at_ =>
            let used := at_ - st.inTot
            let ok := match pFraming st.cfg, d.trailer with
              | 1, some (a, _) => a == chk
              | 2, some (c, n) => c == chk && n == tot % 2 ^ 32
              | _, _ => true
            if !ok then (idle, out, used, some 0x03)
            else ({ st1 with st := 3, input := toBytes (input.take at_), inTot := at_ }, out, used,
                  if used < xs.length then some 0x01 else none)

/-- ENCRYPT or DECRYPT over a piece of input (R404, R407). -/
def cipherPiece (st : CipherStream) (xs : List Nat) : CipherStream × List Nat :=
  let key := ofBytes st.key
  let iv := leBytes 16 st.iv.toNat
  let enc := st.st = 1
  let fin (s : CipherStream) (out : List Nat) : CipherStream × List Nat := ({ s with total := st.total + xs.length }, out)
  match cfgMode st.cfg with
  | 0 =>
    let (o, c) := if enc then cbcEnc key (leBytes 16 st.chain.toNat) xs else cbcDec key (leBytes 16 st.chain.toNat) xs
    fin { st with chain := BitVec.ofNat 128 (leNat c) } o
  | 1 => fin st (ctrCrypt key iv st.total xs)
  | 2 =>
    let h := ghKey key
    let aad := cfgAad st.cfg
    let na := min xs.length (aad - st.total)
    let (a1, p1) := ghUpdate h st.hash.toNat (ofBytes st.part) (xs.take na)
    let done := st.total + na
    let (a2, p2) := if done = aad ∧ 0 < na ∧ !p1.isEmpty then (ghBlock h a1 p1, []) else (a1, p1)
    let ys := xs.drop na
    let zs := gcmCrypt key iv (done - aad) ys
    let (a3, p3) := ghUpdate h a2 p2 (if enc then zs else ys)
    fin { st with hash := BitVec.ofNat 128 a3, part := toBytes p3 } (xs.take na ++ zs)
  | _ =>
    let du := cfgDu st.cfg
    let h := key.length / 2
    let block (pos : Nat) (b : List Nat) : List Nat :=
      let t0 := leNat (aesEnc (key.drop h) (leBytes 16 ((st.iv.toNat + pos / du) % 2 ^ 128)))
      let t := (List.range (pos % du / 16)).foldl (fun x _ => xtsDouble x) t0
      xtsGo enc (key.take h) [b] t
    let bs := chunks 16 xs
    fin st (((List.range bs.length).map fun j => block (st.total + 16 * j) (bs.getD j [])).flatten)

/-- The GCM tag of a stream at its end (R403). -/
def streamTag (st : CipherStream) : List Nat :=
  let key := ofBytes st.key
  let aad := min st.total (cfgAad st.cfg)
  (gcmTag key (leBytes 16 st.iv.toNat) st.hash.toNat (ofBytes st.part) aad (st.total - aad)).take (cfgTagLen st.cfg)

/-- The rest of a compressed stream at FINISH: the last block and the trailer (R403, R406). -/
def pressTail (st : PressStream) : List Nat :=
  let all := st.carry ++ finalBlock
  let padded := all ++ List.replicate ((8 - all.length % 8) % 8) false
  let body := (bytesOfBits (padded.length + 1) padded).1
  body ++ (match pFraming st.cfg with
    | 1 => beBytes 4 st.check
    | 2 => leBytes 4 st.check ++ leBytes 4 (st.inTot % 2 ^ 32)
    | _ => [])

/-- How many of n bytes from a the capability and the map admit, and the class, cause and address of the first that they
do not (R141). -/
def State.admitted (s : State) (c : Cap) (perm a n : Nat) : Nat × Option (Nat × Nat × Nat) :=
  let stop (cls code m : Nat) : Nat × Option (Nat × Nat × Nat) := (m, some (cls, code, a + m))
  if n = 0 then (0, none)
  else if !c.tag then stop 2 0x01 0
  else if capKind c ≠ 0 then stop 2 0x02 0
  else
    let cover := if capBase c ≤ a then capBase c + capLen c - a else 0
    if cover = 0 then stop 2 0x03 0
    else if !capHas c perm then stop 2 0x04 0
    else
      let mapped := if a < s.installed then s.localReach a - a else s.cxlReach 16 a - a
      if mapped < min n cover then stop 3 (if s.addrKind (a + mapped) = .register then 0x21 else 0x20) mapped
      else if cover < n then stop 2 0x03 cover
      else (n, none)

/-- Lines, each wanted for reading or for writing, in a place's ply; else the state in which the skein asks for them. -/
def State.wantAll (s : State) (h : Place) (ls : List (Nat × Bool)) : Bool × State :=
  let (ok, t) := ls.foldl (fun (b, t) e =>
    let (c, u) := if e.2 then t.wantOwned h e.1 else t.wantShared h e.1 false
    (b && c, u)) (true, s)
  (ok && ls.all fun e => (t.skl h.skein e.1).held && (!e.2 || (t.skl h.skein e.1).own != .shared), t)

/-- A unit's write of bytes from address a to memory lines the skein owns, in an operation whose output began at `start`
(R115, R182, R224, R401). -/
def State.unitWrite (s : State) (h : Place) (start a : Nat) (xs : List Nat) : State :=
  foldS (linesOf a xs.length) (fun l t =>
    let lo := max a (128 * l)
    let hi := min (a + xs.length) (128 * l + 128)
    let part := (xs.drop (lo - a)).take (hi - lo)
    t.writeOwned h.skein h.ply l (wholeBy start (a + xs.length) l
      (linePut (t.skl h.skein l).val (lo % 128) (hi - lo) (leNat part)))) s

/-- The byte that the skein holds at an address. -/
def State.heldByte (s : State) (k a : Nat) : Nat := lineGet (s.skl k (lineOf a)).val (a % 128) 1
/-- The bytes the skein holds from an address. -/
def State.heldBytes (s : State) (k a n : Nat) : List Nat := (List.range n).map fun j => s.heldByte k (a + j)

/-- A history byte by its position in the stream: the ring modulo 32 KiB, negative positions in the preset dictionary,
which follows the ring (R398). -/
def State.histByte (s : State) (k : Nat) (c : Cap) (dict : Nat) (q : Int) : Option Nat :=
  if 0 ≤ q then some (s.heldByte k (capBase c + q.toNat % 32768))
  else
    let back := (-q).toNat
    if back ≤ dict then some (s.heldByte k (capBase c + 32768 + (dict - back))) else none

/-- The ring written with bytes that stand from position pos of the stream (R398). -/
def State.ringWrite (s : State) (h : Place) (c : Cap) (pos : Nat) (xs : List Nat) : State :=
  foldS (List.range xs.length) (fun j t =>
    let a := capBase c + (pos + j) % 32768
    t.writeOwned h.skein h.ply (lineOf a) (linePut (t.skl h.skein (lineOf a)).val (a % 128) 1 (nth xs j))) s

/-- The unit is powered; else its start beads are requested (R392, R23). -/
def State.pcPower (s : State) (k u : Nat) : Bool × State :=
  match (s.sk k).pcState u with
  | 1 => (true, s)
  | 0 =>
    let s1 := s.modSk k fun z => if u = 18 then { z with press := 2 } else { z with cipher := 2 }
    (false, s1.askBeads k 4 (32 * (if u = 18 then 3 else 4)) (.pcUnit k (u == 19)))
  | _ => (false, s)

/-- The pages whose operations run on a unit of skein k (R391). -/
def State.pcBusy (s : State) (k u : Nat) : Nat :=
  (s.tenants.filter fun e => match (if u = 18 then e.2.busyP else e.2.busyC) with
    | some j => s.skeinOf j == some k
    | none => false).length

/-- The holder gives a page's context back to the hub's store (R409). -/
def State.pcGive (s : State) (k : Nat) (u : PcUnit) (pg : Nat) : State :=
  let s1 := s.modTenant pg fun t => match u with
    | .press => { t with pHolder := none }
    | .cipher => { t with cHolder := none }
  let held := match u with | .press => (s1.tenant pg).cHolder == some k | .cipher => (s1.tenant pg).pHolder == some k
  s1.modSk k fun z =>
    let z := match u with
      | .press => { z with pCache := z.pCache.filter (· != pg) }
      | .cipher => { z with cCache := z.cCache.filter (· != pg) }
    if held then z else { z with ctxDirty := z.ctxDirty.filter (· != pg) }

/-- The contexts that skein k's unit caches, the least recently used first. -/
def Skein.pcCached (z : Skein) (u : Nat) : List Nat := if u = 18 then z.pCache else z.cCache

/-- The unit's context cache has, or makes, room for the page: a full cache gives up its least recently used idle context, and one
whose idle contexts are all modified waits for a fasten (R409). -/
def State.pcRoom (s : State) (k u pg : Nat) : Bool × State :=
  let z := s.sk k
  let old := z.pcCached u
  let idle (q : Nat) : Bool := (if u = 18 then (s.tenant q).busyP else (s.tenant q).busyC).isNone
  if old.contains pg ∨ old.length < 16 then (true, s)
  else match old.find? fun q => idle q && (z.loose || !z.ctxDirty.contains q) with
    | some q => (true, s.pcGive k (if u = 18 then .press else .cipher) q)
    | none => (false, s.requestFasten k)

/-- The page enters the unit's context cache as most recent (R409). -/
def State.pcCache (s : State) (k u pg : Nat) : State :=
  s.modSk k fun z =>
    let kept := (z.pcCached u).filter (· != pg)
    if u = 18 then { z with pCache := kept ++ [pg] } else { z with cCache := kept ++ [pg] }

/-- The tenant page's context is taken by skein k's unit, or another skein holds it and the operation waits (R409). -/
def State.pcHold (s : State) (i k u pg : Nat) : Bool × State :=
  let t := s.tenant pg
  let holder := if u = 18 then t.pHolder else t.cHolder
  let busy := if u = 18 then t.busyP else t.busyC
  if (busy.isSome ∧ busy ≠ some i) ∨ (holder.isSome ∧ holder ≠ some k) ∨ (busy.isNone ∧ 4 ≤ s.pcBusy k u) then (false, s)
  else match s.pcRoom k u pg with
  | (false, s) => (false, s)
  | (true, s) =>
    let hit := if u = 18 then (s.sk k).pCache.contains pg else (s.sk k).cCache.contains pg
    let s1 := if hit then s else s.setParam 0x0D12 k (satBits 64 (s.param 0x0D12 k + 1))
    let s2 := s1.modTenant pg fun t =>
      if u = 18 then { t with busyP := some i, pHolder := some k } else { t with busyC := some i, cHolder := some k }
    (true, (s2.pcCache k u pg).modSk k fun z => { z with ctxDirty := if z.ctxDirty.contains pg then z.ctxDirty else pg :: z.ctxDirty })

/-- The operation on the page no longer runs, and the unit is idle from here on unless another does (R392); on a Loose skein the registers show its streams at once (R395). -/
def State.pcRelease (s : State) (k u pg : Nat) : State :=
  let loose := (s.sk k).loose
  (s.modSk k fun z => if u = 18 then { z with pIdleAt := s.time } else { z with cIdleAt := s.time }).modTenant pg fun t =>
    if u = 18 then { t with busyP := none, shP := if loose then t.press else t.shP }
    else { t with busyC := none, shC := if loose then t.cipher else t.shC }

/-- An operation's code enters LAST_CODE (R400). -/
def State.pcLast (s : State) (u pg code : Nat) : State :=
  s.modTenant pg fun t =>
    if u = 18 then { t with press := { t.press with code := code } } else { t with cipher := { t.cipher with code := code } }

/-- Effects of a code that ends an operation before it runs: CONTEXT_POISONED leaves the streams idle (R400, R410). -/
def State.pcRefuse (s : State) (u pg code : Nat) : State :=
  let s1 := if code = 0x0E then s.modTenant pg fun t =>
      { t with poisoned := false, press := { t.press with st := 0 }, cipher := { t.cipher with st := 0 } }
    else s
  if code = 0x0D then s1 else s1.pcLast u pg code

/-- FINISH performed at its completion (R403): the code, OUT_DONE and the state; none while it waits. DESIGN CHOICE (log 28): an
expected tag that SRC or the map does not cover whole is a mismatch. -/
def State.pcFinish (s : State) (i : Nat) (h : Place) (u pg : Nat) (src dst : Cap) : Option (Nat × Nat × State) × State :=
  let k := h.skein
  match s.pcPower k u with
  | (false, s1) => (none, s1)
  | (true, s1) =>
    let code := s1.pcCode i k u 6 pg 0
    if code ≠ 0 then (some (code, 0, s1.pcRefuse u pg code), s1)
    else match s1.pcHold i k u pg with
      | (false, s2) => (none, s2)
      | (true, s2) =>
        let t := s2.tenant pg
        let done (code n : Nat) (v : State) : Option (Nat × Nat × State) := some (code, n, (v.pcLast u pg code).pcRelease k u pg)
        if u = 18 then
          let close (v : State) : State := v.modTenant pg fun t => { t with press := { t.press with st := 0, input := [], blk := [], carry := [] } }
          match t.press.st with
          | 1 =>
            let out := pressTail t.press
            match s2.wantAll h ((linesOf (capBase dst) out.length).map fun l => (l, true)) with
            | (false, s3) => (none, s3)
            | (true, s3) =>
              let s4 := s3.unitWrite h (capBase dst) (capBase dst) out
              (done 0 out.length (close (s4.modTenant pg fun t => { t with press := { t.press with outTot := t.press.outTot + out.length } })), s3)
          | 2 => (done 0x0A 0 (close s2), s2)
          | 3 => (done 0 0 (close s2), s2)
          | _ => (done 0 0 s2, s2)
        else
          let close (v : State) : State := v.modTenant pg fun t => { t with cipher := { t.cipher with st := 0, key := [] } }
          let c := t.cipher
          if c.st = 0 then (done 0 0 s2, s2)
          else if cfgMode c.cfg ≠ 2 then (done 0 0 (close s2), s2)
          else
            let tag := streamTag c
            let n := tag.length
            if c.st = 1 then
              match s2.wantAll h ((linesOf (capBase dst) n).map fun l => (l, true)) with
              | (false, s3) => (none, s3)
              | (true, s3) => (done 0 n (close (s3.unitWrite h (capBase dst) (capBase dst) tag)), s3)
            else
              let n1 := (s2.admitted src pLOAD (capBase src) n).1
              match s2.wantAll h ((linesOf (capBase src) n1).map fun l => (l, false)) with
              | (false, s3) => (none, s3)
              | (true, s3) => (done (if s3.heldBytes k (capBase src) n1 = tag then 0 else 0x04) 0 (close s3), s3)

end Sys2Proof.Machine
end

