-- ==== Sys2Proof/Machine/LongOp.lean ====
section
/-!
DEFINITION. Long operations (R72, R139 to R141, R155): one piece of a block, press or cipher operation between two
progress points, its stops, and the completion that retires the trigger's bundle. A piece ends at the latest at the next
4 KiB of data from the start; under Constant-time mode progress points fall every 1,024 cycles only (R139, R412, R522).
-/

namespace Sys2Proof.Machine

/-- What one piece of a long operation does: the state; whether its lines were there; the class, cause and address at
which it stops (2 capability, 3 memory, 4 poison); the completion code that ends it. -/
structure LongRes where
  st   : State
  ok   : Bool := true
  stop : Option (Nat × Nat × Nat) := none
  code : Option Nat := none
deriving DecidableEq, Repr

/-- The progress of spindle i changed by f. -/
def State.modProgress (s : State) (i : Nat) (f : Progress → Progress) : State :=
  s.modSp i fun x => { x with arch := { x.arch with progress := f x.arch.progress } }

/-- The bytes of the first lines of a list that come before the first poisoned one, at most n, with that line's address
(R130). -/
def State.beforePoison (s : State) (k a n : Nat) : Nat × Option (Nat × Nat × Nat) :=
  match (linesOf a n).find? fun l => (s.skl k l).val.poison with
  | some l => (128 * l - a, some (4, 0, 128 * l))
  | none => (n, none)

/-- The bytes that an operation under Constant-time mode can do in the 1,024 cycles between two progress points: 32 or 64
in a cycle for BMOVE and BFILL (R522), as many as remain for a press or cipher operation. -/
def ctLimit (x : Spindle) : Nat :=
  if x.arch.progress.unit = 17 then (if x.longTrig = 4 then 32768 else 65536) else x.arch.progress.remain

/-- The bytes that the operation does before its next progress point (R30, R139, R412, R522): up to the next 4 KiB of data
from its start, or what 1,024 cycles have done under Constant-time mode, a free value (log 6) that leaves the operation's
end to its completion. -/
def pointBytes (x : Spindle) (free : Nat) : Nat :=
  let p := x.arch.progress
  if x.longCt then min (p.remain - 1) (Config.ctBytes free % (ctLimit x + 1)) else min p.remain (4096 - p.done % 4096)

/-- The piece to the operation's end is its last: no progress point falls before it. -/
def lastPiece (x : Spindle) : Bool :=
  let p := x.arch.progress
  decide (p.remain ≤ if x.longCt then ctLimit x else 4096 - p.done % 4096)

/-- A byte of BMOVE's source that the operation has itself overwritten before it reads it, by its place in the data: its
value is free (R522; log 27). -/
def selfWritten (p : Progress) (j : Nat) : Bool :=
  decide (capBase p.src < capBase p.dst ∧ capBase p.dst - capBase p.src < p.done + p.remain ∧
    capBase p.dst - capBase p.src ≤ j)

/-- The tags that BMOVE carries into line l of its destination, for the n bytes from address d (R115); a granule with bytes
of free value takes none, since every tagged granule is well formed (R110). -/
def State.movedTags (s : State) (k : Nat) (p : Progress) (l d n : Nat) : BitVec 8 :=
  let src := capBase p.src
  let dst := capBase p.dst
  if capHas p.src pLOADCAP && capHas p.dst pSTORECAP && src % 16 == dst % 16 && s.tagsHere (128 * l) then
    BitVec.ofNat 8 ((List.range 8).foldl (fun x g =>
      let a := 128 * l + 16 * g
      let b := a + src - dst
      x + b2n (decide (d ≤ a ∧ a + 16 ≤ d + n) && !selfWritten p (a + 15 - dst) &&
        (lineCap (s.skl k (lineOf b)).val (b % 128 / 16)).tag) * 2 ^ g) 0)
  else 0

/-- A piece of BMOVE or BFILL of at most `most` bytes (R115, R141, R522). BMOVE copies upward; a byte that it has itself
overwritten before it reads it is a free value (log 27). A line that the operation has by now written whole loses its poison
marker (R224). -/
def State.blkStep (s : State) (h : Place) (p : Progress) (move : Bool) (most : Nat) : LongRes × Nat :=
  let k := h.skein
  let a := capBase p.src + p.done
  let d := capBase p.dst + p.done
  let (n1, e1) := if move then s.admitted p.src pLOAD a most else (most, none)
  let (n2, e2) := s.admitted p.dst pSTORE d n1
  let srcLines := if move then (linesOf a n2).map fun l => (l, false) else []
  match s.wantAll h (srcLines ++ (linesOf d n2).map fun l => (l, true)) with
  | (false, s1) => ({ st := s1, ok := false }, 0)
  | (true, s1) =>
    let (n, e3) := if move then s1.beforePoison k a n2 else (n2, none)
    let xs := (List.range n).map fun j =>
      if !move then p.ustate.toNat % 256
      else if selfWritten p (p.done + j) then (Config.freeByte (s1.freeCtr + j)).toNat else s1.heldByte k (a + j)
    let s2 := foldS (linesOf d n) (fun l t =>
      let lo := max d (128 * l)
      let hi := min (d + n) (128 * l + 128)
      let v := wholeBy (capBase p.dst) (d + n) l
        (linePut (t.skl k l).val (lo % 128) (hi - lo) (leNat ((xs.drop (lo - d)).take (hi - lo))))
      let v := if move then { v with tags := if v.poison then 0 else v.tags ||| s1.movedTags k p l d n } else v
      t.writeOwned k h.ply l v) { s1 with freeCtr := s1.freeCtr + n }
    let stop := match e3 with
      | some e => some e
      | none => if n2 < n1 then e2 else e1
    ({ st := s2, stop := stop }, n)

/-- The output bytes so far and whether the operation has been admitted, of a press or cipher operation (R139). -/
def pcOut (p : Progress) : Nat := bits p.ustate.toNat 0 32
/-- The checks of R400 have passed and the page runs this operation. -/
def pcOpen (p : Progress) : Bool := p.ustate.getLsbD 32
/-- The unit-specific state of a press or cipher operation. -/
def pcState (out : Nat) (opened : Bool) : BitVec 1536 := BitVec.ofNat 1536 (out % 2 ^ 32 + b2n opened * 2 ^ 32)

/-- The lines of the history that a press stream may read or write: the ring as far as it is written and for n bytes
more, and the preset dictionary (R398). -/
def pressLines (hist : Cap) (cfg : Word) (pos n : Nat) : List (Nat × Bool) :=
  let b := capBase hist
  let read := linesOf b (min 32768 pos)
  let wr := if 32768 ≤ pos % 32768 + n then linesOf b 32768 else linesOf (b + pos % 32768) n
  (read.map fun l => (l, false)) ++ (wr.map fun l => (l, true)) ++
    ((linesOf (b + 32768) (pDict cfg)).map fun l => (l, false))

/-- The preset dictionary's Adler-32. -/
def State.dictAdler (s : State) (k : Nat) (hist : Cap) (cfg : Word) : Nat :=
  adler32 1 (s.heldBytes k (capBase hist + 32768) (pDict cfg))

/-- The operation is admitted on its page, in the order of R400, or ends with a code, or waits for the unit, the page or
the lines of the dictionary (R392, R395, R400, R408, R409). -/
def State.pcAdmit (s : State) (i : Nat) (h : Place) (p : Progress) (sock : Nat) : LongRes :=
  let k := h.skein
  let pg := ctxPage p.ctx
  match s.pcPower k p.unit with
  | (false, s1) => { st := s1, ok := false }
  | (true, s1) =>
    let code := s1.pcCode i k p.unit sock pg (p.done + p.remain)
    if code ≠ 0 then { st := s1.pcRefuse p.unit pg code, code := some code }
    else match s1.pcHold i k p.unit pg with
      | (false, s2) => { st := s2, ok := false }
      | (true, s2) =>
        let t := s2.tenant pg
        let opened (v : State) : LongRes := { st := v.modProgress i fun q => { q with ustate := pcState (pcOut q) true } }
        if p.unit = 19 then
          opened (if t.cipher.st = 0 then s2.modTenant pg fun u => { u with cipher := openCipher u (sock == 4) } else s2)
        else if t.press.st = 0 then
          let hist := t.hist.getD Cap.zero
          let dict := if pDict t.pressCfg = 0 then [] else linesOf (capBase hist + 32768) (pDict t.pressCfg)
          match s2.wantAll h (dict.map fun l => (l, false)) with
          | (false, s3) => { st := s3.pcRelease k p.unit pg, ok := false }
          | (true, s3) =>
            let xfl := (Config.freeByte s3.freeCtr).toNat
            opened ({ s3 with freeCtr := s3.freeCtr + 1 }.modTenant pg fun u =>
              { u with press := openPress u (sock == 4) (s3.dictAdler k hist t.pressCfg) xfl })
        else opened (s2.modTenant pg fun u => { u with press := { u.press with hist := match u.press.hist with
          | some c => some c
          | none => u.hist } })

/-- What a press or cipher stream makes of the next n input bytes: the tenant with its stream, the output, the input
used, the code that ends the operation. -/
def State.pcPiece (s : State) (k : Nat) (t : Tenant) (p : Progress) (a n : Nat) : Tenant × List Nat × Nat × Option Nat :=
  let xs := s.heldBytes k a n
  if p.unit = 19 then
    let (c, out) := cipherPiece t.cipher xs
    ({ t with cipher := c }, out, n, none)
  else
    let hist := t.press.hist.getD Cap.zero
    let hb := s.histByte k hist (pDict t.press.cfg)
    if t.press.st = 1 then
      let (c, out) := compressPiece t.press hb xs (decide (n = p.remain)) s.freeCtr
      ({ t with press := c }, out, n, none)
    else
      let dict := if pDict t.press.cfg = 0 then none else some (s.dictAdler k hist t.press.cfg)
      let (c, out, used, code) := decompressPiece t.press hb dict xs
      ({ t with press := c }, out, used, code)

/-- A piece of at most `most` input bytes of an admitted press or cipher operation (R141, R398 to R405, R415): input as far
as SRC, the map and poison allow, output as far as DST and the map allow. When DST ends first, the stream stands after the longest input whose
output fits, with the bytes that fit written (log 28). -/
def State.pcStep (s : State) (i : Nat) (h : Place) (p : Progress) (most : Nat) : LongRes :=
  let k := h.skein
  let pg := ctxPage p.ctx
  let t := s.tenant pg
  if (t.frozen || t.freezing) && !(s.sp i).freezeReq then { st := s, code := some 0x0C }
  else
    let a := capBase p.src + p.done
    let d := capBase p.dst + pcOut p
    let (n1, e1) := s.admitted p.src pLOAD a most
    let hist := t.press.hist.getD Cap.zero
    let pos := if t.press.st = 1 then t.press.inTot else t.press.outTot
    let ring := if p.unit = 18 then pressLines hist t.press.cfg pos (if t.press.st = 1 then n1 else 32768) else []
    match s.wantAll h (((linesOf a n1).map fun l => (l, false)) ++ ring) with
    | (false, s1) => { st := s1, ok := false }
    | (true, s1) =>
      match ring.find? fun e => (s1.skl k e.1).val.poison with
      | some e => { st := s1, stop := some (4, 0, 128 * e.1) }
      | none =>
        let (n, e2) := s1.beforePoison k a n1
        let full := s1.pcPiece k t p a n
        let (room, e3) := s1.admitted p.dst pSTORE d full.2.1.length
        match s1.wantAll h ((linesOf d room).map fun l => (l, true)) with
        | (false, s2) => { st := s2, ok := false }
        | (true, s2) =>
          let fits := decide (full.2.1.length ≤ room)
          let m := if fits then n
            else ((List.range n).reverse.find? fun m => decide ((s2.pcPiece k t p a m).2.1.length ≤ room)).getD 0
          let (t1, out, used, code) := if fits then full else s2.pcPiece k t p a m
          let s3 := s2.unitWrite h (capBase p.dst) d (full.2.1.take room)
          let s4 := if p.unit = 18 then
              s3.ringWrite h hist pos (if t.press.st = 1 then s2.heldBytes k a used else out)
            else s3
          let s5 := (s4.modTenant pg fun _ => t1).modProgress i fun q =>
            { q with done := q.done + used, remain := q.remain - used, ustate := pcState (pcOut q + out.length) true }
          { st := { s5 with freeCtr := s5.freeCtr + 1 }, code := if fits then code else none,
            stop := if !fits then e3 else if code.isSome then none else match e2 with
              | some e => some e
              | none => e1 }

/-- A piece of at most `most` bytes of the long operation that spindle i runs on place h. -/
def State.longPiece (s : State) (i : Nat) (h : Place) (most : Nat) : LongRes :=
  let x := s.sp i
  let p := x.arch.progress
  if p.unit = 17 then
    let (r, n) := s.blkStep h p (x.longTrig == 4) most
    { r with st := r.st.modProgress i fun q => { q with done := q.done + n, remain := q.remain - n } }
  else if pcOpen p then s.pcStep i h p most
  else s.pcAdmit i h p x.longTrig

/-- The operands of the DLDIV that spindle x runs, as a trigger and the sockets of unit 8. -/
def dldivTrig (x : Spindle) : Trig := { u := 8, sock := 14, mod := x.longMod, a := (x.arch.unit 8).o0 }

/-- The partial remainder of a DLDIV after n more quotient digits (R97, R139). -/
def dldivAfter (x : Spindle) (n : Nat) : Progress :=
  let p := x.arch.progress
  let m := min n p.remain
  { p with done := p.done + m, remain := p.remain - m,
           ustate := BitVec.ofNat 1536 (dldivNext (bits x.longMod 0 2) (x.arch.unit 8).o0.bits (x.arch.unit 8).o1.bits p.done
             p.ustate.toNat m) }

/-- The result of a finished long operation as a record (R65, R97, R401). DLDIV follows the modes that held when it was
triggered (R57, R104, R105). -/
def State.longRecord (s : State) (i code : Nat) : OpRec :=
  let x := s.sp i
  let p := x.arch.progress
  if p.unit = 8 then
    let t := dldivTrig x
    let w := x.arch.unit 8
    let r := opRecord t x.ba (computeOp t w x.longCt) x.longPrec (teOf w.st) (opMask t)
    match dldivResult (bits x.longMod 0 2) w.o0.bits w.o1.bits (dldivAfter x p.remain).ustate.toNat with
    | some v => { r with res := ⟨v, false⟩ }
    | none => r
  else
    { unit := p.unit, trig := x.longTrig, ba := x.ba, clrSt := 0xFF, orSt := BitVec.ofNat 64 code,
      res := capNum (if p.unit = 17 then p.done else p.done % 2 ^ 32 + pcOut p * 2 ^ 32) }

/-- The long operation ends with a completion code: its result and status are entered, its bundle retires, and a system
call that the bundle made falls due (R65, R72, R131, R401). -/
def State.longEnd (s : State) (i code : Nat) : State :=
  let x := s.sp i
  let p := x.arch.progress
  let r := s.longRecord i code
  let y := (x.complete r).retire x.longJump
  let s1 := s.setSp i { y with
    arch := { y.arch with progress := {} }, ops := x.ops, longOn := false, longTrig := 0, longSlot := 0, longMod := 0, longJump := none,
    longTrap := none, trapPend := x.longTrap, resume := false }
  if p.unit = 18 ∨ p.unit = 19 then
    match x.host with
    | some h => if pcOpen p then (s1.pcLast p.unit (ctxPage p.ctx) code).pcRelease h.skein p.unit (ctxPage p.ctx) else s1
    | none => s1
  else s1

/-- After an event at a progress point: when the spindle has left the operation, its page no longer runs it (R408). -/
def State.leftUnit (s : State) (i : Nat) (h : Place) (p : Progress) : State :=
  if (s.sp i).longOn || !(p.unit == 18 || p.unit == 19) || !pcOpen p then s else s.pcRelease h.skein p.unit (ctxPage p.ctx)

/-- The event that a stop raises, with the progress saved (R130, R141). -/
def State.longStop (s : State) (i : Nat) (e : Nat × Nat × Nat) : State :=
  let x := s.sp i
  let p := x.arch.progress
  let fa := BitVec.ofNat 64 e.2.2
  let s1 := if e.1 = 4 then (s.hwEntry i 0 { ba := x.ba, fa := fa, resume := true }).2
    else (s.deliver i (if e.1 = 2 then 4352 else 4353)
      { ba := x.ba, fa := fa, fi := faultInfo e.2.1 x.longSlot p.unit false, resume := true }).2
  match x.host with
  | some h => s1.leftUnit i h p
  | none => s1

/-- A progress point (R139, R155): the next piece, unless it is the last, and then the stop or the event that is due.
DLDIV counts quotient digits, two cycles each (R97). -/
def State.progressPoint (s : State) (i : Nat) : State :=
  let x := s.sp i
  match x.host with
  | none => s
  | some h =>
    let due (t : State) : State := match t.takeDue i x.ba true with
      | some u => u.leftUnit i h (t.sp i).arch.progress
      | none => t
    if x.arch.progress.unit = 8 then due (s.modProgress i fun _ => dldivAfter x 512)
    else if pcOpen x.arch.progress || x.arch.progress.unit == 17 then
      if lastPiece x && !x.longCt then due s
      else
        let r := { s with freeCtr := s.freeCtr + b2n x.longCt }.longPiece i h (pointBytes x s.freeCtr)
        match r.code, r.stop with
        | some c, _ => r.st.longEnd i c
        | none, some e => r.st.longStop i e
        | none, none => due r.st
    else
      let r := s.pcAdmit i h x.arch.progress x.longTrig
      match r.code with
      | some c => r.st.longEnd i c
      | none => due r.st

/-- The long operation's last piece, and its end (R72, R401); without its lines it goes on. -/
def State.longComplete (s : State) (i : Nat) : State :=
  let x := s.sp i
  match x.host with
  | none => s
  | some h =>
    if x.arch.progress.unit = 8 then s.longEnd i 0
    else
      let r0 : LongRes := if pcOpen x.arch.progress || x.arch.progress.unit == 17 then { st := s }
        else s.pcAdmit i h x.arch.progress x.longTrig
      match r0.code, r0.ok with
      | some c, _ => r0.st.longEnd i c
      | none, false => r0.st
      | none, true =>
        if !lastPiece (r0.st.sp i) then s
        else
          let r := r0.st.longPiece i h (r0.st.sp i).arch.progress.remain
          match r.code, r.stop, r.ok with
          | some c, _, _ => r.st.longEnd i c
          | none, some e, _ => r.st.longStop i e
          | none, none, true => r.st.longEnd i 0
          | none, none, false => r.st

end Sys2Proof.Machine
end

