-- ==== Sys2Proof/Machine/CacheOp.lean ====
section
/-!
DEFINITION. Cache operations in the L2 and L3 controllers (R225 to R233): range operations on the issuing skein, way
locks, and their result.
-/

namespace Sys2Proof.Machine

/-- The result of a cache operation (R230). -/
def cacheResult (lines locked code : Nat) : Cap :=
  capNum (satBits 24 lines + satBits 24 locked * 2 ^ 24 + code * 2 ^ 48)

/-- The ply whose L2 holds the line in a locked way, or the L3 does (R229, R232). -/
def State.lineLocked (s : State) (k l : Nat) : Bool :=
  let inWay (t : Tbl CacheSlot) (base : Nat) (locks : Tbl Nat) : Bool :=
    match findWay t base fun _ x => x.line == l + 1 with
    | some w => tget 0 locks w != 0
    | none => false
  ((List.range 20).any fun p => (s.skl k l).l2.getLsbD p && inWay (s.ply k p).l2 (l2Base l) (s.ply k p).l2Lock) ||
    inWay (s.sk k).l3 (l3Base l) (s.sk k).l3Lock

/-- The lines of a range that the skein holds, in ascending order (R227). -/
def State.heldIn (s : State) (k a n : Nat) : List Nat :=
  ((s.sk k).lines.filter fun e => decide (0 < n ∧ lineOf a ≤ e.1 ∧ e.1 ≤ lineOf (a + n - 1)) && e.2.held).map (·.1)

/-- DISCARD of one line: dropped with no writeback, its home told that the skein no longer holds it, the release sent
for a fastened-dirty line (R183, R228; log 24). -/
def State.discardLine (s : State) (k l : Nat) : State :=
  let f := (s.skl k l).fst
  let s1 := (s.forget k l).sendEvict k (homePacket k 0x06 l)
  if f = .fastenedDirty then s1.sendRelease k l else s1

/-- CLEAN, INVAL or DISCARD over the skein's lines of a range (R227 to R229): none while CLEAN or INVAL must first wait
for a fasten of an unfastened or closing line (R183). -/
def State.rangeOp (s : State) (k cop a n : Nat) : Option (State × Cap) :=
  let ls := s.heldIn k a n
  let waits := cop ≠ 2 && ls.any fun l => let f := (s.skl k l).fst; f == .unfastened || f == .closing
  if waits then none
  else
    let on := if cop = 0 then ls.filter fun l => (s.skl k l).dirty else ls
    let act (l : Nat) (t : State) : State :=
      match cop with | 0 => t.cleanLine k l | 1 => t.evictLine k l | _ => t.discardLine k l
    some (foldS on act s, cacheResult on.length (on.filter fun l => s.lineLocked k l).length 0)

/-- The locks of the level's ways. -/
def State.locksAt (s : State) (k p : Nat) (l3 : Bool) : Tbl Nat := if l3 then (s.sk k).l3Lock else (s.ply k p).l2Lock
/-- The lock of a way becomes v: a partition + 1, or 0. -/
def State.setLock (s : State) (k p : Nat) (l3 : Bool) (w v : Nat) : State :=
  if l3 then s.modSk k fun z => { z with l3Lock := tset 0 z.l3Lock w v }
  else s.modPly k p fun y => { y with l2Lock := tset 0 y.l2Lock w v }
/-- The way is powered and not reserved (R191, R232). -/
def State.wayOn (s : State) (k p : Nat) (l3 : Bool) (w : Nat) : Bool :=
  if l3 then (s.sk k).l3On.getLsbD w && ((s.sk k).loose || decide (w < 12)) else (s.ply k p).l2On.getLsbD w

/-- The way is neither reserved nor powered down, in a cache that is enabled (R232). -/
def State.wayUp (s : State) (k p : Nat) (l3 : Bool) (w : Nat) : Bool :=
  if l3 then
    let z := s.sk k
    z.l3State == 0 && z.l3On.getLsbD w && !z.l3Off.getLsbD w && (z.loose || decide (w < 12))
  else
    let y := s.ply k p
    y.l2State == 0 && y.l2On.getLsbD w && !y.l2Off.getLsbD w

/-- LOCK_WAY (R232): the code, and the state. -/
def State.lockWay (s : State) (k p part : Nat) (l3 : Bool) (w : Nat) : State × Nat :=
  let locks := s.locksAt k p l3
  let now := tget 0 locks w
  let held := ((List.range 16).filter fun v => tget 0 locks v != 0).length
  let free := ((List.range 16).filter fun v => v != w && s.wayOn k p l3 v && tget 0 locks v == 0).length
  if now = part + 1 then (s, 0)
  else if now ≠ 0 then (s, 1)
  else if s.param (if l3 then 0x0704 else 0x0703) 0 < held + 1 ∨ free < 4 then (s, 2)
  else if !s.wayUp k p l3 w then (s, 3)
  else (s.setLock k p l3 w (part + 1), 0)

/-- One line of a LOCK_FILL (R233): filled, left out because the way's slot holds another line, or awaited. -/
inductive FillStep where
  | filled | left | waits
deriving DecidableEq, Repr

/-- One line of a LOCK_FILL (R233): taken with exclusive ownership, it goes straight into its way, marked dirty; copies elsewhere in
the same cache move there, and those of other L2s go. -/
def State.lockFillLine (s : State) (k p : Nat) (l3 : Bool) (w l : Nat) : FillStep × State :=
  let base := if l3 then l3Base l else l2Base l
  let slots := if l3 then (s.sk k).l3 else (s.ply k p).l2
  let there := (tget {} slots (base + w)).line
  if there ≠ 0 ∧ there ≠ l + 1 then (.left, s)
  else
    let x := s.skl k l
    if !x.held || x.own == .shared then (.waits, s.ask k p l true false true)
    else if x.stalled then (.waits, s)
    else
      let put (t : Tbl CacheSlot) : Tbl CacheSlot := tset {} (dropSlot t base l) (base + w) ⟨l + 1, 2, false⟩
      let s1 := foldS ((List.range 20).filter fun q => x.l2.getLsbD q && (l3 || q != p)) (fun q t => t.l2Drop k q l) s
      let s2 := if l3 then (s1.modSk k fun z => { z with l3 := put z.l3 }).modSkl k l fun y => { y with l3 := true, buf := false }
        else (s1.modPly k p fun y => { y with l2 := put y.l2 }).modSkl k l fun y => { y with l2 := setPly y.l2 p true, buf := false }
      (.filled, s2.writeOwned k p l (s2.skl k l).val)

/-- LOCK_FILL over a range (R233): the state, whether a line is awaited, and how many lines were filled and left out. -/
def State.lockFill (s : State) (k p : Nat) (l3 : Bool) (w a n : Nat) : State × Bool × Nat × Nat :=
  (linesOf a n).foldl (fun (t, wait, full, out) l =>
    match t.lockFillLine k p l3 w l with
    | (.filled, u) => (u, wait, full + 1, out)
    | (.left, u) => (u, wait, full, out + 1)
    | (.waits, u) => (u, true, full, out)) (s, false, 0, 0)

/-- A cache operation's effect and result; none while it waits, with the state in which it waits (R183, R230). -/
def State.cacheEffect (s : State) (i : Nat) (h : Place) (cop a n w : Nat) (l3 : Bool) : Option Cap × State :=
  let k := h.skein
  let part := (s.partOf i).getD 0
  if cop ≤ 2 then
    match s.rangeOp k cop a n with
    | some (s1, r) => (some r, s1)
    | none => (none, s.requestFasten k)
  else if cop = 3 then
    let (s1, c) := s.lockWay k h.ply part l3 w
    (some (cacheResult 0 0 c), s1)
  else if tget 0 (s.locksAt k h.ply l3) w ≠ part + 1 then (some (cacheResult 0 0 5), s)
  else if cop = 5 then (some (cacheResult 0 0 0), s.setLock k h.ply l3 w 0)
  else if !s.wayUp k h.ply l3 w then (some (cacheResult 0 0 3), s)
  else
    match s.lockFill k h.ply l3 w a n with
    | (s1, true, _, _) => (none, s1)
    | (s1, false, full, out) => (some (cacheResult full full (if out = 0 then 0 else 6)), s1)

/-- The response to a serial output of spindle i, as the gate holds it while that output is the last it accepted (R188). -/
def State.holdResp (s : State) (i : Nat) (seq : BitVec 48) (v : BitVec 128) (timedOut : Bool) : State :=
  { s with home := { s.home with gate := tmod {} s.home.gate i fun g =>
      if g.seq = seq then { g with resp := v, done := true, timedOut := timedOut } else g } }

/-- A cache operation in flight. -/
def OpRec.isCacheop (r : OpRec) : Bool :=
  match r.kind with
  | .cacheop .. => true
  | _ => false

/-- CACHEOP_COMPLETE (R230, R231): the operation's effect in the controllers of the skein that issued it, once its serial
output has passed the gate, while that skein is there and the spindle is not frozen or suspended; the gate keeps the result
of a CLEAN or INVAL (R188). -/
def State.cacheComplete (s : State) (i : Nat) : State :=
  let x := s.sp i
  match x.ops.find? OpRec.isCacheop with
  | some r =>
    match r.kind with
    | .cacheop cop a n w l3 k p =>
      let held := s.fastened x && x.serials.any fun q => q.kind == .cacheop
      if held || !s.skeinUp k || x.frozen || x.suspended then s
      else
        match s.cacheEffect i ⟨k, p, 0⟩ cop a n w l3 with
        | (none, s1) => s1
        | (some c, s1) =>
          let s2 := s1.modSp i fun y => y.arrive r { r with res := c }
          if cop ≤ 1 then s2.holdResp i r.ser c.bits false else s2
    | _ => s
  | none => s

end Sys2Proof.Machine
end

