-- ==== Sys2Proof/Machine/Bundle.lean ====
section
/-!
DEFINITION. The issue of a bundle (R43, R50 to R62, R68 to R73, R78, R99 to R104, R127, R130, R131, R136 to R140): the
fetch, the stalls, the events that it raises in place of taking effect, its three phases, and what follows them.
-/

namespace Sys2Proof.Machine

/-- A move whose guard is true, with the value its source delivers (R50). -/
structure Live where
  slot : Nat := 0
  dst  : Nat
  pair : Bool := false
  mod  : Nat := 0
  src  : Option Nat := none
  val  : Cap
deriving DecidableEq, Repr

/-- The unit and trigger socket that the move triggers. -/
def Live.trigger (m : Live) : Option Trig :=
  match sockOf m.dst with
  | .unit u r => if 4 ≤ r then some { slot := m.slot, u := u, sock := r, mod := m.mod, a := m.val } else none
  | _ => none

/-- The guard of a move is true (R50, R54). -/
def Move.live (x : Spindle) (m : Move) : Bool := (x.arch.p ||| 1).getLsbD m.guard != m.neg

/-- A guard waits for a compare in flight that writes its predicate (R60). -/
def Move.guardWaits (x : Spindle) (m : Move) : Bool :=
  m.guard != 0 && x.ops.any fun r => r.unit == 16 && r.pred == m.guard

/-- The value a move delivers (R46, R48, R49, R59). -/
def State.moveValue (s : State) (i : Nat) (x : Spindle) (long : Option Word) (m : Move) : Cap :=
  let w := if m.pair && (sockOf m.dst).isG then Width.w128 else sockWidth (sockOf m.dst)
  match long with
  | some v => convertTo w false (ofWord v)
  | none =>
    if m.imm then convertTo w false ⟨immValue m.immV, false⟩
    else if m.pair && (sockOf m.src).isG then
      convertTo w false ⟨(x.arch.getG m.src).setWidth 128 ||| ((x.arch.getG (m.src + 1)).setWidth 128 <<< 64), false⟩
    else convertTo w (sockWidth (sockOf m.src) == .cap) (s.readSock i x (sockOf m.src))

/-- The live moves of a bundle with their values. -/
def State.liveMoves (s : State) (i : Nat) (x : Spindle) (b : Nat) : List Live :=
  ((bundleMoves b).filter (Move.live x)).map fun m =>
    { slot := m.slot, dst := m.dst, pair := m.pair, mod := m.mod,
      src := if m.imm || bundleKind b == 1 then none else some m.src, val := s.moveValue i x (longImm b) m }

/-- Phase 3 of R50 on one move: a destination that is no trigger is written. -/
def Live.write (m : Live) (x : Spindle) : Spindle :=
  if m.trigger.isSome then x
  else if m.pair && (sockOf m.dst).isG then x.writePair m.dst m.val
  else x.writeSock (sockOf m.dst) m.val

/-- The registers after phase 3 has written every destination that is no trigger. DESIGN CHOICE (log 91): where a PAIR move
to g(2k) and a move to g(2k+1) stand in one bundle, which R51 does not bar, the move of the later slot writes last. -/
def phase3 (x : Spindle) (ms : List Live) : Spindle := ms.foldl (fun y m => m.write y) x

/-- A move waits on the data plane (R60, R61, R99). -/
def Live.waits (x : Spindle) (m : Live) : Bool :=
  let busy (u : Nat) : Bool := x.ops.any fun r => r.unit == u
  (match m.src.map sockOf with
    | some (.unit u r) => (r == 2 || r == 3) && busy u
    | _ => false) ||
  (match sockOf m.dst with
    | .unit u r => (r == 2 || (r == 3 && between 4 8 u)) && busy u
    | _ => false)

/-- The events that a move raises by its sockets: a SYSTEM socket without the permission (R56), LOOP_DEPTH above 4
(R71), a poisoned result (R130). -/
def Live.fails (x : Spindle) (m : Live) : List Fail :=
  let sys (n : Nat) : Bool := match sockOf n with
    | .special k => specialSystem k
    | _ => false
  (if (sys m.dst || (m.src.map sys).getD false) && !capHas x.arch.codecap pSYSTEM then
    [{ cls := 2, slot := m.slot, code := 0x0A }] else []) ++
  (if m.dst = 0x16C ∧ 4 < (Cap64 m.val).toNat then [{ cls := 1, slot := m.slot, code := 0x13, fa := x.ba.toNat }] else []) ++
  (match m.src.map sockOf with
    | some (.unit u 2) => match (x.arch.unit u).poison with
      | some l => if u = 10 ∨ u = 11 then [{ cls := 4, slot := m.slot, code := 0, unit := u, fa := 128 * l }] else []
      | none => []
    | _ => [])

/-- The event first in the order of R78 and R136: the lowest class, then slot, then cause. -/
def firstFail (fs : List Fail) : Option Fail :=
  fs.foldl (fun best f => match best with
    | none => some f
    | some b =>
      if f.cls < b.cls ∨ (f.cls = b.cls ∧ (f.slot < b.slot ∨ (f.slot = b.slot ∧ f.code < b.code))) then some f else some b) none

/-- The descriptor index of an event class (R123). -/
def failIndex (cls : Nat) : Nat :=
  match cls with
  | 0 => 4355 | 1 => 4356 | 2 => 4352 | _ => 4353

/-- An event in place of the bundle at the boundary: nothing of the bundle has taken effect (R77, R127, R130), and a
resume that is pending leaves with the saved state (R126). -/
def State.raiseFail (s : State) (i : Nat) (f : Fail) : State :=
  let ba := (s.sp i).ba
  let rp := (s.sp i).resume
  let fa := BitVec.ofNat 64 f.fa
  if f.cls = 4 then (s.hwEntry i 0 { ba := ba, fa := fa, resume := rp }).2
  else (s.deliver i (failIndex f.cls)
    { ba := ba, fa := fa, fi := faultInfo f.code f.slot f.unit f.fetch, resume := rp }).2

/-- The pending imprecise record delivered in place of the bundle (R103). -/
def State.raisePending (s : State) (i : Nat) : State :=
  let x := s.sp i
  (s.deliver i 4354 { ba := x.ba, arith := some (x.arch.pendBa, x.arch.pendInfo), isPend := true, resume := x.resume }).2

/-- What a bundle's triggers do, gathered slot by slot. -/
structure Effects where
  x     : Spindle
  jump  : Option (Word × Cap) := none
  trap  : Option Nat := none
  eret  : Option Nat := none
  early : Bool := false
  gather : Bool := false
  ent   : Nat := 0
deriving DecidableEq, Repr

/-- One trigger started: the value becomes operand 0 (R58), and the unit starts. -/
def State.startTrig (s : State) (opq : Nat) (old : Spindle) (e : Effects) (t : Trig) : Effects :=
  let x := { e.x with arch := e.x.arch.modUnit t.u fun w => { w with o0 := t.a } }
  let ofStarted (r : Started) : Effects :=
    { e with x := r.x, jump := if r.jump.isSome then r.jump else e.jump, trap := if r.trap.isSome then r.trap else e.trap,
             eret := if r.eret.isSome then r.eret else e.eret, early := e.early || r.early, gather := e.gather || r.gather }
  if longTrigger t.u t.sock then
    let ctx := if t.u = 18 ∨ t.u = 19 then s.ctxWord (capOtype (x.arch.unit t.u).o1) else 0
    { e with x := startLong x t ctx old.arch.precise old.arch.constTime }
  else if t.u ≤ 9 ∨ t.u = 16 then { e with x := startCompute x t old.arch.precise old.arch.constTime }
  else if t.u = 10 ∨ t.u = 11 then { e with x := s.startLs x t }
  else if t.u = 12 then ofStarted (startCtl x t)
  else if t.u = 13 then ofStarted (startLoop x t)
  else if t.u = 14 then { e with x := startCap x t }
  else if t.u = 15 then
    let r := ofStarted ({ s with freeCtr := s.freeCtr + e.ent }.startSys x t)
    if t.sock = 9 then { r with ent := e.ent + 1 } else r
  else if 80 ≤ t.u then { e with x := s.startCop x t opq }
  else
    let pg := capOtype (x.arch.unit t.u).o1
    let k : OpKind := .finish pg (s.tenant pg).gen (x.arch.getC (bits t.mod 0 6)) (x.arch.getC (bits t.mod 6 6))
    let r : OpRec := { unit := t.u, trig := t.sock, ba := x.ba, kind := k }
    { e with x := { x with ops := x.ops ++ [r] } }

/-- The lines that a spindle's loads and atomics in flight lack are asked for, in order (R246). -/
def State.askOps (s : State) (i : Nat) (h : Place) : State :=
  foldS (s.sp i).ops (fun r t =>
    match r.kind with
    | .load a _ _ _ _ => if (t.skl h.skein (lineOf a)).held then t else t.askFor h (lineOf a) false
    | .atomic _ a _ _ _ _ =>
      let y := t.skl h.skein (lineOf a)
      if y.held && y.own != .shared then t else t.askFor h (lineOf a) true
    | _ => t) s

/-- What follows the issue: the gathering window of a serialising operation (R189), an early fasten (R190), the lines
asked for, and the stores performed as far as their lines allow. -/
def State.afterIssue (s : State) (i : Nat) (h : Place) (e : Effects) : State :=
  let open_ := e.gather || ((s.sp i).serial.isSome && !(s.sk h.skein).loose)
  let s1 := { s with freeCtr := s.freeCtr + e.ent }.modSk h.skein fun z =>
    { z with gather := if open_ && z.gather.isNone then some s.time else z.gather }
  let s2 := (s1.askOps i h).drain i
  if e.early then s2.requestFasten h.skein else s2

/-- What follows the bundle's moves: it retires, unless it started a long operation, whose end retires it (R68, R72). -/
def Spindle.retireOr (x : Spindle) (jump : Option (Word × Cap)) (trap : Option Nat) : Spindle :=
  if x.longOn then { x with longJump := jump, longTrap := trap } else { x.retire jump with trapPend := trap, resume := false }

/-- The bundle's moves performed: the three phases of R50 with the values given, and the retirement, the return or the
long operation that follow (R68, R72, R131, R138). DESIGN CHOICE (log 91): the other moves of an ERET bundle have taken
effect in the state that a return which fails saves in the slot, or that a double event keeps. -/
def State.perform (s : State) (i : Nat) (h : Place) (ms : List Live) (opq : Nat) : State :=
  let x := s.sp i
  let e := (ms.filterMap Live.trigger).foldl (s.startTrig opq x) { x := phase3 x ms }
  match e.eret with
  | some v =>
    let s1 := (s.setSp i e.x).afterIssue i h e
    if v = 0 ∨ v = 3 then (s1.eret0 i x.ba).2
    else if slotBusy e.x then
      if v = 2 then s1.eret2 i
      else if s1.tsbOk e.x then (s1.eret1 i).modSp i fun y => y.retireOr e.jump none
      else s1.eret1 i
    else
      let r : OpRec := { unit := 15, trig := 5, kind := .sync, ba := x.ba }
      s1.modSp i fun y => { y with ops := y.ops ++ [r] }.retireOr e.jump none
  | none =>
    let s1 := (s.setSp i (e.x.retireOr e.jump e.trap)).afterIssue i h e
    if e.trap.isSome && !e.x.longOn then (s1.takeEvents i).getD s1 else s1

/-- What a sync bundle does before anything else of it is looked at (R103, R136): it waits for the arithmetic in flight,
and a pending record is delivered in its place; none when it goes on. -/
def State.syncDue (s : State) (i : Nat) : Option State :=
  let x := s.sp i
  if x.ops.any fun r => r.arith then some s
  else if x.arch.pendInfo ≠ 0 then some (s.raisePending i)
  else none

/-- What comes before any bundle issues in Precise mode: at the boundary at which PRECISE became 1, the spindle waits for
the arithmetic triggered while it was 0, and delivers the pending record (R103, R104); none when the bundle goes on. -/
def State.preciseDue (s : State) (i : Nat) : Option State :=
  let x := s.sp i
  if !x.arch.precise then none
  else if x.ops.any fun r => r.imprec then some s
  else if x.arch.pendInfo ≠ 0 then some (s.raisePending i)
  else none

/-- The issue of a bundle's live moves: it stalls as a whole (R60), or an event is delivered in its place (R78, R136), or
it takes effect. -/
def State.issueLive (s : State) (i : Nat) (h : Place) (ms : List Live) (opq : Nat) : State :=
  let x := s.sp i
  let y := phase3 x ms
  let ts := ms.filterMap Live.trigger
  if ms.any (Live.waits x) || ts.any (s.trigWaits y) || y.overFull ts then s.drain i
  else
    match firstFail (ms.flatMap (Live.fails x) ++ ts.flatMap (s.trigFails i y)) with
    | some f => s.raiseFail i f
    | none =>
      let tsb := if (ts.any fun t => t.u == 15 && t.sock == 5 && (t.w.toNat % 4 == 0 || t.w.toNat % 4 == 3)) && s.tsbOk y
        then linesOf (capBase y.tsb) 6144 else []
      match s.wantLines h tsb false with
      | (false, s1) => s1
      | (true, s1) => s1.perform i h ms opq

/-- The fault of fetching the bundle at BA (R39, R40, R43, R112). -/
def State.fetchFail (s : State) (x : Spindle) : Option Fail :=
  let a := x.ba.toNat
  let f (cls code : Nat) : Option Fail := some { cls := cls, slot := 0, code := code, fa := a, fetch := true }
  match capUse x.arch.codecap a 16 [pEXEC] with
  | some c => f 2 c
  | none =>
    if s.addrKind a = .register then f 3 0x21
    else if !s.memRange a 16 then f 3 0x20
    else if a % 16 ≠ 0 then f 3 0x22 else none

/-- The long-operation triggers of a bundle: slot, unit, trigger socket and modifier. -/
def longMoves (b : Nat) : List (Nat × Nat × Nat × Nat) :=
  (bundleMoves b).filterMap fun m => match m.trigger with
    | some (v, r) => if longTrigger v r then some (m.slot, v, r, m.mod) else none
    | none => none

/-- The long-operation trigger, among those of the bundle at BA, with which the recorded operation goes on: one of the
unit recorded, whose page has still the recorded generation (R72, R140). -/
def State.resumeMove (s : State) (i : Nat) (ms : List (Nat × Nat × Nat × Nat)) : Option (Nat × Nat × Nat × Nat) :=
  let x := s.sp i
  let p := x.arch.progress
  if x.resume && !((p.unit == 18 || p.unit == 19) && ctxGen p.ctx != (s.tenant (ctxPage p.ctx)).gen) then
    ms.find? fun m => m.2.1 == p.unit
  else none

/-- The recorded operation goes on with trigger m, under the modes that now hold (R72, R140). DESIGN CHOICE (log 91): a
transfer or a system call that the bundle had made before an event took it off the unit is not made again and is lost,
because R122 gives it no place in the image. -/
def State.resumeLong (s : State) (i : Nat) (m : Nat × Nat × Nat × Nat) : State :=
  let x := s.sp i
  let p := x.arch.progress
  let q := if p.unit = 18 ∨ p.unit = 19 then { p with ustate := pcState (pcOut p) false } else p
  s.setSp i { x with longOn := true, longSlot := m.1, longTrig := m.2.2.1, longMod := m.2.2.2, longPrec := x.arch.precise,
                     longCt := x.arch.constTime, resume := false, longJump := none, longTrap := none,
                     arch := { x.arch with progress := q } }

/-- A resume that no trigger of the bundle at BA takes up is dropped, and the bundle issues as a new one (R140). -/
def State.dropResume (s : State) (i : Nat) : State :=
  s.modSp i fun y => if y.resume then { y with resume := false, arch := { y.arch with progress := {} } } else y

/-- The bundle that the command's word must go through before its moves issue, with b the bundle at BA: a sync bundle's
pending record (R103), the event of an illegal encoding (R77, R78), a recorded long operation that goes on (R140), a guard
that waits (R60); none when its moves issue. -/
def State.issueWord (s : State) (i : Nat) (b : Nat) : Option State :=
  let x := s.sp i
  let syncs := if bundleKind b = 3 then [] else (bundleMoves b).filter fun m =>
    match m.trigger with
    | some (u, r) => syncTrigger u r
    | none => false
  let due := x.arch.pendInfo != 0 || x.ops.any fun r => r.arith
  if (s.resumeMove i (longMoves b)).isNone && due && syncs.any (Move.guardWaits x) then some s
  else match (if (s.resumeMove i (longMoves b)).isNone && syncs.any (Move.live x) then s.syncDue i else none) with
    | some t => some t
    | none =>
      match illegalOf b with
      | some (slot, cause) =>
        let m := (bundleMoves b).find? fun m => m.slot == slot
        let n := (m.map fun m => if cause = 3 ∨ cause = 4 then m.src else m.dst).getD 0
        let unit := if n < 0x200 ∨ cause = 1 ∨ cause = 0xA then noUnit else (n - 0x200) / 16
        some ((if (s.resumeMove i (longMoves b)).isNone then s.dropResume i else s).raiseFail i
          { cls := 0, slot := slot, code := cause, unit := unit, fa := x.ba.toNat })
      | none => match s.resumeMove i (longMoves b) with
        | some m => some (s.resumeLong i m)
        | none => if (bundleMoves b).any (Move.guardWaits x) then some (s.dropResume i) else none

/-- The bundles that the fibre has fetched ahead once the bundle at BA issues: up to 8 of those that follow, as they were fetched
or as its L1I now holds them (R216). -/
def State.fetchAhead (s : State) (i : Nat) (h : Place) : List (Word × BitVec 128) :=
  let x := s.sp i
  (natsFrom 1 8).filterMap fun j =>
    let a := x.ba + BitVec.ofNat 64 (16 * j)
    let l := lineOf a.toNat
    match x.ahead.find? fun e => e.1 == a with
    | some e => some e
    | none => if (s.skl h.skein l).inL1 h.ply h.fibre true then
        some (a, BitVec.ofNat 128 (lineGet (s.viewLine i h l x.memSeq) (a.toNat % 128) 16)) else none

/-- The bundle at BA as it executes, b being its current bytes: one that was fetched ahead and has been written since executes
as its old or as its new bytes, whole, by a free choice (R216; log 94). -/
def State.fetched (s : State) (i : Nat) (h : Place) (b : Nat) : Nat × State :=
  let x := s.sp i
  let s1 := s.modSp i fun y => { y with ahead := s.fetchAhead i h }
  match x.ahead.find? fun e => e.1 == x.ba && e.2.toNat != b with
  | some e => (if Config.staleFetch s.freeCtr then e.2.toNat else b, { s1 with freeCtr := s.freeCtr + 1 })
  | none => (b, s1)

/-- A bundle's issue at BA when its KIND is the one the command names (R42 to R50); KIND 0b11 goes with the normal
one. -/
def State.issueBundle (s : State) (i kind : Nat) : State :=
  let x := s.sp i
  match s.canIssue i, x.host with
  | true, some h =>
    match s.takeEvents i with
    | some t => t
    | none =>
      match s.preciseDue i with
      | some t => t
      | none => match s.fetchFail x with
        | some f => s.raiseFail i f
        | none =>
          let l := lineOf x.ba.toNat
          match s.wantShared h l true with
          | (false, s1) => s1
          | (true, s1) =>
            let v := s1.viewLine i h l x.memSeq
            let (b, s1) := s1.fetched i h (lineGet v (x.ba.toNat % 128) 16)
            if v.poison then s1.raiseFail i { cls := 4, slot := 0, code := 0, fa := 128 * l, fetch := true }
            else if (if bundleKind b = 3 then 0 else bundleKind b) ≠ kind then s
            else match s1.issueWord i b with
              | some t => t
              | none =>
                let s2 := s1.dropResume i
                s2.issueLive i h (s2.liveMoves i (s2.sp i) b) (if kind = 2 then opaqueBits b else 0)
  | _, _ => s

/-- The socket number of a unit's socket (R55, R63). -/
def sockNum (u sock : Nat) : Nat := if 80 ≤ u then 0x700 + 16 * (u - 80) + sock else 0x200 + 16 * u + sock

/-- The issue of one trigger with its operand, and operand 1 where the command gives it, as a bundle at BA that holds
nothing else; a modifier that the trigger does not allow makes it an illegal bundle (R47, R77; log 8), and a long operation
of the unit that is recorded goes on in place of a new one (R140). -/
def State.issueMoves (s : State) (i u sock mod : Nat) (a : Cap) (b : Option Cap) : State :=
  let x := s.sp i
  match s.canIssue i, x.host with
  | true, some h =>
    match s.takeEvents i with
    | some t => t
    | none =>
      match (match s.preciseDue i with
        | some t => some t
        | none => if syncTrigger u sock then s.syncDue i else none) with
      | some t => t
      | none =>
        let slot := b2n b.isSome
        let long := if longTrigger u sock then [(slot, u, sock, mod)] else []
        if modMisuse u sock mod then
          (if (s.resumeMove i long).isNone then s.dropResume i else s).raiseFail i
            { cls := 0, slot := slot, code := 8, unit := u, fa := x.ba.toNat }
        else match s.resumeMove i long with
          | some m => s.resumeLong i m
          | none =>
            let s1 := s.dropResume i
            let m : Live := { dst := sockNum u sock, mod := mod, val := convertTo (unitWidth u 0) true a }
            s1.issueLive i h (match b with
              | some v => [{ dst := sockNum u 1, val := convertTo (unitWidth u 1) true v }, { m with slot := 1 }]
              | none => [m]) 0
  | _, _ => s

/-- The issue of one trigger whose only operand given is operand 0. -/
def State.issueTrig (s : State) (i u sock mod : Nat) (a : Cap) : State := s.issueMoves i u sock mod a none

/-- A FINISH of the page reads the expected tag of a GCM stream from SRC (R403). -/
def State.finishReads (s : State) (u pg : Nat) : Bool :=
  u == 19 && (s.tenant pg).cipher.st == 2 && cfgMode (s.tenant pg).cipher.cfg == 2

/-- UNIT_COMPLETION (R60): the oldest operation of the unit, a FINISH of the shared units among them (R403). A poisoned expected tag
poisons the result (R130, R402; log 28). -/
def State.unitDone (s : State) (i u : Nat) : State :=
  let x := s.sp i
  match x.frontOp u, x.host with
  | some r, some h =>
    match r.kind with
    | .finish pg _ src dst =>
      match s.pcFinish i h u pg src dst with
      | (none, s1) => s1
      | (some (code, out, s1), _) =>
        let tagLine := (linesOf (capBase src) (cfgTagLen (s.tenant pg).cipher.cfg)).find? fun l => (s.skl h.skein l).held && (s.skl h.skein l).val.poison
        let done : OpRec := { r with
          res := capNum (out * 2 ^ 32), clrSt := 0xFF, orSt := BitVec.ofNat 64 code,
          poison := if s.finishReads u pg then tagLine else none }
        s1.modSp i fun y => y.arrive r done
    | _ => s.completeUnit i u
  | _, _ => s

/-- What a completion makes possible: stores performed, the freeze point of a Loose spindle. -/
def State.afterDone (s : State) (i : Nat) : State := (s.drain i).park i

end Sys2Proof.Machine
end

