-- ==== Sys2Proof/Machine/Fasten.lean ====
section
/-!
DEFINITION. Fastening and doubling (R175 to R196, R200, R205, R526): the epoch tick and the barrier, the doubling of
lines and images into the buddy or the hub, the commit of an epoch and what it releases, the journal and the releases.
-/

namespace Sys2Proof.Machine

/-- The journal copy of a completed fasten that serves a line, the latest epoch's (R193). -/
def State.journalCopy (s : State) (l : Nat) : Option JEntry :=
  (s.home.journal.filter fun j => j.done && j.line == l).foldl (fun best j => match best with
    | none => some j
    | some b => if b.epoch < j.epoch then some j else some b) none

/-- The value that the home slice has for a line no skein owns: the journal copy, else what memory delivers (R193). -/
def State.homeVal (s : State) (l : Nat) : LineVal :=
  match s.journalCopy l with
  | some j => j.val
  | none => s.memRead l

/-- A line written by its home slice: journal copies of completed fastens are superseded (R193, R254). -/
def State.homeWrite (s : State) (l : Nat) (v : LineVal) : State :=
  let rest := s.home.journal.filter fun j => !(j.done && j.line == l)
  ({ s with home := { s.home with journal := rest } }.memWrite l v).modDir l fun d =>
    { d with journaled := rest.any fun j => j.line == l }

/-- The skein's doubling goes into its buddy (R178, R205), and not to the hub alone (R200, R526). -/
def State.toBuddy (s : State) (k : Nat) : Bool :=
  let z := s.sk k
  (z.pair == 0 || z.pair == 2) && !z.toHub && s.skeinUp (buddyOf k)

/-- The skein's doubling goes to the hub as R200 gives: that of a solo skein, and in the pairing state, where a loss is still
handled under R200, that into the buddy as well; not that of a pair that was Loose (R205, R208). -/
def State.toHub (s : State) (k : Nat) : Bool := !s.toBuddy k || ((s.sk k).pair == 2 && !(s.sk k).fromLoose)

/-- The gathering window of serialising outputs closes (R189): 64 ply cycles after the first request, or as soon as every
hosting spindle has an output pending. -/
def State.gatherClose (s : State) (k : Nat) : State :=
  match (s.sk k).gather with
  | none => s
  | some t =>
    if t + plyTicks (s.topStep k) 64 ≤ s.time ∨ (s.hosted k).all (fun i => (s.sp i).serial.isSome) then s.epochTick k else s

/-- The fasten doubles every fastened-dirty line as well: the first into a new buddy (R205), the first after the loss of
the buddy (R526). -/
def Skein.doublesAll (z : Skein) : Bool := (z.pair == 2 && !z.pairFirst) || z.toHub

/-- A tenant page's streams as they stand at the barrier, for the contexts that skein k holds (R178, R410). -/
def State.latchContexts (s : State) (k : Nat) : State :=
  foldS (s.sk k).ctxDirty (fun pg t => t.modTenant pg fun u =>
    { u with
             bP := if u.pHolder = some k then some u.press else u.bP,
             bC := if u.cHolder = some k then some u.cipher else u.bC }) s

/-- The barrier completes (R177): epoch e closes, e + 1 opens, the images are those of this instant, and the doubling
begins. Spindles of a freeze reach their freeze point (R31). -/
def State.barrierComplete (s : State) (k ns : Nat) : State :=
  let z := s.sk k
  if !z.inBarrier ∨ z.closingEpoch ≠ 0 then s
  else
    let hosts := s.hosted k
    let s0 := foldS hosts (fun i t => t.modSp i fun x =>
      if x.freezeReq && !x.moving && x.eventFree then { x with frozen := true, freezeReq := false } else x) s
    let closes (e : Nat × SkLine) : Bool := e.2.fst == .unfastened || (e.2.fst == .fastenedDirty && z.redouble.contains e.1)
    let lines := z.lines.map fun e => if closes e then (e.1, { e.2 with fst := FState.closing }) else e
    let sends (x : SkLine) : Bool := x.fst == .closing || (z.doublesAll && x.fst == .fastenedDirty)
    let send := (lines.filter fun e => sends e.2).map (·.1)
    let lines := lines.map fun e => if sends e.2 then (e.1, { e.2 with due := true }) else e
    let imgs : Tbl Image := hosts.foldl (fun t i => tset {} t i { sp := s0.sp i, epoch := z.openEpoch }) []
    (s0.modSk k fun z => { z with
      inBarrier := false, lastBarrier := satBits 16 ns, closingEpoch := z.openEpoch, openEpoch := (z.openEpoch + 1) % 2 ^ 64,
      newLines := 0, lines := lines, toSend := send, imgSend := hosts, imgOwn := imgs, spillOpen := 0, spilled := false }).latchContexts k

/-- The copies that skein b's reserved ways hold in the set of a line (R191). -/
def State.resvCount (s : State) (b l : Nat) : Nat :=
  (((s.sk b).dbl.filter fun e => l3Base e.1 == l3Base l).map fun e => b2n e.2.cVal.isSome + b2n e.2.pVal.isSome).sum

/-- Doubled line l of skein b changed by f. -/
def State.modDbl (s : State) (b l : Nat) (f : Dbl → Dbl) : State := s.modSk b fun z => { z with dbl := tmod {} z.dbl l f }

/-- The oldest committed copy of another line in the set of a line (R192). -/
def State.oldestCommitted (s : State) (b l : Nat) : Option Nat :=
  let cand := (s.sk b).dbl.filter fun e => l3Base e.1 == l3Base l && e.1 != l && e.2.cVal.isSome
  (cand.foldl (fun best e => match best with
    | none => some e
    | some c => if e.2.cAge < c.2.cAge then some e else some c) none).map (·.1)

/-- A committed copy written to memory through its home and dropped: an Owned-doubled entry returns to Modified (R192,
R196). -/
def State.evictCommitted (s : State) (b v : Nat) : State :=
  match (tget {} (s.sk b).dbl v).cVal with
  | some val => ((s.homeWrite v val).modDir v fun d => if d.state = 4 then { d with state := 3 } else d).modDbl b v
      fun d => { d with cVal := none, cAge := 0 }
  | none => s

/-- A pending line placed in a reserved way of its set, by the first choice of R192 that exists; none when it must
spill. The sets of the checkpoint store have no way for lines (R191). -/
def State.placeDoubled (s : State) (b l : Nat) (v : LineVal) : Option State :=
  let put (t : State) : State := t.modDbl b l fun d => { d with pVal := some v }
  if 12048 ≤ l3SetOf l then none
  else if s.resvCount b l < 4 then some (put s)
  else match s.oldestCommitted b l with
    | some w => some (put (s.evictCommitted b w))
    | none => none

/-- A line sent to the fasten journal of its owner (R193). -/
def State.sendJournal (s : State) (k l e : Nat) (v : LineVal) (src : Nat) : State :=
  let p : Packet := { cmd := 0x27, src := src, srcNode := controlNode, dst := 12, dstNode := homeNode (homeSlice l), line := l,
                      len := 8, val := v, epoch := e, owner := k }
  (s.modSk k fun z => { z with spillOpen := z.spillOpen + 1 }).send p

/-- The lines still to be doubled for which a store or an atomic of the skein waits: the doubling engine sends them first
(R178). -/
def State.sendFirst (s : State) (k : Nat) : List Nat :=
  (s.sk k).toSend.filter fun l => (s.hosted k).any fun i => (s.sp i).writeWaits l

/-- DBL_LINE: one line of the closing epoch doubled (R178, R192, R193, R200, R205), those for which a write waits before the
others. A line that had been sent into a buddy since lost, and written again since, is sent as it stood when it was sent
(R526; log 26). -/
def State.doubleLine (s : State) (k l : Nat) : State :=
  let z := s.sk k
  let b := buddyOf k
  let first := s.sendFirst k
  if z.closingEpoch = 0 ∨ !z.toSend.contains l ∨ z.releases.contains l ∨ (!first.isEmpty ∧ !first.contains l) then s
  else
    let x0 := s.skl k l
    let old := (tget {} (s.sk b).dbl l).pVal
    let x := if x0.fst = .unfastened then { x0 with val := old.getD x0.val } else x0
    let s1 := (s.modSk k fun z => { z with toSend := z.toSend.filter (· != l) }).modSkl k l fun y =>
      if y.held then { y with due := false } else y
    let s2 := if s.toHub k then s1.sendJournal k l z.closingEpoch x.val k else s1
    let s3 := if !s.toBuddy k then s2
      else match s2.placeDoubled b l x.val with
        | some t => t
        | none =>
          let t := if s.toHub k then s2
            else (s2.sendJournal k l z.closingEpoch x.val b).modSk k fun y => { y with spills := satBits 64 (y.spills + 1) }
          if z.spilled ∨ s.toHub k then t else (t.modSk k fun z => { z with spilled := true }).raise 0x0205 k
    s3.drainSkein k

/-- DBL_IMAGE: a chunk of a fasten image arrives; with its last, chunk 31, the image is held (R191, R200, R272). -/
def State.doubleImage (s : State) (k i chunk : Nat) : State :=
  let z := s.sk k
  if z.closingEpoch = 0 ∨ !z.imgSend.contains i ∨ chunk ≠ 31 then s
  else
    let img := tget {} z.imgOwn i
    let s1 := s.modSk k fun z => { z with imgSend := z.imgSend.filter (· != i) }
    let s2 := if s.toBuddy k then s1.modSk (buddyOf k) fun y => { y with imgP := tset {} y.imgP i img } else s1
    if s.toHub k then s2.modJalif fun j => { j with soloImgP := tset {} j.soloImgP i img } else s2

/-- The lines that the fasten of epoch e of skein k has doubled: pending copies and journal copies. -/
def State.doubledLines (s : State) (k e : Nat) : List Nat :=
  let inJournal := (s.home.journal.filter fun j => j.skein == k && j.epoch == e).map (·.line)
  if s.toBuddy k then
    (((s.sk (buddyOf k)).dbl.filter fun d => d.2.pVal.isSome).map (·.1)) ++ inJournal
  else inJournal

/-- A line list cut into the lists of one packet each: fourteen lines, two to each of seven data flits (R272). -/
def cutLines : Nat → List Nat → List (List Nat)
  | 0, _ => []
  | n + 1, ls => if ls.length ≤ 14 then [ls] else ls.take 14 :: cutLines n (ls.drop 14)

/-- The packets of FASTEN_DONE for home slice h: MORE in all but the last (R272). -/
def fastenDonePackets (k e src h : Nat) (ls : List Nat) : List Packet :=
  let cs := cutLines (ls.length + 1) ls
  (List.range cs.length).map fun j =>
    let c := (cs[j]?).getD []
    { cmd := 0x22, tag := e % 2 ^ 16, src := src, srcNode := if src = 12 then jalifNode else controlNode, dst := 12,
      dstNode := homeNode h, len := 1 + (c.length + 1) / 2, aux := b2n (decide (j + 1 < cs.length)), epoch := e, lines := c, owner := k }

/-- FASTEN_DONE(e) sent to the four home slices, each with the lines of its own (R179, R196, R272). -/
def State.sendFastenDone (s : State) (k e src : Nat) : State :=
  let ls := s.doubledLines k e
  foldS ((List.range 4).flatMap fun h => fastenDonePackets k e src h (ls.filter fun l => homeSlice l == h)) (fun p t => t.send p) s

/-- The pending lines and images that the buddy holds of the epoch replace the committed ones (R179, R191). -/
def State.commitBuddy (s : State) (k e : Nat) : State :=
  let b := buddyOf k
  let dbl := (s.sk b).dbl.foldl (fun t d => match d.2.pVal with
    | some v => tset {} t d.1 { cVal := some v, cAge := e, pVal := none }
    | none => t) (s.sk b).dbl
  let spilled := if s.toHub k then [] else (s.home.journal.filter fun j => j.skein == k && j.epoch == e).map (·.line)
  let dbl := spilled.foldl (fun t l => tmod {} t l fun d => { d with cVal := none, cAge := 0 }) dbl
  s.modSk b fun y => { y with dbl := dbl, imgC := y.imgP, imgP := [] }

/-- The images that the hub's reserve holds of the epoch become the skein's fastened ones (R200). -/
def State.commitHub (s : State) (k : Nat) : State :=
  let own := (s.sk k).imgOwn
  let mine := s.jalif.soloImgP.filter fun i => own.any fun o => o.1 == i.1
  s.modJalif fun j => { j with
    soloImg := mine.foldl (fun t i => tset {} t i.1 i.2) j.soloImg, soloImgP := j.soloImgP.filter fun i => !(own.any fun o => o.1 == i.1) }

/-- EPOCH_COMMIT (R179, R194, R200, R205, R526): everything of the epoch is held and every journal write acknowledged; its
pending lines and images replace the committed ones. -/
def State.epochCommit (s : State) (k : Nat) : State :=
  let z := s.sk k
  let e := z.closingEpoch
  if e = 0 ∨ z.committed = e ∨ !z.toSend.isEmpty ∨ !z.imgSend.isEmpty ∨ z.spillOpen ≠ 0 then s
  else
    let s1 := s.sendFastenDone k e (if s.toBuddy k then buddyOf k else 12)
    let s2 := if s.toBuddy k then s1.commitBuddy k e else s1
    (if s.toHub k then s2.commitHub k else s2).modSk k fun y => { y with
      committed := e, pairFirst := y.pairFirst || (y.pair == 2 && s.toBuddy k) }

/-- The streams of a fastened context become those that the registers show, and a context that has not changed since the
barrier is no longer modified (R395, R409, R410). -/
def State.fastenContexts (s : State) (k : Nat) : State :=
  foldS (s.sk k).ctxDirty (fun pg t =>
    let u := t.tenant pg
    let pDone := u.pHolder = some k ∧ u.busyP = none ∧ u.bP = some u.press
    let cDone := u.cHolder = some k ∧ u.busyC = none ∧ u.bC = some u.cipher
    let u1 := { u with
                       shP := u.bP.getD u.shP, shC := u.bC.getD u.shC, bP := none, bC := none,
                       pHolder := if pDone then none else u.pHolder, cHolder := if cDone then none else u.cHolder }
    let s1 := t.modTenant pg fun _ => u1
    if u1.pHolder = some k ∨ u1.cHolder = some k then s1
    else s1.modSk k fun z => { z with ctxDirty := z.ctxDirty.filter (· != pg) }) s

/-- A line of a skein that has become Loose: it has no fasten state, and nothing waits for a fasten of it (R206). -/
def SkLine.loosen (x : SkLine) : SkLine :=
  { x with fst := if x.fst = .clean then .clean else .fastenedDirty, due := false, hold := 0, nacked := 0 }

/-- A skein that a commit makes Loose stops doubling once the fasten that the commit called for has completed; lines written
since have no fasten state any more, and its copies in the buddy go (R28, R206). -/
def State.becomeLoose (s : State) (k e : Nat) : State :=
  match (s.sk k).looseAt with
  | some n =>
    if n ≤ e then
      (s.modSk k fun z => { z with loose := true, pair := 3, looseAt := none, tickHeld := false, gather := none, early := false,
                                   toHub := false, fromLoose := false,
                                   lines := z.lines.map fun x => (x.1, x.2.loosen) }).modSk (buddyOf k) fun z =>
        { z with dbl := [], imgC := [], imgP := [] }
    else s
  | none => s

/-- DBL_ACK (R179, R182, R185, R200): the epoch's lines become fastened-dirty, or clean on a solo skein; lines for whose fasten
a NACKed snoop waited are held; the router drops the interrupts that the images hold (R134); a held tick begins the next barrier
(R180). -/
def State.doubleAck (s : State) (k : Nat) : State :=
  let z := s.sk k
  let e := z.closingEpoch
  if e = 0 ∨ z.committed ≠ e then s
  else
    let solo := !s.toBuddy k
    let lines := z.lines.map fun l =>
      let y := l.2
      let f := if y.fst = .closing then (if solo then FState.clean else .fastenedDirty)
        else if solo && y.fst == .fastenedDirty && z.doublesAll then .clean else y.fst
      let holds := decide (y.nacked ≠ 0 ∧ y.nackEpoch ≤ e)
      (l.1, { y with
        fst := f, due := false, hold := if holds then y.nacked else y.hold, holdAt := if holds then s.time else y.holdAt,
        nacked := if holds then 0 else y.nacked })
    let s1 := s.modSk k fun z => { z with
      lines := lines, closingEpoch := 0, fastens := satBits 64 (z.fastens + 1),
      fromLoose := z.fromLoose && !solo, toHub := if solo then false else z.toHub,
      redouble := z.redouble.filter fun l => (tget ({} : SkLine) z.lines l).fst != .closing }
    let kept := s1.home.router.filter fun r => !(s.skeinOf r.1 == some k && decide (r.2.2 ≤ e))
    let s2 := { s1 with home := { s1.home with router := kept } }
    let held (i : Nat × Image) : Bool := s.skeinOf i.1 == some k && decide ((s.sp i.1).firstEpoch ≤ e)
    let s2 := s2.modJalif fun j => { j with heldImg := j.heldImg.filter fun i => !held i }
    let s3 := ((s2.fastenContexts k).becomeLoose k e).drainSkein k
    if z.tickHeld ∧ !(s3.sk k).loose then s3.beginBarrier k else s3

/-- FASTEN_DONE at a home slice (R193, R196, R253): Modified entries of the doubled lines become Owned-doubled; with the last
packet of the list their journal copies may be written back, and the victims they barred are eligible again. -/
def State.fastenDone (s : State) (h : Nat) (p : Packet) : State :=
  let k := p.owner
  let s1 := foldS (p.lines.filter fun l => homeSlice l == h) (fun l t => t.modDir l fun d =>
    if d.state = 3 ∧ d.owner = k then { d with state := 4 } else d) s
  if p.aux % 2 = 1 then s1 else
  let dir := s1.home.dir.map fun d =>
    if homeSlice d.1 = h ∧ d.2.inelig ∧ (d.2.owner = k ∨ d.2.sharers.getLsbD k) then (d.1, { d.2 with inelig := false }) else d
  let journal := s1.home.journal.map fun j =>
    if j.skein = k ∧ j.epoch = p.epoch ∧ homeSlice j.line = h then { j with done := true } else j
  { s1 with home := { s1.home with dir := dir.filter fun d => d.2 != {}, journal := journal } }

/-- JOURNAL_WR at a home slice (R193, R194): the copy is written, the entry marked, and the write acknowledged. -/
def State.journalWrite (s : State) (p : Packet) : State :=
  let k := p.owner
  let others := s.home.journal.filter fun j => !(j.skein == k && j.epoch == p.epoch && j.line == p.line)
  let e : JEntry := { skein := k, epoch := p.epoch, line := p.line, val := p.val }
  let s1 := { s with home := { s.home with journal := others ++ [e] } }
  (s1.modDir p.line fun d => { d with journaled := true }).modSk k fun z => { z with spillOpen := z.spillOpen - 1 }

/-- A journal copy of a completed fasten written to the line's own address in the background (R193). -/
def State.journalBack (s : State) (k l : Nat) : State :=
  match s.home.journal.find? fun j => j.skein == k && j.line == l && j.done with
  | none => s
  | some j =>
    let rest := s.home.journal.erase j
    let s1 := if (s.journalCopy l) = some j then { s with home := { s.home with journal := rest } }.memWrite l j.val
      else { s with home := { s.home with journal := rest } }
    s1.modDir l fun d => { d with journaled := rest.any fun q => q.line == l }

/-- RELEASE at the buddy (R195): the committed copy is freed. -/
def State.releaseLine (s : State) (k l : Nat) : State :=
  if !(s.sk k).releases.contains l then s
  else (s.modSk k fun z => { z with releases := z.releases.erase l }).modDbl (buddyOf k) l fun d => { d with cVal := none, cAge := 0 }

/-- Every release still on its way takes effect (R195). -/
def State.flushReleases (s : State) (k : Nat) : State := foldS (s.sk k).releases (fun l t => t.releaseLine k l) s

/-- A hold on a timer ends fasten.snoop_hold_cycles after it began (R185). -/
def State.holdExpire (s : State) (k l : Nat) : State :=
  if (s.skl k l).hold ≠ 1 ∨ s.time < (s.skl k l).holdAt + fabricTicks (s.param 0x0603 0) then s else (s.modSkl k l fun x => { x with hold := 0 }).drainSkein k

/-- Both skeins of a pair have committed a fasten into each other (R205): the pair is paired again. -/
def State.repair (s : State) (k : Nat) : State :=
  let b := buddyOf k
  if (s.sk k).pair = 2 ∧ (s.sk b).pair = 2 ∧ (s.sk k).pairFirst ∧ (s.sk b).pairFirst then
    let s1 := (s.modSk k fun z => { z with pair := 0, fromLoose := false }).modSk b fun z =>
      { z with pair := 0, fromLoose := false }
    let mine (i : Nat × Image) : Bool := s.skeinOf i.1 == some k || s.skeinOf i.1 == some b
    s1.modJalif fun j => { j with soloImg := j.soloImg.filter fun i => !mine i }
  else s

end Sys2Proof.Machine
end

