-- ==== Sys2Proof/Machine/Hub.lean ====
section
/-!
DEFINITION. Reads and writes of memory by the hub's agents (R186, R246, R254): they reach lines through the home slices,
see only fastened data, and wait where a transaction, a recall or R184 refuses them. Request, snoop, answer and acknowledgement
of such an access are one step (log 95).
-/

namespace Sys2Proof.Machine

/-- A skein that the directory names as owner and that is not lost (R198, R243). -/
def State.ownerOfLine (s : State) (l : Nat) : Option Nat :=
  let d := s.dirOf l
  if (d.state = 2 ∨ d.state = 3 ∨ d.state = 4) ∧ d.owner < 12 ∧ s.skeinUp d.owner then some d.owner else none

/-- A snoop met a line that is unfastened or closing: it waits for the line's fasten, and an unfastened line starts an early one
at once (R184, R185). -/
def State.nackLine (s : State) (k l top : Nat) : State :=
  let x := s.skl k l
  let z := s.sk k
  let e := if x.fst = .closing then z.closingEpoch else z.openEpoch
  let s1 := s.modSkl k l fun y => { y with nacked := max y.nacked top, nackEpoch := e }
  if x.fst = .closing then s1 else s1.requestFasten k

/-! ### Transactions and recalls (R247, R264) -/

/-- The open transaction that pins a line: one on it, or one that recalls a victim for a request to it (R247, R252). -/
def State.txnOn (s : State) (l : Nat) : Option Txn := s.home.txns.find? fun t => t.line == l || (t.recallFor && t.req.line == l)
/-- The line's set is being recalled (R264). -/
def State.recalling (s : State) (l : Nat) : Bool :=
  let h := s.homeOf (homeSlice l)
  h.recallOn && h.recallSet == dirSet l
/-- A grant of the line is on its way to skein k, or to any skein for 12. A snoop that follows it waits for it (R270; log 95). -/
def State.granting (s : State) (k l : Nat) : Bool :=
  s.fab.net.any fun p => p.line == l && (p.dst == k || (k == 12 && decide (p.dst < 12))) &&
    (p.cmd == 0x1C || p.cmd == 0x1D || p.cmd == 0x1E)

/-- A request at the top age (R248). -/
def topAge (p : Packet) : Bool := p.age == 15

/-- A refused request of a hub agent waits inside the hub for its retry, its age raised (R186, R247, R248). -/
def State.hubRefused (s : State) (l : Nat) : State :=
  let h := homeSlice l
  let up (p : Packet) : Packet := { p with age := min 15 (p.age + s.param 0x0800 0) }
  let fresh := !(s.home.hubReqs.any fun p => p.line == l)
  let reqs := if fresh then s.home.hubReqs ++ [up { cmd := 0x07, line := l, dstNode := homeNode h, since := s.time }]
    else s.home.hubReqs.map fun p => if p.line = l then up p else p
  let top := reqs.any fun p => p.line == l && topAge p
  let was := s.home.hubReqs.any fun p => p.line == l && topAge p
  { s with home := { s.home with hubReqs := reqs } }.modHome h fun x => { x with
    nacks := if was then x.nacks else satBits 64 (x.nacks + 1), tops := if top && !was then satBits 64 (x.tops + 1) else x.tops }

/-- A hub agent's request to a line is served (R254). -/
def State.hubServed (s : State) (l : Nat) : State :=
  if s.home.hubReqs.any fun p => p.line == l then
    { s with home := { s.home with hubReqs := s.home.hubReqs.filter fun p => p.line != l } }
  else s

/-- The fastened value of a line, as a hub agent reads it by one transaction (R246, R254): none, and the request waits for
its retry, while another transaction pins the line (R247), its set is recalled (R264), a grant or its writeback is on its way,
or its owner holds it unfastened or closing, which then starts an early fasten (R184, R186). -/
def State.hubLine (s : State) (l : Nat) : Option LineVal × State :=
  if (s.txnOn l).isSome || s.recalling l || s.granting 12 l then (none, s.hubRefused l)
  else match s.ownerOfLine l with
  | none => (some (s.homeVal l), s.hubServed l)
  | some k =>
    let x := s.skl k l
    if x.fst = .unfastened ∨ x.fst = .closing then (none, (s.nackLine k l 1).hubRefused l)
    else if x.held then
      let s1 := s.hubServed l
      (some x.val, if x.hold = 0 then s1 else (s1.modSkl k l fun y => { y with hold := 0, nacked := 0 }).drainSkein k)
    else if (s.sk k).evicts.any fun p => p.line == l then (none, s.hubRefused l)
    else (some (s.homeVal l), s.hubServed l)

/-- The fastened values of several lines, all of them or none. -/
def State.hubLines (s : State) (ls : List Nat) : Option (List LineVal) × State :=
  ls.foldl (fun (o, t) l =>
    let (v, u) := t.hubLine l
    (match o, v with
      | some vs, some w => some (vs ++ [w])
      | _, _ => none, u)) (some [], s)

/-- Every skein's copy of a line is invalidated, an owner's release sent with a dirty one (R195, R254). -/
def State.dropCopies (s : State) (l : Nat) : State :=
  let ks := allSkeins.filter fun k => (s.skl k l).held
  (foldS ks (fun k t =>
    let dirty := (t.skl k l).fst = .fastenedDirty
    let u := t.forget k l
    if dirty then u.sendRelease k l else u) s).modDir l DirEntry.clear

/-- A line written by a hub agent as f makes it of its fastened value (R254). -/
def State.hubPut (s : State) (l : Nat) (f : LineVal → LineVal) : State :=
  match s.hubLine l with
  | (some v, t) => (t.dropCopies l).homeWrite l (f v)
  | (none, t) => t

/-- The n bytes from address a as a hub agent reads them, with the poison of their lines; none while a line waits. -/
def State.hubBytes (s : State) (a n : Nat) : Option (List Nat × Bool) × State :=
  let ls := linesOf a n
  match s.hubLines ls with
  | (some vs, t) =>
    let at_ (x : Nat) : Nat := lineGet ((vs[lineOf x - lineOf a]?).getD LineVal.zero) (x % 128) 1
    (some ((List.range n).map fun j => at_ (a + j), vs.any (·.poison)), t)
  | (none, t) => (none, t)

/-- Bytes written from address a by a hub agent: tags of the granules they touch are cleared (R115); false while a line
waits, with nothing written. -/
def State.hubWrite (s : State) (a : Nat) (xs : List Nat) : Bool × State :=
  let ls := linesOf a xs.length
  match s.hubLines ls with
  | (none, t) => (false, t)
  | (some _, t) =>
    (true, foldS ls (fun l u =>
      let lo := max a (128 * l)
      let hi := min (a + xs.length) (128 * l + 128)
      u.hubPut l fun v => linePut v (lo % 128) (hi - lo) (leNat ((xs.drop (lo - a)).take (hi - lo)))) t)

/-- A little-endian field of a list of bytes (R10). -/
def fieldAt (xs : List Nat) (o n : Nat) : Nat := leNat ((xs.drop o).take n)

end Sys2Proof.Machine
end

