-- ==== Sys2Proof/Machine/Home.lean ====
section
/-!
DEFINITION. The home slices at work (R246 to R255, R262, R264): how a request is opened, refused and served, the snoops it
needs, the way its entry takes, requests in reserved slots, the end of a transaction, and back-invalidate snoops.
-/

namespace Sys2Proof.Machine

/-- A response of a home slice to the request q (R272). -/
def replyTo (q : Packet) (cmd : Nat) : Packet :=
  { cmd := cmd, age := q.age, tag := q.tag, src := 12, srcNode := homeNode (homeSlice q.line), dst := q.src,
    dstNode := q.srcNode, line := q.line, part := q.part }

/-- A NACK of a home slice to the request q, with its reason and hint (R247). -/
def nackTo (q : Packet) (reason hint : Nat) : Packet := { replyTo q 0x1A with aux := reason, hint := hint }

/-- The bit of skein k in a mask of skeins. -/
def skBit (k : Nat) : BitVec 12 := BitVec.ofNat 12 (2 ^ k)

/-- The transaction on exactly this line. -/
def State.txnAt (s : State) (l : Nat) : Option Txn := s.home.txns.find? fun t => t.line == l
/-- The transaction whose snoop an answer names by its TAG (R272). -/
def State.txnOf (s : State) (p : Packet) : Option Txn :=
  s.home.txns.find? fun t => t.tag == p.tag && homeNode (homeSlice t.line) == p.dstNode
/-- The transaction on a line replaced. -/
def State.setTxn (s : State) (t : Txn) : State :=
  { s with home := { s.home with txns := s.home.txns.map fun u => if u.line = t.line then t else u } }
/-- A transaction opened. -/
def State.openTxn (s : State) (t : Txn) : State := { s with home := { s.home with txns := s.home.txns ++ [t] } }
/-- The transaction on a line closed. -/
def State.closeTxn (s : State) (l : Nat) : State :=
  { s with home := { s.home with txns := s.home.txns.filter fun u => u.line != l } }
/-- A TAG that no open transaction of a slice uses (R271). -/
def State.freeTxnTag (s : State) (h : Nat) : Nat :=
  ((List.range (s.home.txns.length + 1)).find? fun g =>
    !(s.home.txns.any fun t => homeSlice t.line == h && t.tag == g)).getD 0

/-- The entries of a line's set (R241). -/
def State.setEntries (s : State) (l : Nat) : List (Nat × DirEntry) :=
  s.home.dir.filter fun e => homeSlice e.1 == homeSlice l && dirSet e.1 == dirSet l

/-- The ways of a line's set that other lines hold: by their entries, or pinned by their transactions (R247, R252). -/
def State.waysHeld (s : State) (l : Nat) : List Nat :=
  let set (m : Nat) : Bool := m != l && homeSlice m == homeSlice l && dirSet m == dirSet l
  (((s.home.dir.filter fun e => set e.1).map fun e => e.2.way) ++
    ((s.home.txns.filter fun t => set t.line && decide (t.way < 20)).map (·.way))).eraseDups

/-- Open transactions of a slice, those in reserved slots apart (R247, R249). -/
def State.slotsUsed (s : State) (h : Nat) (top : Bool) : Nat :=
  (s.home.txns.filter fun t => homeSlice t.line == h && t.top == top).length

/-- Transaction slots that a slice does not reserve (R249). -/
def State.plainSlots (s : State) : Nat := 2048 - (12 * s.param 0x0803 0 + 32)

/-- Reserved slots of a slice that the requests of agents other than skeins hold (R249). -/
def State.hubTops (s : State) (h : Nat) : Nat :=
  (s.home.txns.filter fun t => homeSlice t.line == h && t.top && decide (12 ≤ t.req.src)).length +
    ((s.homeOf h).topq.filter fun p => decide (12 ≤ p.src)).length +
    min 32 (s.home.hubReqs.filter fun p => homeSlice p.line == h && topAge p).length

/-- A refused request: a skein is answered NACK; a hub agent's request is retried inside the hub, its age raised (R186,
R247, R248). One NACKed UNFASTENED may have a hold kept for it (R185). -/
def State.nack (s : State) (p : Packet) (reason hint : Nat) : State :=
  let h := homeSlice p.line
  let s0 := if reason = 4 ∧ p.src < 12 then
      { s with home := { s.home with holds := (p.line, p.src) :: s.home.holds.filter fun e => e != (p.line, p.src) } } else s
  let s1 := { s0 with freeCtr := s0.freeCtr + 1 }.modHome h fun x => { x with nacks := satBits 64 (x.nacks + 1) }
  if p.src < 12 then s1.send (nackTo p reason (min hint (s.param 0x0801 0)))
  else s1.send { p with age := min 15 (p.age + s.param 0x0800 0) }

/-- An estimate, in fabric cycles, of the time until an obstacle clears (R184, R247): the spec gives no formula, and it is a
free value (log 31). -/
def State.estimate (s : State) : Nat := (Config.retryHint s.freeCtr).toNat

/-- A snoop of the line, with the TAG of its transaction, sent to every skein of the mask (R246, R272). -/
def State.snoop (s : State) (cmd l age tag : Nat) (mask : BitVec 12) : State :=
  foldS (allSkeins.filter fun k => mask.getLsbD k) (fun k t => t.send {
    cmd := cmd, age := age, tag := tag, src := 12, srcNode := homeNode (homeSlice l), dst := k, dstNode := l3Node (l3SliceOf l),
    line := l }) s

/-- The line's entry as f makes it: in its way, or in the way w that its transaction pinned, or in the first way of its set that
no other line holds (R252). -/
def State.enter (s : State) (l w : Nat) (f : DirEntry → DirEntry) : State :=
  let held := s.waysHeld l
  let d := s.dirOf l
  let w := if d.state ≠ 0 then d.way else if w < 20 then w else ((List.range 20).find? fun w => !held.contains w).getD 0
  s.modDir l fun d => { f d with way := w }

/-- A grant or another answer with the line's data (R246, R272). -/
def withData (p : Packet) (v : LineVal) : Packet := { p with len := 8, val := v }

/-- The mask of a line's holders. -/
def DirEntry.holders (d : DirEntry) : BitVec 12 :=
  if 2 ≤ d.state then (if d.owner < 12 then skBit d.owner else 0) else if d.state = 1 then d.sharers else 0

/-- The entry without skein k as a holder. -/
def DirEntry.without (d : DirEntry) (k : Nat) : DirEntry :=
  if d.owner = k then d.clear
  else
    let m := d.sharers &&& ~~~(skBit k)
    if d.state = 1 ∧ m = 0 then d.clear else { d with sharers := m }

/-- The victim of a set (R252): no open transaction, not journaled, not RESERVED, not ineligible; Shared before Exclusive
before Modified and Owned-doubled, the lowest way first. -/
def State.victim (s : State) (l : Nat) : Option Nat :=
  let ok := (s.setEntries l).filter fun e =>
    !e.2.journaled && !e.2.resv && !e.2.inelig && e.2.state != 0 && (s.txnOn e.1).isNone
  let rank (e : Nat × DirEntry) : Nat := min e.2.state 3 * 32 + e.2.way
  (ok.foldl (fun (b : Option (Nat × DirEntry)) e => match b with
    | none => some e
    | some c => if rank e < rank c then some e else some c) none).map (·.1)

/-- The line lies in a committed CXL range that other hosts share (R262). -/
def State.cxlShared (s : State) (l : Nat) : Bool := (s.cxlOf (128 * l)).any (·.shared)

/-- The home's read of a shared CXL range tells the device the meta state that the request needs: shared for RD_SHARED and
RD_PEEK, any for RD_OWN and UPGRADE; the device has back-invalidated the other hosts when it answers (R262, R263; log 96). -/
def State.askDevice (s : State) (p : Packet) : State :=
  let m := if p.cmd = 0x01 ∨ p.cmd = 0x07 then 1 else if p.cmd = 0x02 ∨ p.cmd = 0x03 then 2 else 0
  if m ≠ 0 ∧ s.cxlShared p.line ∧ tget 0 s.home.biMeta p.line < m then
    { s with home := { s.home with biMeta := tset 0 s.home.biMeta p.line m } }
  else s

/-- The hold that a skein keeps for the request of a skein that has now been served, or cancelled, is no longer wanted. -/
def State.dropHold (s : State) (l k : Nat) : State :=
  if s.home.holds.contains (l, k) then { s with home := { s.home with holds := s.home.holds.filter fun e => e != (l, k) } } else s

/-- The requests of skein k are cancelled: HOLD_RELEASE ends the holds that owners keep for them (R185, R246). -/
def State.releaseHolds (s : State) (k : Nat) : State :=
  foldS (s.home.holds.filter fun e => e.2 == k) (fun e t =>
    let d := t.dirOf e.1
    let t1 := t.dropHold e.1 k
    if 2 ≤ d.state ∧ d.owner < 12 ∧ d.owner ≠ k then
      t1.send { cmd := 0x14, src := 12, srcNode := homeNode (homeSlice e.1), dst := d.owner, dstNode := l3Node (l3SliceOf e.1), line := e.1 }
    else t1) s

/-- The outcome of a transaction whose every answer and memory write has arrived (R254): the answer and the state after. -/
def State.serveDone (s0 : State) (t : Txn) : State :=
  let p := t.req
  let l := p.line
  let s := (s0.askDevice p).dropHold l p.src
  let v := t.data.getD (s.homeVal l)
  match p.cmd with
  | 0x01 =>
    if t.kept = 0 ∧ (s.dirOf l).holders = 0 then
      (s.enter l t.way fun d => { d with state := 2, owner := p.src, sharers := 0 }).send (withData (replyTo p 0x1D) v)
    else
      (s.enter l t.way fun d => { d with state := 1, owner := 15, sharers := d.holders ||| t.kept ||| skBit p.src }).send
        (withData (replyTo p 0x1C) v)
  | 0x02 =>
    (s.enter l t.way fun d => { d with state := 3, owner := p.src, sharers := 0, inelig := false }).send (withData (replyTo p 0x1D) v)
  | 0x03 =>
    (s.enter l t.way fun d => { d with state := 3, owner := p.src, sharers := 0, inelig := false }).send (replyTo p 0x1E)
  | 0x07 => s.send (withData (replyTo p 0x21) v)
  | _ => ((s.modDir l DirEntry.clear).homeWrite l (lineMerge v (if p.cmd = 0x08 then BitVec.allOnes 128 else p.mask) p.val.data)).send
      (replyTo p 0x20)

/-- A transaction opened for a request that may be served (R254): the snoops it needs, or its outcome at once. -/
def State.serve (s : State) (p : Packet) : State :=
  let l := p.line
  let d := s.dirOf l
  let owned := decide (2 ≤ d.state) && decide (d.owner < 12)
  let p := if p.cmd = 3 ∧ !(d.state = 1 ∧ p.src < 12 ∧ d.sharers.getLsbD p.src) then { p with cmd := 2 } else p
  let (cmd, mask) : Nat × BitVec 12 :=
    match p.cmd with
    | 0x01 => if owned then (0x10, skBit d.owner) else (0, 0)
    | 0x02 | 0x03 => (0x11, if d.state = 1 ∧ p.src < 12 then d.holders &&& ~~~(skBit p.src) else d.holders)
    | 0x07 => if owned then (0x12, skBit d.owner) else (0, 0)
    | _ => (0x11, d.holders)
  let t : Txn := { line := l, req := p, tag := s.freeTxnTag (homeSlice l), way := if d.state = 0 then 20 else d.way, await := mask,
                   top := topAge p }
  if mask = 0 then s.serveDone t else (s.openTxn t).snoop cmd l p.age t.tag mask

/-- The request needs an entry that the directory does not hold yet. -/
def State.wantsWay (s : State) (p : Packet) : Bool :=
  decide (p.cmd ≤ 3) && (s.dirOf p.line).state == 0 && !(s.dirOf p.line).journaled && decide (20 ≤ (s.waysHeld p.line).length)

/-- A request that needs a directory way and finds none free (R252, R253): a victim is recalled for it, its way RESERVED for one
that waited at the top age; or it is NACKed for DIR_FULL, or it waits in its reserved slot. -/
def State.needWay (s : State) (p : Packet) (waited : Bool) : State :=
  let h := homeSlice p.line
  match s.victim p.line with
  | some v =>
    let d := s.dirOf v
    let m := d.holders
    let s1 := s.modHome h fun x => { x with recalls := satBits 64 (x.recalls + 1) }
    if m = 0 then (s1.modDir v DirEntry.clear).serve p
    else
      let t : Txn := { line := v, req := p, tag := s.freeTxnTag h, way := d.way, await := m, recallFor := true, top := topAge p }
      (((if waited then s1.modDir v fun d => { d with resv := true } else s1)).openTxn t).snoop 0x11 v p.age t.tag m
  | none => if topAge p then s.modHome h fun x => { x with topq := x.topq ++ [p] } else s.nack p 3 s.estimate

/-- A request in a reserved slot that can be opened now: the first of its line, with no transaction on it, its set not under
recall, and a way for it (R250, R252). -/
def State.canOpen (s : State) (q : List Packet) (p : Packet) : Bool :=
  (s.txnOn p.line).isNone && !s.recalling p.line && (!s.wantsWay p || (s.victim p.line).isSome) &&
    ((q.find? fun r => r.line == p.line) == some p)

/-- Requests in reserved slots of slice h that can be opened, n at most, in order of arrival (R250). -/
def State.pumpN (h : Nat) : Nat → State → State
  | 0, s => s
  | n + 1, s =>
    let q := (s.homeOf h).topq
    match q.find? fun p => s.canOpen q p with
    | none => s
    | some p =>
      let s1 := s.modHome h fun x => { x with topq := x.topq.erase p }
      State.pumpN h n (if s1.wantsWay p then s1.needWay p true else s1.serve p)
/-- All of them. -/
def State.pumpTop (s : State) (h : Nat) : State := State.pumpN h (s.homeOf h).topq.length s

/-! ### Back-invalidate snoops (R186, R262) -/

/-- A back-invalidate snoop answered: dirty data is written to the device, every holder is invalidated, or the owner keeps a
Shared copy, and the response reports Invalid or Shared; a line with no entry is answered Invalid. None, and an early fasten
where one is needed, while the line is unfastened or closing, in a transaction, or on its way; the flag says that it is a fasten
that delays it. -/
def State.biTry (s : State) (l : Nat) (shared : Bool) : Option State × Bool × State :=
  let wait := (s.txnOn l).isSome || s.recalling l || s.granting 12 l ||
    (match s.ownerOfLine l with | some k => !(s.skl k l).held && (s.sk k).evicts.any fun p => p.line == l | none => false)
  let answer (t : State) (sh : Bool) : State := { t with home := { t.home with
    biMeta := if sh then tset 0 t.home.biMeta l 1 else terase t.home.biMeta l, biRsp := tset 0 t.home.biRsp l (1 + b2n sh) } }
  if wait then (none, false, s)
  else match s.ownerOfLine l with
  | none =>
    let sh := shared && (s.dirOf l).state == 1
    (some (answer (if sh then s else s.dropCopies l) sh), false, s)
  | some k =>
    let x := s.skl k l
    if x.fst = .unfastened ∨ x.fst = .closing then (none, true, s.nackLine k l 2)
    else
      let dirty := x.fst == .fastenedDirty
      let v := if x.held then x.val else s.homeVal l
      if shared ∧ x.held then
        let t := if dirty then (s.homeWrite l v).sendRelease k l else s
        (some (answer (((t.modSkl k l fun y => { y with fst := .clean, own := .shared, hold := 0, nacked := 0 }).modDir l fun d =>
          { d with state := 1, owner := 15, sharers := skBit k }).drainSkein k) true), false, s)
      else
        let t := s.dropCopies l
        (some (answer (if dirty then t.homeWrite l v else t) false), false, s)

/-- The held responses that can be given now are given; 0x0403 is logged for one that a fasten delays (R186, R262, R267). -/
def State.biPump (s : State) : State :=
  foldS s.home.biHeld (fun e t => match t.biTry e.1 e.2.1 with
    | (some u, _, _) => { u with home := { u.home with biHeld := u.home.biHeld.erase e } }
    | (none, fasten, u) =>
      if fasten && !e.2.2.1 then
        { u with home := { u.home with biHeld := u.home.biHeld.map fun x => if x = e then (e.1, e.2.1, true, e.2.2.2) else x } }.raise
          0x0403 (homeSlice e.1)
      else u) s

/-! ### The end of a transaction and of a recall -/

/-- A set recall ends when every skein has acknowledged it and every line has been returned (R264): the set is cleared. -/
def State.recallEnd (s : State) (h : Nat) : State :=
  let x := s.homeOf h
  let inSet (l : Nat) : Bool := homeSlice l == h && dirSet l == x.recallSet
  let late := s.fab.net.any fun q => (q.cmd == 0x05 || q.cmd == 0x06) && inSet q.line
  if !x.recallOn ∨ x.awaits ≠ 0 ∨ late ∨ s.home.txns.any (fun t => inSet t.line) then s
  else
    let ls := (s.home.dir.filter fun e => inSet e.1).map (·.1)
    ((foldS ls (fun l t => t.modDir l DirEntry.clear) (s.modHome h fun x => { x with recallOn := false })).pumpTop h).biPump

/-- A transaction with nothing left to await ends (R247, R253, R254, R255): what its snoops found decides the answer; a
request in a reserved slot is not NACKed for DIR_FULL (R250); requests in reserved slots and held responses follow. -/
def State.finishTxn (s : State) (l : Nat) : State :=
  match s.txnAt l with
  | none => s
  | some t =>
    if t.await ≠ 0 ∨ t.evicting ≠ 0 then s
    else
      let h := homeSlice l
      let s1 := s.closeTxn l
      let s2 :=
        if t.nack ∧ t.recallFor then
          let s3 := s1.modDir l fun d => { d with inelig := true, resv := false }
          if topAge t.req then s3.modHome h fun x => { x with topq := t.req :: x.topq } else s3.nack t.req 3 t.hint
        else if t.nack then s1.nack t.req 4 t.hint
        else if t.recallFor then (s1.modDir l DirEntry.clear).serve t.req
        else s1.serveDone t
      let s3 := foldS t.got (fun q u => u.send (replyTo q 0x1F)) s2
      ((s3.pumpTop h).biPump).recallEnd h

end Sys2Proof.Machine
end

