-- ==== Sys2Proof/Machine/Release.lean ====
section
/-!
DEFINITION. The release of spindles (R35, R119, R468, R469): the start record, the capabilities that Jalif forms from it,
and the registers of a spindle at its release.
-/

namespace Sys2Proof.Machine

/-- What a start record gives each spindle of its partition (R119, R468): the first bundle, CODECAP and c0 upward. -/
structure StartRec where
  ba   : Nat
  code : Cap
  caps : List Cap
deriving DecidableEq, Repr

/-- The memory ranges of a partition: base and bytes of each valid part.mem_range (R461). -/
def State.partRanges (s : State) (p : Nat) : List (Nat × Nat) :=
  (List.range 16).filterMap fun r =>
    let v := s.param 0x0101 (16 * p + r)
    if bitAt v 63 then some (bits v 0 31 * 2 ^ 21, bits v 31 31 * 2 ^ 21) else none

/-- The end of the ranges that follow address a without a gap, through at most n of them. -/
def rangesReach (rs : List (Nat × Nat)) : Nat → Nat → Nat
  | 0, a => a
  | n + 1, a => match rs.find? fun r => decide (r.1 ≤ a ∧ a < r.1 + r.2) with
    | some r => rangesReach rs n (r.1 + r.2)
    | none => a

/-- Every byte of [a, a + n) lies in one of the ranges, which may adjoin (R468). -/
def inRanges (rs : List (Nat × Nat)) (a n : Nat) : Bool := n == 0 || decide (a + n ≤ rangesReach rs rs.length a)

/-- The base of a partition's mailbox page (R451). -/
def mailboxBase (p : Nat) : Nat := regBase + 0x10000 + 0x1000 * p

/-- An OTYPE lies in the partition's range of part.seal_types (R461). -/
def State.sealType (s : State) (p o : Nat) : Bool :=
  let v := s.param 0x0105 p
  decide (bits v 0 12 ≤ o ∧ o < bits v 0 12 + bits v 12 12)

/-- Every byte of [a, a + n) lies in the partition's submission, completion, or press and cipher pages (R39, R41). -/
def State.tenantPages (s : State) (p a n : Nat) : Bool :=
  decide (regBase + 0x1000000 ≤ a ∧ a + n ≤ regBase + 0x4000000) &&
    (natsFrom (a / 0x1000) ((a + n + 0xFFF) / 0x1000 - a / 0x1000)).all fun q => s.param 0x0D10 (q % 4096) == p

/-- A capability descriptor of a start record fulfils R468; a partition also has its own mailbox page and its own tenant pages, the
submission pages without GLOBAL (R41, R334). -/
def State.descrOk (s : State) (p : Nat) (c : Cap) : Bool :=
  if capKind c = 0 then
    let mbx := decide (mailboxBase p ≤ capBase c ∧ capBase c + capLen c ≤ mailboxBase p + 0x1000)
    let own := s.tenantPages p (capBase c) (capLen c) &&
      !(capHas c pGLOBAL && decide (capBase c < regBase + 0x2000000))
    (if capHas c pSYSTEM then mbx else mbx || own || inRanges (s.partRanges p) (capBase c) (capLen c)) &&
      (capOtype c == 0 || (s.sealType p (capOtype c) && (capHas c pSEAL || capHas c pUNSEAL)))
  else capKind c == 3 && capBase c == 0 && capLen c == 0 && s.param 0x0D10 (capOtype c) == p

/-- The 32 bytes of a descriptor as a capability; none where a field exceeds its width (R110, R468). BASE and LENGTH of a system
capability are zero (R109). -/
def descrCap (xs : List Nat) : Option Cap :=
  let base := fieldAt xs 0 8
  let len := fieldAt xs 8 8
  let perms := fieldAt xs 16 2
  let kind := fieldAt xs 18 1
  let otype := fieldAt xs 20 2
  let c := if kind = 3 then mkCap 0 0 perms otype 3 true else mkCap base len perms otype kind true
  if base < 2 ^ 52 ∧ len < 2 ^ 44 ∧ perms < 2 ^ 12 ∧ otype < 2 ^ 12 ∧ kind ≤ 3 ∧ capWf c then some c else none

/-- The entry of a start record: CODE lies in the partition's memory, the entry within CODE (R119, R468). -/
def State.startEntry (s : State) (p base len entry : Nat) : Option (Nat × Cap) :=
  if entry < 4096 ∧ 16 * entry < len ∧ len < 2 ^ 44 ∧ inRanges (s.partRanges p) base len then
    some (base + 16 * entry, mkCap base len (2 ^ pLOAD + 2 ^ pEXEC) 0 0 true)
  else none

/-- The start record of partition 0, built from the boot record (R472): c0 covers its memory from its first range on as
far as ranges adjoin (log 14). -/
def State.startZero (s : State) : Option StartRec :=
  let b := s.jalif.boot
  let rs := s.partRanges 0
  let lo := (rs.head?.map (·.1)).getD 0
  let perms := 2 ^ pLOAD + 2 ^ pSTORE + 2 ^ pLOADCAP + 2 ^ pSTORECAP + 2 ^ pGLOBAL
  (s.startEntry 0 b.p0Load b.p0Len b.p0Entry).map fun (ba, code) =>
    { ba := ba, code := code,
      caps := [mkCap lo (rangesReach rs rs.length lo - lo) perms 0 0 true,
               mkCap (mailboxBase 0) 0x1000 (2 ^ pLOAD + 2 ^ pSTORE + 2 ^ pSYSTEM) 0 0 true] }

/-- A start record from its bytes; none where it fails a condition (R468). -/
def State.parseStart (s : State) (p : Nat) (xs : List Nat) : Option StartRec :=
  let n := fieldAt xs 4 1
  if fieldAt xs 0 4 ≠ 1 ∨ 60 < n ∨ xs.length < 64 + 32 * n then none
  else
    let ds := (List.range n).map fun k => descrCap ((xs.drop (64 + 32 * k)).take 32)
    if ds.all (fun d => match d with
        | some c => s.descrOk p c
        | none => false) then
      (s.startEntry p (fieldAt xs 0x10 8) (fieldAt xs 0x18 8) (fieldAt xs 0x20 4)).map fun (ba, code) =>
        { ba := ba, code := code, caps := ds.filterMap id }
    else none

/-- The start record of a partition, read as a hub agent (R468): none while a line waits, some none when it fails. -/
def State.readStart (s : State) (p : Nat) : Option (Option StartRec) × State :=
  if p = 0 then (some s.startZero, s)
  else
    let v := s.param 0x0102 p
    let a := bits v 6 46 * 64
    let rs := s.partRanges p
    if !bitAt v 63 ∨ !inRanges rs a 64 ∨ !s.memRange a 64 then (some none, s)
    else match s.hubBytes a 64 with
      | (none, t) => (none, t)
      | (some (_, true), t) => (some none, t)
      | (some (xs, false), t) =>
        let n := 64 + 32 * fieldAt xs 4 1
        if !inRanges rs a n ∨ !t.memRange a n then (some none, t)
        else match t.hubBytes a n with
          | (none, u) => (none, u)
          | (some (_, true), u) => (some none, u)
          | (some (ys, false), u) => (some (u.parseStart p ys), u)

/-- A spindle whose state is discarded (R466, R469): its place and a move of it stay, and the stores it has retired are still
performed. -/
def Spindle.discard (x : Spindle) : Spindle :=
  { host := x.host, target := x.target, moving := x.moving, moveMb := x.moveMb, moveEpoch := x.moveEpoch, suspended := x.suspended,
    lostFrom := x.lostFrom, stores := x.stores, memSeq := x.memSeq, serialSeq := x.serialSeq }

/-- A spindle as its release leaves it (R119); it is part of the fastens from the open epoch of its skein on (R202). -/
def State.releaseWith (s : State) (i : Nat) (r : StartRec) : State :=
  let x := (s.sp i).discard
  let e := match x.host with
    | some h => (s.sk h.skein).openEpoch
    | none => 0
  let c : Tbl Cap := (List.range r.caps.length).foldl (fun t k => tset Cap.zero t k ((r.caps[k]?).getD Cap.zero)) []
  (s.setSp i { x with
    arch := { c := c, codecap := r.code }, ba := BitVec.ofNat 64 r.ba, released := true, suspended := x.suspended || x.host.isNone,
    firstEpoch := e }).modJalif fun j => { j with heldImg := terase j.heldImg i }

/-- The spindles of a partition (R461). -/
def State.spindlesOf (s : State) (p : Nat) : List Nat := allSpindles.filter fun i => s.param 0x0103 i == p

/-- PARTITION_RELEASE (R35, R468): the partition's spindles that are not released and not frozen start from the start
record; partition 0 comes first; a record that fails is noted with status ADDRESS_INVALID. -/
def State.releasePartition (s : State) (p : Nat) : State :=
  let q := s.jalif.toRelease
  if !s.running ∨ !q.contains p ∨ (p ≠ 0 ∧ q.contains 0) then s
  else
    let fin (t : State) : State := t.modJalif fun j => { j with toRelease := j.toRelease.filter (· != p) }
    match s.readStart p with
    | (none, t) => t
    | (some none, t) => (fin (t.modJalif fun j => { j with startFail := tset 0 j.startFail p 0x0B })).raise 0x0B08 p
    | (some (some r), t) =>
      let is := (t.spindlesOf p).filter fun i => !(t.sp i).released && !(t.sp i).frozen && !(t.sp i).noSave
      fin (foldS is (fun i u => u.releaseWith i r) (t.modJalif fun j => { j with startFail := terase j.startFail p }))

end Sys2Proof.Machine
end

