-- ==== Sys2Proof/Machine/Mailbox.lean ====
section
/-!
DEFINITION. Answers to mailbox requests (R453, R454), the notices that several rules post (R458), the keys of the fabric's
domains (R282), and what the package life states follow (R33).
-/

namespace Sys2Proof.Machine

/-- A response written whole: BUSY clears, RESP_VALID is set, and interrupt 248 is raised on a partition's page (R453). A
SEQ_MISMATCH performs nothing, so it is not the slot's last answered request (R452). -/
def State.respond (s : State) (mb : Mb) (code status : Nat) (res : List Nat) (payload : List Byte := []) : State :=
  let bit : BitVec 4 := BitVec.ofNat 4 (2 ^ mb.slot)
  let s1 := s.modMbox mb.page fun m => { m with
    resp := tset {} m.resp mb.slot { code := code, status := status, seq := mb.seq, res := res, payload := payload },
    busy := m.busy &&& ~~~bit, respValid := m.respValid ||| bit, taken := m.taken &&& ~~~bit,
    lastSeq := if status = 4 then m.lastSeq else tset 0 m.lastSeq mb.slot (mb.seq + 1) }
  if mb.page = 49 then s1 else s1.notifyIntr 0x0F00 mb.page 248

/-- The mailbox slot that an index 50 * slot + page names, with the SEQ of its request in flight. -/
def State.mbOf (s : State) (n : Nat) : Mb := ⟨n % 50, n / 50, tget 0 (s.mbox (n % 50)).bell (n / 50)⟩
/-- The index of a mailbox slot. -/
def mbIndex (mb : Mb) : Nat := 50 * mb.slot + mb.page

/-- A notice about a spindle, to its owner and to partition 0 (R458). -/
def State.spindleNotice (s : State) (i ty : Nat) (args : List Nat) : State :=
  let s1 := s.postNotice 0 ty (i :: args)
  match s.partOf i with
  | some p => if p = 0 then s1 else s1.postNotice p ty (i :: args)
  | none => s1

/-- The spindle stops for a CAUSE of R458, and its notices are posted (R143, R154, R172, R201, R207, R434). -/
def State.stopSpindle (s : State) (i cause seq tsbCause : Nat) : State :=
  if (s.sp i).stopped ≠ 0 then s
  else (s.modSp i fun x => { x with stopped := cause }).spindleNotice i 1 [cause, seq, tsbCause]

/-- The key of a ply in State.fab.fences. -/
def plyKey (k p : Nat) : Nat := 1024 + 20 * k + p
/-- The key of an L3 slice of skein k. -/
def sliceKey (k j : Nat) : Nat := 2048 + 4 * k + j

/-- The keys of the domains within skein k: its press and cipher units, its plies and its L3 slices. -/
def skeinKeys (k : Nat) : List Nat :=
  [512 + 2 * k, 513 + 2 * k] ++ (List.range 20).map (plyKey k) ++ (List.range 4).map (sliceKey k)

/-- The key of a fabric domain in State.fab.fences. -/
def fdomKey (d : FDomain) : Nat :=
  match d with
  | .skein n => n.val | .guest n => 16 + n.val | .flex n => 32 + n.val | .rack n => 64 + n.val
  | .engine n => 128 + n.val | .channel n => 256 + n.val
  | .unitOf n u => 512 + 2 * n.val + (match u with | .press => 0 | .cipher => 1)
  | .ply n p => plyKey n p | .slice n j => sliceKey n j

/-- The drain-and-fence record of a domain (R282). -/
def State.fence (s : State) (key : Nat) : FenceSt := tget {} s.fab.fences key
/-- The record becomes x. -/
def State.setFence (s : State) (key : Nat) (x : FenceSt) : State :=
  { s with fab := { s.fab with fences := tset {} s.fab.fences key x } }

/-- A DRAIN reaches the domain of a key: it begins to drain, and a second one changes nothing (R282, R283). -/
def State.drainKey (s : State) (key : Nat) : State :=
  if (s.fence key).st = 0 then s.setFence key { st := 1, since := s.time } else s

/-- A skein, a strand link, a DDR5 channel, a rack port or a flex lane group is lost (R33, R281, R315, R374, R381). -/
def State.anyLost (s : State) : Bool :=
  (allSkeins.any fun k => (s.sk k).lost || (s.sk k).buddyLost) ||
  ((List.range 16).any fun c => decide (2 ≤ (s.mch c).state)) ||
  ((List.range 12).any fun k => (s.rack k).lost) || ((List.range 24).any fun n => (s.flexP n).lost)

/-- RUN becomes DEGRADED when a resource is lost, and DEGRADED becomes RUN when none is (R33). -/
def State.relife (s : State) : State :=
  match s.life with
  | .run => if s.anyLost then { s with life := .degraded } else s
  | .degraded => if s.anyLost then s else { s with life := .run }
  | _ => s

/-- The code of a ledger state (R342). -/
def LState.code : LState → Nat
  | .free => 0 | .queued => 1 | .active => 2 | .issuing => 3 | .issued => 4 | .redrive => 5 | .terminal => 6 | .frozen => 7

/-- Every entry still in the ledger is written to the MRAM reset log (R362). -/
def State.writeResetLog (s : State) : State :=
  s.modJalif fun j => { j with resetLog := (s.chan.ledger.filter fun e => e.2.st != .free).map fun e =>
    { tag := e.2.tag, token := e.2.token, tenant := e.2.tenant, st := e.2.st } }

/-- HALT (R33, R37): FATAL_N is driven low and ALIVE stops; the ledger, where boot has begun to use it, goes to the reset log
(R362). -/
def State.halt (s : State) : State :=
  if s.life = .off ∨ s.life = .halt then s
  else ({ (if s.life = Life.rom then s else s.writeResetLog) with life := .halt }.modPins fun p => { p with fatalLow := true, alive := false }).setErr

end Sys2Proof.Machine
end

