-- ==== Sys2Proof/Machine/Place.lean ====
section
/-!
DEFINITION. Places for spindles (R159 to R162, R202 to R204): the spare that a move takes, the place that a re-hosted or
suspended spindle takes, the preparation of that place, and the end of a move.
-/

namespace Sys2Proof.Machine

/-- The beads a ply holds, in thirty-seconds (R476): those of its step, or of the step granted to it, less a sixteenth for
each L2 way powered down or in a disabled L2. -/
def Ply.beads (y : Ply) : Nat :=
  let n := if 9 ≤ y.step then y.wantStep else if 9 ≤ y.wantStep then y.step else max y.step y.wantStep
  let ways := popCount 16 (y.l2On ||| y.l2Wait.setWidth 16).toNat
  if 9 ≤ n then 0 else 32 * stepBeads n - 2 * (16 - (if y.l2State = 2 && !y.l2Wait.getLsbD 16 then 0 else ways))

/-- The destinations of moves under way. -/
def State.targets (s : State) : List Place := s.cores.spindles.filterMap fun e => e.2.target

/-- A ply that hosts nothing and that no move takes (R162). -/
def State.plyFree (s : State) (k p : Nat) : Bool :=
  (s.spindlesOn k p).isEmpty && !(s.targets.any fun d => d.skein == k && d.ply == p)

/-- The skein can take one more spindle: up, and fewer than 40 (R191, R204). -/
def State.roomy (s : State) (k : Nat) : Bool :=
  s.skeinUp k && decide ((s.hosted k).length + (s.targets.filter fun d => d.skein == k).length < 40)

/-- The lowest spare ply of skein k in state st: 1 warm, 2 cold. -/
def State.spareOf (s : State) (st k : Nat) : Option Place :=
  if !s.roomy k then none
  else ((List.range 20).find? fun p => (s.ply k p).state == st && s.plyFree k p).map fun p => ⟨k, p, 0⟩

/-- The lowest unassigned fibre of a hosting ply of a Split skein. -/
def State.fibreOf (s : State) (k : Nat) : Option Place :=
  if !s.roomy k || !(s.sk k).split then none
  else ((List.range 40).find? fun n => (s.ply k (n / 2)).state == 0 && (s.spindleAt k (n / 2) (n % 2)).isNone &&
      !(s.targets.any fun d => d == ⟨k, n / 2, n % 2⟩)).map fun n => ⟨k, n / 2, n % 2⟩

/-- The place that a move of a spindle on skein k takes, by the first choice of R159 that exists. -/
def State.chooseSpare (s : State) (k : Nat) : Option Place :=
  let tw := allSkeins.filter fun n => !(s.sk n).split
  let sp := allSkeins.filter fun n => (s.sk n).split
  (s.spareOf 1 k) <|> (s.spareOf 2 k) <|> tw.findSome? (s.spareOf 1) <|> tw.findSome? (s.spareOf 2) <|>
    sp.findSome? (s.spareOf 1) <|> sp.findSome? (s.spareOf 2) <|> sp.findSome? s.fibreOf

/-- The place that a re-hosted spindle takes, by the first choice of R202 that exists. -/
def State.choosePlace (s : State) : Option Place :=
  let fa := allSkeins.filter fun n => !(s.sk n).loose
  let tw := fa.filter fun n => !(s.sk n).split && (s.sk n).pair == 0
  let so := fa.filter fun n => (s.sk n).pair != 0
  let sp := fa.filter fun n => (s.sk n).split
  let lo := if s.param 0x0604 0 = 1 then allSkeins.filter fun n => (s.sk n).loose else []
  tw.findSome? (s.spareOf 1) <|> tw.findSome? (s.spareOf 2) <|> so.findSome? (s.spareOf 1) <|> so.findSome? (s.spareOf 2) <|>
    sp.findSome? (s.spareOf 1) <|> sp.findSome? (s.spareOf 2) <|> sp.findSome? s.fibreOf <|>
    lo.findSome? (s.spareOf 1) <|> lo.findSome? (s.spareOf 2) <|> lo.findSome? s.fibreOf

/-- The step that a hosting ply of skein k asks for: the target, not above the maximum (R482). -/
def State.stepGoal (s : State) (k : Nat) : Nat := if (s.sk k).hard then 0 else min (s.param 0x1001 k) (s.param 0x1002 k)

/-- The step that a ply stands at or is bound for. -/
def Ply.aim (y : Ply) : Nat := if y.wantStep < 9 then y.wantStep else y.step

/-- A powered ply is to run at step n or lower (R480): it steps down without a grant, and a rise granted beyond n is given back. -/
def State.lowerPly (s : State) (k p n : Nat) : State :=
  let y := s.ply k p
  if 9 ≤ y.step ∨ y.aim ≤ n then s
  else
    let z := { y with wantStep := if y.step = n then 15 else n }
    if y.step < n then (s.modPly k p fun _ => z).returnBeads k (y.beads - z.beads)
    else (s.modPly k p fun _ => z).returnBeads k (y.beads - ({ y with wantStep := 15 } : Ply).beads)

/-- A hosting ply aims at a step (R480, R482): down at once, up by a request at priority 5. -/
def State.aimPly (s : State) (k p goal : Nat) : State :=
  let y := s.ply k p
  let mine (w : BeadFor) : Bool := match w with
    | .step a b _ => a == k && b == p
    | _ => false
  if 9 ≤ y.step ∨ y.state ≠ 0 then s
  else
    let s1 := s.modSk k fun z => { z with waiting := z.waiting.filter fun r => r.prio != 5 || !mine r.what }
    if goal ≤ y.aim then s1.lowerPly k p goal
    else if y.aim < y.step then
      -- a fall under way ends where the goal lies
      (if goal ≤ y.step then s1.modPly k p fun y => { y with wantStep := if goal = y.step then 15 else goal }
        else (s1.modPly k p fun y => { y with wantStep := 15 }).askBeads k 5 (32 * (stepBeads goal - stepBeads y.step)) (.step k p goal))
    else s1.askBeads k 5 (32 * (stepBeads goal - stepBeads y.aim)) (.step k p goal)

/-- Place d is prepared for spindle i (R160 step 3, R203): the beads of its wake and step are asked for with priority 1; a
cold ply is to pass the comparator test, or on a Split skein the fibre self-test, and to be loaded. -/
def State.reserve (s : State) (i : Nat) (d : Place) : State :=
  let y := s.ply d.skein d.ply
  let s1 := s.modSp i fun x => { x with target := some d }
  if y.state = 0 then s1
  else
    let goal := s.stepGoal d.skein
    let cold := decide (9 ≤ y.step)
    let s2 := s1.modPly d.skein d.ply fun y => { y with
      state := 5, testPend := cold, draftVersion := if cold then 0 else y.draftVersion, draft := if cold then [] else y.draft }
    let want := ({ y with step := goal, wantStep := 15 } : Ply).beads
    if want ≤ y.beads then s2
    else s2.askBeads d.skein 1 (want - y.beads) (if cold then .ply d.skein d.ply else .step d.skein d.ply goal)

/-- A bead request for the ply waits. -/
def State.plyWaits (s : State) (k p : Nat) : Bool :=
  (s.sk k).waiting.any fun r => match r.what with
    | .ply a b => a == k && b == p && r.prio == 1
    | .step a b _ => a == k && b == p && r.prio == 1
    | _ => false

/-- The place is ready: powered, granted, tested, loaded with the held draft image, and not fenced (R160, R170, R282). -/
def State.placeReady (s : State) (d : Place) : Bool :=
  let y := s.ply d.skein d.ply
  decide (y.step < 9) && !y.testPend && y.draftVersion == s.jalif.draftVer && !s.plyWaits d.skein d.ply &&
    (s.fence (plyKey d.skein d.ply)).st == 0

/-- A reserved place that is given up: its ply is a spare again. -/
def State.unreserve (s : State) (i : Nat) : State :=
  match (s.sp i).target with
  | none => s
  | some d =>
    let s1 := s.modSp i fun x => { x with target := none }
    if (s.ply d.skein d.ply).state ≠ 5 then s1
    else s1.modPly d.skein d.ply fun y => { y with state := if y.step < 9 then 1 else 2 }

/-- A comparator test that a command requested cannot end: the command is answered TARGET_LOST (R165, R455). -/
def State.testLost (s : State) (k p : Nat) : State :=
  match (s.ply k p).testMb with
  | some n => (s.modPly k p fun y => { y with testMb := none }).respond (s.mbOf n) 0x42 0x17 []
  | none => s

/-- A ply is powered off in a state (R160 step 9, R282, R478): it is fenced, having nothing left to answer, its beads return and its
requests leave the queue. -/
def State.plyOff (s : State) (k p st : Nat) : State :=
  let s := s.testLost k p
  let y := s.ply k p
  let s1 := foldS y.sb (fun l t =>
    let x := t.skl k l
    let u := t.sbDrop k p l
    if (u.skl k l).held then u else (u.setSkl k l { x with sbh := setPly x.sbh p true }).evictLine k l) s
  let mine (w : BeadFor) : Bool := match w with
    | .ply a b => a == k && b == p
    | .step a b _ => a == k && b == p
    | .l2Way a b _ => a == k && b == p
    | _ => false
  (((s1.setFence (plyKey k p) { st := 2, since := s.time }).returnBeads k y.beads).modSk k fun z => { z with waiting := z.waiting.filter fun r => !mine r.what }).modPly k p fun y =>
    { y with
      state := st, step := 15, wantStep := 15, draftVersion := 0, draft := [], testPend := false, testFor := none, inject := 0, l2Wait := 0 }

/-- The L2 of a ply cleaned (R160 step 2): dirty lines go to the L3, clean lines are invalidated; none while a dirty line
has no way in the L3. -/
def State.cleanL2 (s : State) (k p : Nat) : Option State :=
  ((s.sk k).lines.filter fun e => e.2.l2.getLsbD p).foldl (fun o e => o.bind fun t =>
    let x := t.skl k e.1
    if x.dirty then t.l2Victim k p e.1
    else
      let u := t.l2Drop k p e.1
      some (if (u.skl k e.1).held then u else (u.setSkl k e.1 { u.skl k e.1 with l2 := x.l2 }).evictLine k e.1)) (some s)

/-- Spindle i begins to move to place d (R22, R160): the ply it leaves, when it is alone on it, begins to drain, and a Fastened
source of a cross-skein move completes a fasten first. -/
def State.moveTo (s : State) (i : Nat) (d : Place) : State :=
  match (s.sp i).host with
  | none => s
  | some h =>
    let z := s.sk h.skein
    let cross := decide (d.skein ≠ h.skein) && !z.loose
    let s0 := if (s.spindlesOn h.skein h.ply).length = 1 then s.drainKey (plyKey h.skein h.ply) else s
    let s1 := (s0.reserve i d).modSp i fun x => { x with
      moving := true, suspended := false, moveEpoch := if cross then z.openEpoch else 0 }
    if cross then s1.requestFasten h.skein else s1

/-- The spindle leaves a failed ply: for the spare of R159, or suspended while there is none (R162). -/
def State.startMove (s : State) (i : Nat) : State :=
  match (s.sp i).host with
  | none => s
  | some h =>
    match s.chooseSpare h.skein with
    | some d => s.moveTo i d
    | none =>
      let x := s.sp i
      let s1 := (s.modSp i fun y => { y with moving := true, suspended := true, moveEpoch := 0 }).modJalif fun j =>
        { j with heldImg := tset {} j.heldImg i { sp := x, epoch := (s.sk h.skein).openEpoch } }
      (s1.raise 0x0108 (20 * h.skein + h.ply) (some i)).spindleNotice i 5 [1]

/-- Moves that were to end on a ply take another place (R162, R172). -/
def State.retarget (s : State) (k p : Nat) : State :=
  let waiting := s.cores.spindles.filterMap fun e => match e.2.target with
    | some d => if d.skein = k ∧ d.ply = p then some e.1 else none
    | none => none
  foldS waiting (fun i t =>
    let u := t.modSp i fun x => { x with target := none }
    if (u.sp i).host.isSome then u.startMove i else u) s

/-- A ply is declared failed (R157, R164, R168 to R170): it begins to drain (R160 step 1) and its spindle moves to a spare; a move
that it was to serve takes another place. -/
def State.failPly (s : State) (k p : Nat) (detail : Option Nat) : State :=
  let s1 := (s.modPly k p fun y => { y with state := 3, inject := 0, failedAt := s.time }).drainKey (plyKey k p)
  let s2 := match detail with
    | some d => s1.raiseD 0x0101 (20 * k + p) (s.spindlesOn k p).head? d
    | none => s1.raise 0x0101 (20 * k + p) (s.spindlesOn k p).head?
  let s3 := s2.retarget k p
  if (s.spindlesOn k p).isEmpty then s3.plyOff k p 3 else foldS (s.spindlesOn k p) (fun i t => t.startMove i) s3

/-- The interrupts that the router still holds for a spindle are raised again for its new skein (R134). -/
def State.reroute (s : State) (i : Nat) (d : Place) : State :=
  let mine := s.home.router.filter fun r => r.1 == i
  let z := s.sk d.skein
  let bits_ : BitVec 256 := mine.foldl (fun m r => m ||| BitVec.ofNat 256 (2 ^ r.2.1)) 0
  let others := s.home.router.filter fun r => r.1 != i
  let kept := if z.loose then others else others ++ mine.map fun r => (r.1, r.2.1, z.openEpoch)
  { s with home := { s.home with router := kept } }.modSp i fun x => { x with intPending := x.intPending ||| bits_ }

/-- An operation that awaited a commit of the skein left behind is complete. -/
def OpRec.freed (r : OpRec) : OpRec :=
  match r.kind with
  | .fasten _ => { r with kind := .value }
  | _ => r

/-- A cache operation issued on a skein that is lost is issued again on the place d (R231). -/
def OpRec.reissued (r : OpRec) (up : Nat → Bool) (d : Place) : OpRec :=
  match r.kind with
  | .cacheop cop a n w l3 k _ => if up k then r else { r with kind := .cacheop cop a n w l3 d.skein d.ply }
  | _ => r

/-- The output that a spindle re-hosted from an image sends again for an operation in flight whose answer the gate has given since
(R188): the gate returns its held response. -/
def OpRec.again (r : OpRec) : Option Serial :=
  match r.kind with
  | .answer a n _ o => some (if n = 0 then { kind := .cop, seq := r.ser, addr := 16 * r.unit } else
      { kind := .ucLoad, seq := r.ser, addr := a, size := n, order := o })
  | .cacheop _ a .. => some { kind := .cacheop, seq := r.ser, addr := a }
  | _ => none

/-- The serial outputs of an image as the re-hosted spindle sends them again (R188): those that were pending, and before them the
one that the gate g has accepted and answered since. -/
def Spindle.resent (x : Spindle) (g : GateEntry) : List Serial :=
  let mine := x.serial.toList ++ x.serialNext
  let lost := (x.ops.find? fun r => r.ser == g.seq && r.ser != 0 && g.done && !(mine.any fun q => q.seq == r.ser)).bind OpRec.again
  lost.toList ++ mine.map fun q => { q with waitEpoch := 0, sent := false }

/-- The locks of L2 ways that spindle i's partition holds on the ply left behind are held on the new ply, their slots empty
(R234), but for a way that another partition has locked there; while another spindle of the partition stays, they stay
too (log 94). -/
def State.moveLocks (s : State) (i : Nat) (h d : Place) : State :=
  let part := (s.partOf i).getD 0 + 1
  let ways := (List.range 16).filter fun w => tget 0 (s.ply h.skein h.ply).l2Lock w == part
  let stays := (s.spindlesOn h.skein h.ply).any fun j => j != i && s.partOf j == s.partOf i
  let s1 := foldS ways (fun w t => t.modPly d.skein d.ply fun y =>
    if tget 0 y.l2Lock w = 0 then { y with l2Lock := tset 0 y.l2Lock w part } else y) s
  if stays then s1
  else foldS ways (fun w t => t.modPly h.skein h.ply fun y => { y with l2Lock := tset 0 y.l2Lock w 0 }) s1

/-- The SPINDLE_MOVE command of a spindle, when there is one, is answered (R453, R469). -/
def State.moveAnswered (s : State) (i status : Nat) : State :=
  match (s.sp i).moveMb with
  | some n => (s.modSp i fun x => { x with moveMb := none }).respond (s.mbOf n) 0x33 status []
  | none => s

/-- SPARE_ISSUE_START (R158, R160 steps 2 to 9): no barrier of the old skein is open, the old ply is fenced and its L2 clean, the
place is ready, a cross-skein move's source has committed; the spindle issues there with notice 1 pending, and the ply it
left is powered off. A Split fibre keeps the staged state as its fasten image. -/
def State.spareStart (s : State) (i : Nat) : State :=
  let x := s.sp i
  match x.host, x.target with
  | some h, some d =>
    let cross := decide (d.skein ≠ h.skein)
    let src := s.sk h.skein
    let alone := (s.spindlesOn h.skein h.ply).length == 1
    if !x.moving || !s.placeReady d || (cross && decide (src.committed < x.moveEpoch)) || src.inBarrier ||
        (alone && (s.fence (plyKey h.skein h.ply)).st != 2) then s
    else
      match (if alone then s.cleanL2 h.skein h.ply else some s) with
      | none => s.requestFasten h.skein
      | some s1 =>
        let p := x.arch.progress
        let s1 := if cross && x.longOn && (p.unit == 18 || p.unit == 19) && pcOpen p then
            s1.pcRelease h.skein p.unit (ctxPage p.ctx) else s1
        let s2 := s1.modSp i fun y =>
          let y := { y with
            host := some d, target := none, moving := false, suspended := false, notice1 := true, moveEpoch := 0, ahead := [] }
          if cross then { y with
              ops := y.ops.map OpRec.freed, longOn := false, resume := y.longOn || y.resume, longTrig := 0,
              firstEpoch := (s.sk d.skein).openEpoch, serial := y.serial.map (fun q => { q with waitEpoch := 0 }),
              serialNext := y.serialNext.map fun q => { q with waitEpoch := 0 } }
          else y
        let s3 := if cross then
            let t := (s2.reroute i d).requestFasten d.skein
            if src.loose then t
            else t.modJalif fun j => { j with heldImg := tset {} j.heldImg i { sp := t.sp i, epoch := x.moveEpoch } }
          else s2.modJalif fun j => { j with heldImg := terase j.heldImg i }
        let old := s.ply h.skein h.ply
        let there := s.sk d.skein
        let s3 := if there.split && !there.loose && !there.imgSend.contains i then
            s3.modSk d.skein fun z => { z with imgOwn := tset {} z.imgOwn i { sp := s3.sp i, epoch := x.moveEpoch } } else s3
        let s4 := s3.modPly d.skein d.ply fun y => { y with
          state := 0, movedAt := s.time, movedFrom := if old.state = 3 then some (20 * h.skein + h.ply) else none,
          fromBas := if old.state = 3 then old.retryBas else [], stamps := [], retryBas := [] }
        let s5 := s4.moveLocks i h d
        let s6 := if alone then s5.plyOff h.skein h.ply (if old.state = 3 then 3 else 2) else s5
        (((s6.aimPly d.skein d.ply (s6.stepGoal d.skein)).moveAnswered i 0).drain i).park i
  | _, _ => s

/-- A spindle placed afresh or from its image on place d (R202 to R204). -/
def State.placeAt (s : State) (i : Nat) (d : Place) (fresh : Option StartRec) : State :=
  let old := s.sp i
  let z := s.sk d.skein
  let s0 := ((s.modPly d.skein d.ply fun y => { y with state := 0 }).aimPly d.skein d.ply (s.stepGoal d.skein)).modJalif fun j => { j with
    rehost := j.rehost.filter (· != i) }
  match tget? s0.jalif.heldImg i with
  | some m =>
    let p := m.sp.arch.progress
    let q := if p.unit = 18 ∨ p.unit = 19 then { p with ustate := pcState (pcOut p) false } else p
    let out := m.sp.resent (tget {} s.home.gate i)
    let x := { m.sp with
      host := some d, target := none, moving := false, suspended := false, stopped := old.stopped,
      frozen := old.frozen || old.freezeReq, freezeReq := false, noSave := old.noSave, lostFrom := none, moveEpoch := 0, moveMb := none,
      notice2 := true, ahead := [], saved2 := m.epoch, firstEpoch := z.openEpoch,
      ops := m.sp.ops.map fun r => r.freed.reissued s.skeinUp d,
      arch := { m.sp.arch with progress := q },
      serial := out.head?, serialNext := out.drop 1 }
    let s1 := (s0.setSp i x).reroute i d
    (if z.loose then s1.modJalif fun j => { j with heldImg := terase j.heldImg i } else s1).drain i
  | none =>
    let s1 := s0.modSp i fun x => { x with
      host := some d, target := none, moving := false, suspended := false, lostFrom := none, released := false }
    match fresh with
    | some r => s1.releaseWith i r
    | none => s1
where
  /-- The value listed at a key. -/
  tget? (t : Tbl Image) (k : Nat) : Option Image := (t.find? fun e => e.1 == k).map (·.2)

/-- The start record a placement needs: one where the spindle has no image and its partition's record can be read; the
flag says that the placement must wait. -/
def State.startFor (s : State) (i : Nat) : Bool × Option StartRec × State :=
  if s.jalif.heldImg.any fun e => e.1 == i then (false, none, s)
  else match s.partOf i with
    | none => (false, none, s)
    | some p => match s.readStart p with
      | (none, t) => (true, none, t)
      | (some none, t) => (false, none, (t.modJalif fun j => { j with startFail := tset 0 j.startFail p 0x0B }).raise 0x0B08 p)
      | (some (some r), t) => (false, some r, t)

/-- A place with what it needs is taken for spindle i when it is ready; one whose image cannot be read has lost its checkpoint, and
stops (R154, R322). -/
def State.tryPlace (s : State) (i : Nat) (d : Place) : State :=
  if !s.placeReady d then s
  else if s.jalif.heldImg.any fun e => e.1 == i && e.2.bad then
    ((s.unreserve i).modJalif fun j => { j with
      heldImg := terase j.heldImg i, rehost := j.rehost.filter (· != i) }).stopSpindle i 1 0 0
  else match s.startFor i with
    | (true, _, t) => t
    | (false, r, t) => t.placeAt i d r

/-- REHOST_PLACEMENT (R202, R203): spindles are placed in ascending number; one for which there is no place is
suspended, one whose beads are not granted waits suspended for them. -/
def State.rehost (s : State) (i : Nat) : State :=
  if !s.running || !s.jalif.rehost.contains i || s.jalif.rehost.any (fun j => decide (j < i) && (s.sp j).target.isNone) then s
  else
    let suspend (t : State) : State := ((t.modSp i fun x => { x with suspended := true }).modJalif fun j =>
      { j with rehost := j.rehost.filter (· != i) }).raise 0x0204 i (some i)
    match (s.sp i).target with
    | some d => s.tryPlace i d
    | none => match s.choosePlace with
      | none => (suspend s).spindleNotice i 5 [1]
      | some d =>
        let s1 := s.reserve i d
        let fits := match (s1.waitingAt d.skein).find? fun r => r.prio == 1 with
          | some r => decide (s.grantedAt d.skein + r.beads ≤ 32 * ((s.sk d.skein).allowance + (s.sk d.skein).lent))
          | none => true
        if s1.placeReady d then s1.tryPlace i d
        else if fits then s1 else (suspend s1).spindleNotice i 5 [1]

/-- SUSPENDED_SPINDLE_PLACE (R162, R203): a place appears, or the place reserved becomes ready. -/
def State.placeSuspended (s : State) (i : Nat) : State :=
  let x := s.sp i
  if !s.running || !x.suspended then s
  else if x.moving then
    match x.host.bind fun h => s.chooseSpare h.skein with
    | some d => (s.moveTo i d).spindleNotice i 5 [2]
    | none => s
  else match x.target with
    | some d =>
      let t := s.tryPlace i d
      if (t.sp i).suspended then t else t.spindleNotice i 5 [2]
    | none => match s.choosePlace with
      | none => s
      | some d =>
        let t := (s.reserve i d).tryPlace i d
        if (t.sp i).suspended then t else t.spindleNotice i 5 [2]

end Sys2Proof.Machine
end

