-- ==== Sys2Proof/Machine/Recovery.lean ====
section
/-!
DEFINITION. Skein loss (R197 to R201, R207, R208, R526), the directory entries that it leaves behind (R198), the deletion
of spindle state, and settle, which carries out the reactions that the fault collector has decided within a command
(R427, R433).
-/

namespace Sys2Proof.Machine

/-- What a recovery does with a lost skein's state (R197, R200, R201, R207). -/
inductive LossKind where
  | buddy | hub | pair | loose
deriving DecidableEq, Repr

/-- How the loss of skein k is recovered: from the hub while it is solo or the pair is pairing (R200, R205); as a pair loss until the
fasten that R526 asks for has committed, or promoted lines are in memory (R201); as a Loose skein until both skeins of a pair
that was Loose have committed (R208). -/
def State.lossKind (s : State) (k : Nat) : LossKind :=
  let z := s.sk k
  let open_ := z.toHub && !(z.closingEpoch != 0 && z.committed == z.closingEpoch)
  if z.loose || (z.fromLoose && !(z.pairFirst && (s.sk (buddyOf k)).pairFirst)) then .loose
  else if open_ || !z.promo.isEmpty then .pair
  else if z.pair = 1 ∨ (z.pair = 2 ∧ !z.fromLoose) then .hub
  else if s.skeinUp (buddyOf k) then .buddy else .pair

/-- Step 3 of R197 for the packets of a lost skein: those to it and from it are discarded, but for the dirty data of a line
whose committed copy the buddy has already released (log 29). -/
def State.lossNet (s : State) (k : Nat) : State :=
  let b := buddyOf k
  let gone := s.fab.net.filter fun p => p.src == k || p.dst == k
  let s1 := { s with fab := { s.fab with net := s.fab.net.filter fun p => !(p.src == k || p.dst == k) } }
  let s2 := if (s.sk k).loose then s1
    else foldS (gone.filter fun p => p.src == k && p.dirty && (p.cmd == 0x05 || p.cmd == 0x18)) (fun p t =>
      if (tget ({} : Dbl) (t.sk b).dbl p.line).cVal.isSome then
        t.modSk k fun z => { z with releases := z.releases.erase p.line }
      else t.homeWrite p.line p.val) s1
  s2.flushReleases k

/-- Step 3 of R197 at the home slices: the lost skein's transactions and requests end, and holds kept for it are released
(R185). A transaction that awaits its answer ends with a NACK to the requester: for LOST, or for DIR_FULL where it recalls a
victim, unless the request keeps its reserved slot (R247, R250). -/
def State.lossTxns (s : State) (k : Nat) : State :=
  let mine (t : Txn) : Bool := t.req.src == k
  let waits (t : Txn) : Bool := !mine t && (t.await.getLsbD k || t.evicting.getLsbD k)
  let ended := s.home.txns.filter waits
  let s1 := { s with home := { s.home with txns := s.home.txns.filter fun t => !mine t && !waits t } }
  let s2 := foldS (List.range 4) (fun h u => u.modHome h fun x => { x with
    topq := x.topq.filter fun p => p.src != k, awaits := x.awaits &&& ~~~(skBit k), sweep := true }) s1
  let s3 := foldS ended (fun t u =>
    let u := foldS t.got (fun q w => if q.src = k then w else w.send (replyTo q 0x1F)) u
    let u := if t.recallFor then u.modDir t.line fun d => { d with resv := false } else u
    if t.recallFor && topAge t.req then u.modHome (homeSlice t.line) fun x => { x with topq := t.req :: x.topq }
    else u.nack t.req (if t.recallFor then 3 else 5) u.estimate) s2
  s3.releaseHolds k

/-- What waits at the home slices for a lost skein's transactions and recalls goes on (R250, R262, R264). -/
def State.lossPump (s : State) : State := foldS (List.range 4) (fun h u => ((u.pumpTop h).biPump).recallEnd h) s

/-- The journal of a lost skein: copies of epochs after its committed one are discarded, and the others serve as those of
a completed fasten (R197 step 4, R200). -/
def State.lossJournal (s : State) (k : Nat) : State :=
  let e := (s.sk k).committed
  let j := s.home.journal.filterMap fun j => if j.skein ≠ k then some j else if j.epoch ≤ e then some { j with done := true } else none
  { s with home := { s.home with journal := j } }

/-- Step 6 of R197: the buddy promotes each committed copy of a line that the lost skein owned, and becomes its owner. -/
def State.promote (s : State) (k b : Nat) : State :=
  let dbl := (s.sk b).dbl.filterMap fun d => d.2.cVal.bind fun v =>
    let e := s.dirOf d.1
    if e.owner = k ∧ 2 ≤ e.state then some (d.1, v) else none
  let s1 := foldS dbl (fun d t => (t.setSkl b d.1 { val := d.2, fst := .fastenedDirty, own := .modified, l3 := true }).modDir d.1
    fun e => { e with state := 3, owner := b, sharers := 0 }) s
  let dirty := ((s.sk k).lines.filter fun e => e.2.dirty && !(dbl.any fun d => d.1 == e.1)).map (·.1)
  s1.modSk b fun z => { z with promo := dbl.map (·.1), lostDirty := dirty, dbl := [], imgC := [], imgP := [] }

/-- The buddy becomes solo (R199, R200, R526): what its fasten had committed into the lost skein is finished; the rest of a
doubling goes to the hub, with every line whose committed copy lay in the lost skein. -/
def State.becomeSolo (s : State) (b k : Nat) : State :=
  let zb := s.sk b
  let protected_ := zb.pair == 0 || zb.fromLoose
  let s1 := if zb.closingEpoch ≠ 0 ∧ zb.committed = zb.closingEpoch then s.doubleAck b else s
  let sent := ((s.sk k).dbl.filter fun d => d.2.pVal.isSome).map (·.1)
  s1.modSk b fun z =>
    let open_ := decide (z.closingEpoch ≠ 0)
    let again := (z.lines.filter fun e => e.2.fst == .closing || e.2.fst == .fastenedDirty || sent.contains e.1).map (·.1)
    let hub := protected_ || z.toHub
    let lines := z.lines.map fun e => if again.contains e.1 && e.2.fst != .unfastened then (e.1, { e.2 with due := true }) else e
    { z with
      lines := if open_ && hub then lines else z.lines,
      pair := 1, pairFirst := false, fromLoose := false, toHub := hub,
      toSend := if open_ && hub then again else z.toSend,
      imgSend := if open_ && hub then z.imgOwn.map (·.1) else z.imgSend,
      spillOpen := if open_ && hub then 0 else z.spillOpen, releases := [] }

/-- A line is written to memory as poisoned, and no skein holds it (R201, R207). -/
def State.losePoison (s : State) (l : Nat) : State :=
  (s.poisonLine l).modDir l DirEntry.clear

/-- The lines that a Loose loss (R207) or a pair loss (R201) poisons. In a pair loss those that the skein lost first held dirty
count while no other skein has taken them (log 93). -/
def State.dirtyLines (s : State) (k : Nat) (kind : LossKind) : List Nat :=
  match kind with
  | .loose => (s.home.dir.filter fun e => 3 ≤ e.2.state && e.2.owner == k).map (·.1)
  | .pair =>
    let mine := ((s.sk k).lines.filter fun e => e.2.fst != .clean).map (·.1)
    let free (l : Nat) : Bool := let d := s.dirOf l; d.state == 0 || d.owner == k || d.owner == buddyOf k
    (mine ++ (s.sk k).promo ++ (s.sk k).lostDirty.filter free).eraseDups
  | _ => (s.sk k).redouble.filter fun l => (s.dirOf l).owner == k

/-- The image from which a spindle of a lost skein resumes (R202, R204): the committed one of the buddy or of the hub, when
it is not older than the spindle's release or placement. -/
def State.lossImage (s : State) (k i : Nat) (kind : LossKind) : Option Image :=
  let from_ := match kind with
    | .buddy => (s.sk (buddyOf k)).imgC
    | .hub => s.jalif.soloImg
    | _ => []
  (from_.find? fun e => e.1 == i && decide ((s.sp i).firstEpoch ≤ e.2.epoch)).map (·.2)

/-- A spindle that the loss leaves without a place: its image is held and it waits for re-hosting, or it stops (R197 step 7,
R201, R207). -/
def State.lossSpindle (s : State) (k i : Nat) (kind : LossKind) : State :=
  let s0 := ((s.unreserve i).moveAnswered i 0x17).modSp i fun x => { x with
    host := none, moving := false, suspended := false, lostFrom := some k, moveEpoch := 0 }
  match kind with
  | .buddy | .hub =>
    let s1 := match s.lossImage k i kind with
      | some m => s0.modJalif fun j => { j with heldImg := tset {} j.heldImg i m }
      | none => s0
    if !(s.sp i).released then s1
    else s1.modJalif fun j => { j with rehost := if j.rehost.contains i then j.rehost else j.rehost ++ [i] }
  | .pair => (if (s.sp i).released then s0.stopSpindle i 4 0 0 else s0).modJalif fun j => { j with heldImg := terase j.heldImg i }
  | .loose => if (s.sp i).released then
      (s0.modSp i fun x => { x with intPending := 0 }).stopSpindle i 3 0 0 else s0

/-- The press and cipher contexts that a lost skein held modified (R395, R410): as of the last completed fasten, or lost on
a Loose skein. -/
def State.lossContexts (s : State) (k : Nat) (kind : LossKind) : State :=
  let z := s.sk k
  let done := decide (z.closingEpoch ≠ 0 ∧ z.committed = z.closingEpoch)
  let pages := (s.tenants.filter fun e => e.2.pHolder == some k || e.2.cHolder == some k).map (·.1)
  foldS pages (fun pg t =>
    let u := t.tenant pg
    let mp := u.pHolder == some k
    let mc := u.cHolder == some k
    let fastened := kind = .buddy ∨ kind = .hub
    let t1 := t.modTenant pg fun u => { u with
      pHolder := if mp then none else u.pHolder, cHolder := if mc then none else u.cHolder,
      busyP := if mp then none else u.busyP, busyC := if mc then none else u.busyC,
      press := if mp then (if done then u.bP.getD u.shP else u.shP) else u.press,
      cipher := if mc then (if done then u.bC.getD u.shC else u.shC) else u.cipher,
      shP := if mp && done then u.bP.getD u.shP else u.shP, shC := if mc && done then u.bC.getD u.shC else u.shC,
      bP := if mp then none else u.bP, bC := if mc then none else u.bC,
      poisoned := u.poisoned || !fastened }
    if fastened then t1 else t1.raise 0x0904 (256 + pg)) s

/-- What remains of a lost skein's record: its settings, epochs and counts. -/
def Skein.lostRec (z : Skein) (why : LossCause) : Skein :=
  { split := z.split, loose := z.loose, lost := true, lostClock := why == .clock,
    openEpoch := z.openEpoch, committed := z.committed, pair := z.pair, fastens := z.fastens, forced := z.forced,
    spills := z.spills, dbl := z.dbl.filterMap (fun d => if d.2.pVal.isSome then some (d.1, { pVal := d.2.pVal }) else none),
    replayTot := z.replayTot, allowance := 0, dieGen := z.dieGen, temp := z.temp,
    resetLast := 2 + 16 * (match why with | .reset => 0 | .clock => 3 | .heartbeat => 4 | _ => 2), l3Corrected := z.l3Corrected, outForGood := z.outForGood, admitTries := z.admitTries, hubMask := z.hubMask }

/-- The skein's plies, powered off, hold nothing (R197, R478). -/
def State.lossPlies (s : State) (k : Nat) : State :=
  foldS (List.range 20) (fun p t => (t.testLost k p).modPly k p fun y => { y with
    state := if y.state = 3 then 3 else 6, l2 := [], sb := [], l2Lock := [], step := 15, wantStep := 15, testPend := false,
    draftVersion := 0, draft := [], testFor := none, inject := 0, stamps := [], retryBas := [], cleaning := false, l2Wait := 0,
    corrected := 0, l2Failed := false }) s

/-- Beads of a lost skein (R477, R485): its allowance passes to the reserve, what it was lent returns, and its port on the hub is off. -/
def State.lossBeads (s : State) (k : Nat) : State :=
  let z := s.sk k
  (s.dropDomain (360 + k) 0).modPower fun p =>
    { p with reserve := p.reserve + z.allowance + z.heat + z.lent, loans := p.loans.filter fun l => l.1 != k }

/-- The hub's fence of a lost skein's ports is a force-fence, which supersedes every drain within the skein (R197, R283). -/
def State.lossFences (s : State) (k : Nat) : State :=
  (foldS (skeinKeys k) (fun n t => t.setFence n {}) s).setFence k { st := 2, since := s.time, forced := true }

/-- The loss of a skein while the reel runs (R197 to R201, R207). -/
def State.skeinLoss (s : State) (k : Nat) (why : LossCause) : State :=
  let b := buddyOf k
  if !s.skeinUp k ∨ s.life = .off ∨ s.life = .halt then s
  else
    let kind := s.lossKind k
    let hosts := s.hosted k
    let others := if kind = .pair then s.cores.spindles.filterMap fun e =>
      if e.2.host.isNone ∧ e.2.lostFrom = some b then some e.1 else none else []
    let moving := s.cores.spindles.filterMap fun e => match e.2.target, e.2.host with
      | some d, some h => if d.skein = k ∧ h.skein ≠ k then some e.1 else none
      | _, _ => none
    let s1 := (s.lossNet k).lossTxns k
    let dirty := s1.dirtyLines k kind
    let s2 := (s1.lossJournal k).lossContexts k kind
    let s3 := foldS hosts (fun i t => t.lossSpindle k i kind) s2
    let s4 := foldS others (fun i t => (if (t.sp i).released then t.stopSpindle i 4 0 0 else t).modJalif fun j => { j with
      rehost := j.rehost.filter (· != i), heldImg := terase j.heldImg i }) s3
    let s5 := if !s.skeinUp b || (s.sk b).loose then s4
      else ((if kind = .buddy then s4.promote k b else s4.modSk b fun z => { z with dbl := [], imgC := [], imgP := [] }).becomeSolo b k)
    let s6 := foldS dirty (fun l t => t.losePoison l) s5
    let s7 := ((s6.lossPlies k).lossBeads k).modSk k fun z => z.lostRec why
    let s8 := ((s7.lossFences k).lossPump).relife
    let s9 := foldS moving (fun i t => (t.modSp i fun x => { x with target := none }).startMove i) s8
    let s10 := s9.modJalif fun j => { j with rehost := (List.range 480).filter fun i => j.rehost.contains i }
    match kind with
    | .buddy | .hub => s10.raise 0x0201 k
    | .pair => s10.raise 0x0203 k
    | .loose => s10.raise 0x0202 k

/-- resolve of R198 for skein k. -/
def resolveEntry (d : DirEntry) (k : Nat) : DirEntry :=
  let d := if d.owner = k then { d with owner := 15 } else d
  let d := { d with sharers := d.sharers &&& ~~~(BitVec.ofNat 12 (2 ^ k)) }
  if d.owner = 15 ∧ d.sharers = 0 then d.clear else d

/-- The entry of a line, resolved for every lost skein (R198). -/
def State.resolveLine (s : State) (l : Nat) : State :=
  foldS (allSkeins.filter fun k => (s.sk k).lost) (fun k t => t.modDir l fun d => resolveEntry d k) s

/-- An entry still names the skein. -/
def namesSkein (d : DirEntry) (k : Nat) : Bool := d.owner == k || d.sharers.getLsbD k

/-- DIRECTORY_SWEEP (R198): one entry resolved; the sweep of a slice ends when no entry of it names a lost skein. -/
def State.directorySweep (s : State) (h l : Nat) : State :=
  if !(s.homeOf h).sweep then s
  else
    let s1 := if homeSlice l = h then s.resolveLine l else s
    let left := s1.home.dir.any fun e => homeSlice e.1 == h && allSkeins.any fun k => (s1.sk k).lost && namesSkein e.2 k
    (if left then s1 else s1.modHome h fun x => { x with sweep := false }).pumpTop h

/-- PROMOTION_WRITEBACK_COMPLETE (R197 step 8): the promoted lines are in memory and clean. -/
def State.promotionDone (s : State) (k : Nat) : State :=
  let ls := (s.sk k).promo
  let s1 := foldS ls (fun l t =>
    let x := t.skl k l
    if x.held && x.fst == .fastenedDirty then (t.homeWrite l x.val).modSkl k l fun y => { y with fst := .clean } else t) s
  s1.modSk k fun z => { z with promo := [], lostDirty := [] }

/-- One reaction carried out (R427, R433). -/
def State.react (s : State) (r : React) : State :=
  match r with
  | .event e rung => s.collect e false rung
  | .stop i cause seq tsb => s.stopSpindle i cause seq tsb
  | .stopPart p seq => foldS ((s.spindlesOf p).filter fun i => (s.sp i).released) (fun i t => t.stopSpindle i 5 seq 0) s
  | .loseSkein k why => s.skeinLoss k why
  | .halt => s.halt
  | .fatalSnap src seq => s.requestSnap 4 src seq

/-- The reactions that a command has queued, carried out in order, n at most. -/
def settleN : Nat → State → State
  | 0, s => s
  | n + 1, s => match s.faults.todo with
    | [] => s
    | r :: rest => settleN n ((s.modFaults fun f => { f with todo := rest }).react r)

/-- All of them: no command queues as many as the bound. -/
def State.settle (s : State) : State := settleN 262144 s

/-- The answer of a command: its effect, with the reactions carried out. -/
def done (s : State) : Host.Outcome State Fault Refusal := .next s.settle

end Sys2Proof.Machine
end

