-- ==== Sys2Proof/Machine/Retire.lean ====
section
/-!
DEFINITION. How a page leaves the map after the pulse of its retirement (R320).
-/

namespace Sys2Proof.Machine

/-- The lines of a page that a skein holds, that the directory lists, or of which a journal holds a copy. -/
def State.pageLines (s : State) (pg : Nat) : List Nat :=
  (natsFrom (32 * pg) 32).filter fun l =>
    decide (s.dirOf l ≠ {}) || (allSkeins.any fun k => (s.skl k l).held) || s.home.journal.any fun j => j.line == l

/-- The recall of a retired page's lines (R320 steps 3 and 4): with every line fastened, dirty lines are written to memory, no
skein keeps a copy, and the page leaves the map; the command is answered. -/
def State.retireOne (s : State) (pg : Nat) : State :=
  let ls := s.pageLines pg
  match s.hubLines ls with
  | (none, t) => t
  | (some _, t) =>
    let t1 := foldS ls (fun l u => u.hubPut l fun v => v) t
    let mb := (t1.mcs.retired.find? fun e => e.page == pg && e.pulsed && !e.applied).bind fun e => e.mb
    let t2 := { t1 with mcs := { t1.mcs with retired := t1.mcs.retired.map fun e =>
      if e.page = pg ∧ e.pulsed then { e with applied := true, mb := none } else e } }
    match mb with
    | some n => t2.respond (t2.mbOf n) 0x48 0 []
    | none => t2

/-- Every retirement whose pulse has come goes on. -/
def State.retireFlush (s : State) : State :=
  foldS ((s.mcs.retired.filter fun e => e.pulsed && !e.applied).map fun e => e.page) (fun pg t => t.retireOne pg) s

end Sys2Proof.Machine
end

