-- ==== Sys2Proof/Machine/Ply.lean ====
section
/-!
DEFINITION. The plies (R148 to R174): retry and its limit, failures, the checkpoint array, the comparator test and the
draft store.
-/

namespace Sys2Proof.Machine

/-- The first ply of a failure that follows the work is tested again (R163); its wake asks for beads (log 30). -/
def State.testAgain (s : State) (f : Nat) : State :=
  let k := f / 20
  let p := f % 20
  if !s.skeinUp k ∨ (s.ply k p).state ≠ 3 then s
  else (s.modPly k p fun y => { y with state := 4, testPend := true, draftVersion := 0, draft := [] }).askBeads k 5 (32 * stepBeads 0) (.ply k p)

/-- A retry of a Twin ply (R156, R157, R163): unretired work goes; the retry that reaches the limit declares the ply failed,
or raises event 3 when the failure follows the work. -/
def State.retryPly (s : State) (k p : Nat) : State :=
  let y := s.ply k p
  let limit := s.param 0x0500 0
  let win := s.param 0x0501 0
  let on := (s.spindlesOn k p).head?
  let ba := match on with
    | some i => (s.sp i).ba
    | none => 0
  let s0 := foldS (s.spindlesOn k p) (fun i t => t.modSp i fun x => { x with ahead := [] }) (s.clearL1 k p)
  let s1 := (s0.modPly k p fun y => { y with retryTotal := satBits 32 (y.retryTotal + 1) }).raise 0x0100
    (20 * k + p) on
  let stamps := y.stamps.take (limit - 1)
  let near : Bool := match stamps.getLast? with
    | some t => decide (limit ≤ stamps.length + 1 ∧ s.time < t + win)
    | none => false
  let bas := ba :: y.retryBas
  if limit ≤ 1 ∨ near then
    let follows := y.movedFrom.isSome && decide (s.time < y.movedAt + win) && (bas ++ y.fromBas).all (· == ba)
    match follows, on, y.movedFrom with
    | true, some i, some f =>
      (((s1.modPly k p fun y => { y with stamps := [], retryBas := [] }).modSp i fun x => { x with exhausted := true }).raise
        0x0102 (20 * k + p) (some i)).testAgain f
    | _, _, _ => (s1.modPly k p fun y => { y with retryBas := bas }).failPly k p none
  else
    s1.modPly k p fun y => { y with stamps := (s.time :: stamps).take (limit - 1), retryBas := bas.take (limit - 1) }

/-- A powered ply of a Twin skein that has not failed: its errors make it retry (R156). -/
def State.compares (s : State) (k p : Nat) : Bool :=
  let y := s.ply k p
  s.running && s.skeinUp k && !(s.sk k).split && decide (y.step < 9) && (y.state ≤ 1 || y.state == 4 || y.state == 5)

/-- PLY_RETRY (R156, R166): a detected error; an injected one counts down the injections. A difference that a comparator test
injects is the test's own outcome (R164). -/
def execPlyRetry (sk : SkId) (pl : PlId) (ev : PlyEvent) (s : State) : Host.Outcome State Fault Refusal :=
  let y := s.ply sk pl
  let injected := match ev with
    | .mismatch g => decide (0 < y.inject) && g.getLsbD y.injectGroup
    | _ => false
  let s1 := if injected then s.modPly sk pl fun y => { y with inject := y.inject - 1 } else s
  let tested := match ev with
    | .mismatch _ => y.testPend
    | _ => false
  done (if s.compares sk pl && !tested then s1.retryPly sk pl else s)

/-- SPARE_ISSUE_START (R160): the spare begins issuing, notice 1 is raised, and the failed ply is powered off. -/
def execSpareIssueStart (sp : SpId) (s : State) : Host.Outcome State Fault Refusal := done (s.spareStart sp)

/-- A ply's L2 lines that are dirty. -/
def State.dirtyInL2 (s : State) (k p : Nat) : List Nat :=
  ((s.sk k).lines.filter fun e => e.2.l2.getLsbD p && e.2.dirty).map (·.1)

/-- A line's value becomes poisoned where it is, and it leaves for memory (R162, R223). -/
def State.evictPoisoned (s : State) (k l : Nat) : State :=
  (s.modSkl k l fun x => { x with val := { x.val with poison := true } }).evictLine k l

/-- L2_CLEAN_TIMEOUT (R162): the L2 of a ply that failed 100 µs ago or earlier and still holds dirty lines is taken as failed: a
skein loss, or on a Loose skein its dirty lines are written as poisoned. -/
def execL2CleanTimeout (sk : SkId) (pl : PlId) (s : State) : Host.Outcome State Fault Refusal :=
  let ls := s.dirtyInL2 sk pl
  done (if !s.skeinUp sk ∨ (s.ply sk pl).state ≠ 3 ∨ ls.isEmpty ∨ s.time < (s.ply sk pl).failedAt + 100000 then s
    else
      let s1 := s.modPly sk pl fun y => { y with l2Failed := true }
      if (s.sk sk).loose then foldS ls (fun l t => t.evictPoisoned sk l) s1 else s1.skeinLoss sk .other)

/-- AGREEMENT_TIMEOUT (R149): a mismatch of group 60 or 61, and a retry. -/
def execAgreementTimeout (sk : SkId) (pl : PlId) (s : State) : Host.Outcome State Fault Refusal :=
  done (if s.compares sk pl && !(s.ply sk pl).testPend then
    (s.raise 0x0107 (20 * sk + pl) (s.spindlesOn sk pl).head?).retryPly sk pl else s)

/-- What a region of a checkpoint array holds for a spindle (R152): its retry checkpoint, its fasten image, its save slot, or a
copy staged for sparing or for the comparator test. -/
inductive Region where
  | checkpoint (i : Nat) | image (i : Nat) | slot (i : Nat) | testing (i : Nat) | sparing (i : Nat)
deriving DecidableEq, Repr

/-- The spindle whose move takes a fibre of a ply, and whose checkpoint its staging region holds (R160 step 5). -/
def State.stagedAt (s : State) (k p f : Nat) : Option Nat :=
  (s.cores.spindles.find? fun e => e.2.target == some ⟨k, p, f⟩).map (·.1)

/-- The use of a region of a ply's checkpoint array (R152, R160); none while it is unused. The retry checkpoint, the staged copies
and the save slot are the Spindle record itself, the fasten image is Skein.imgOwn. DESIGN CHOICE (log 91): the fasten-image
regions of a Loose skein, which fastens nothing, are unused. -/
def State.regionUse (s : State) (k p region : Nat) : Option Region :=
  let z := s.sk k
  let slotOf (f : Nat) : Option Region := (s.spindleAt k p f).bind fun i => if (s.sp i).slot.isSome then some (.slot i) else none
  let image (f : Nat) : Option Region :=
    if z.loose then none else (s.spindleAt k p f).bind fun i => if z.imgOwn.any (fun e => e.1 == i) then some (.image i) else none
  let staged (f : Nat) : Option Region := (s.stagedAt k p f).map .sparing
  if z.split then
    match region with
    | 0 => (image 0) <|> (staged 0)
    | 1 => (image 1) <|> (staged 1)
    | 2 => slotOf 0
    | _ => slotOf 1
  else match region with
    | 0 => (s.spindleAt k p 0).map .checkpoint
    | 1 => image 0
    | 2 => slotOf 0
    | _ => (if (s.ply k p).testPend then (s.ply k p).testFor.map .testing else none) <|> (staged 0)

/-- A region holds state that the ply cannot recover from another copy (R154): all that is in use but a copy staged for a move,
which is made again from the ply left behind (log 91). -/
def State.regionUsed (s : State) (k p region : Nat) : Bool :=
  match s.regionUse k p region with
  | none | some (.sparing _) => false
  | some _ => true

/-- CHECKPOINT_UNCORRECTABLE (R154): a skein loss on a Fastened skein, the ply's spindles stopped on a Loose one; an unused
region is rewritten. -/
def execCheckpointUncorrectable (sk : SkId) (pl : PlId) (region : Fin 4) (_fibre : Fin 2) (s : State) :
    Host.Outcome State Fault Refusal :=
  let on := s.spindlesOn sk pl
  done (if !s.skeinUp sk then s
    else if !s.regionUsed sk pl region then s.raise 0x010A (20 * sk + pl)
    else if (s.sk sk).loose then
      (foldS on (fun i t => t.stopSpindle i 1 0 0) s).raise 0x0104 (20 * sk + pl) on.head?
    else (s.skeinLoss sk .checkpoint).raise 0x0104 (20 * sk + pl) on.head?)

/-- A Split ply fails (R172): a skein loss that excludes it, or on a Loose skein its spindles stop and its L2 is written
back. A move that was to end on it takes another place. DESIGN CHOICE (log 91): the event names the ply's first spindle, as
that of a lost checkpoint does; R426 leaves it to the source whether one is named. -/
def State.splitFail (s : State) (k p : Nat) : State :=
  if !s.skeinUp k ∨ !(s.sk k).split ∨ (2 < (s.ply k p).state ∧ (s.ply k p).state ≠ 5) then s
  else
    let on := s.spindlesOn k p
    let s1 := (s.modPly k p fun y => { y with state := 3, failedAt := s.time }).retarget k p
    if (s.sk k).loose then
      let s2 := foldS (s.dirtyInL2 k p) (fun l t => t.evictLine k l) (foldS on (fun i t => t.stopSpindle i 2 0 0) s1)
      ((s2.cleanL2 k p).getD s2 |>.plyOff k p 3).raise 0x0109 (20 * k + p) on.head?
    else (s1.skeinLoss k .other).raise 0x0109 (20 * k + p) on.head?

/-- SPLIT_PLY_FAILED (R172). -/
def execSplitPlyFailed (sk : SkId) (pl : PlId) (s : State) : Host.Outcome State Fault Refusal := done (s.splitFail sk pl)

/-- DRAFT_WORD_UNCORRECTABLE (R169, R172): logged; a Twin ply reloads the word and retries, a Split ply fails. -/
def execDraftWordUncorrectable (sk : SkId) (pl : PlId) (s : State) : Host.Outcome State Fault Refusal :=
  done (if s.compares sk pl then (s.raise 0x0106 (20 * sk + pl) (s.spindlesOn sk pl).head?).retryPly sk pl
    else if s.skeinUp sk ∧ (s.sk sk).split ∧ (s.ply sk pl).step < 9 then (s.raise 0x0106 (20 * sk + pl)).splitFail sk pl
    else s)

/-- COMPARATOR_TEST (R164, R165): the mask of groups that flagged; any but all ones fails the ply. A requested test raises
notice 5 and answers its command. -/
def execComparatorTest (sk : SkId) (pl : PlId) (flagged : Word) (s : State) : Host.Outcome State Fault Refusal :=
  let y := s.ply sk pl
  let pass := flagged == BitVec.allOnes 64
  done (if !s.skeinUp sk ∨ (s.sk sk).split ∨ !y.testPend then s
    else
      let s1 := s.modPly sk pl fun y => { y with testPend := false, cmpMask := flagged, testFor := none, testMb := none }
      let s2 := match y.testFor with
        | some i => s1.modSp i fun x => { x with notice5 := some flagged }
        | none => s1
      let s3 := match y.testMb with
        | some n => s2.respond (s.mbOf n) 0x42 0 [flagged.toNat, b2n pass]
        | none => s2
      if pass then s3 else s3.failPly sk pl (some flagged.toNat))

/-- The CRC of the held draft image is that of its code (R167, R168). -/
def Jalif.draftCrcOk (j : Jalif) : Bool := crc32 0 (j.draftCode.flatMap fun w => leBytes 8 w.toNat) == j.draftCrc

/-- DRAFT_LOAD (R168, R170): the held image is copied into a powered ply's draft store and its CRC checked; crcOk says that the
copy arrived as it was sent. A second failed CRC declares the ply failed. -/
def execDraftLoad (sk : SkId) (pl : PlId) (crcOk : Bool) (s : State) : Host.Outcome State Fault Refusal :=
  let y := s.ply sk pl
  done (if !s.skeinUp sk ∨ 9 ≤ y.step ∨ 6 ≤ y.state ∨ y.state = 3 ∨ y.draftVersion = s.jalif.draftVer then s
    else if crcOk && s.jalif.draftCrcOk then s.modPly sk pl fun y => { y with
      draftVersion := s.jalif.draftVer, draft := s.jalif.draftCode, draftLoads := 0 }
    else if y.draftLoads = 0 then s.modPly sk pl fun y => { y with draftLoads := 1 }
    else (s.modPly sk pl fun y => { y with draftLoads := 0 }).failPly sk pl none)

/-- RUNTIME_SELF_TEST_COMPLETE (R160, R163, R171): the fibre self-test of a Split ply woken for a move; or that of a ply under
test, which passes this and the comparator test and returns as a spare, warm or cold as ply.spare_state gives, or else stays
failed. -/
def execRuntimeSelfTestComplete (sk : SkId) (pl : PlId) (pass : Bool) (s : State) : Host.Outcome State Fault Refusal :=
  let y := s.ply sk pl
  done (if s.skeinUp sk && (s.sk sk).split && y.state == 5 && y.testPend then
      (let s1 := s.modPly sk pl fun y => { y with testPend := false }
       if pass then s1 else s1.failPly sk pl none)
    else if !s.skeinUp sk ∨ y.state ≠ 4 ∨ (y.testPend ∧ pass) then s
    else if !pass then s.plyOff sk pl 3
    else if s.param 0x0503 0 = 1 ∧ y.step < 9 then s.modPly sk pl fun y => { y with state := 1 }
    else s.plyOff sk pl 2)

end Sys2Proof.Machine
end

