-- ==== Sys2Proof/Machine/FastenCmds.lean ====
section
/-!
DEFINITION. The commands of fastening, doubling, skein loss and re-hosting (R175 to R208).
-/

namespace Sys2Proof.Machine

/-- EPOCH_TICK (R175, R180): the epoch count has expired, or an early fasten is due: requested, or for the line limit. -/
def execEpochTick (sk : SkId) (s : State) : Host.Outcome State Fault Refusal :=
  done (if s.epochOver sk || (s.sk sk).early then s.epochTick sk else s)

/-- BARRIER_COMPLETE (R177): epoch e closes and e + 1 opens; ns is the barrier's length. -/
def execBarrierComplete (sk : SkId) (ns : Nat) (s : State) : Host.Outcome State Fault Refusal :=
  done (if s.skeinUp sk then s.barrierComplete sk ns else s)

/-- BARRIER_TIMEOUT (R181): a fibre has not joined within fasten.barrier_limit_cycles; its Twin ply retries, its Split ply
fails. -/
def execBarrierTimeout (sk : SkId) (pl : PlId) (_fibre : Fin 2) (s : State) : Host.Outcome State Fault Refusal :=
  done (if !s.skeinUp sk ∨ !(s.sk sk).inBarrier ∨ (s.ply sk pl).state ≠ 0 ∨
        s.time < (s.sk sk).barrierAt + plyTicks (s.ply sk pl).step (s.param 0x0602 0) then s
    else if (s.sk sk).split then (s.raise 0x0200 sk).splitFail sk pl else (s.raise 0x0200 sk).retryPly sk pl)

/-- GATHERING_WINDOW_CLOSE (R189). -/
def execGatheringWindowClose (sk : SkId) (s : State) : Host.Outcome State Fault Refusal := done (s.gatherClose sk)

/-- DBL_LINE (R178, R192). -/
def execDblLine (sk : SkId) (line : Nat) (s : State) : Host.Outcome State Fault Refusal :=
  done (if s.skeinUp sk then s.doubleLine sk line else s)

/-- DBL_IMAGE (R191): a chunk of a fasten image; chunk 31 completes it. -/
def execDblImage (sk : SkId) (sp : SpId) (chunk : Nat) (s : State) : Host.Outcome State Fault Refusal :=
  done (if s.skeinUp sk then s.doubleImage sk sp chunk else s)

/-- EPOCH_COMMIT (R179). -/
def execEpochCommit (sk : SkId) (s : State) : Host.Outcome State Fault Refusal :=
  done (if s.skeinUp sk then s.epochCommit sk else s)

/-- DBL_ACK (R179); a back-invalidate response and a retirement that waited for the fasten go on (R186, R320). -/
def execDblAck (sk : SkId) (s : State) : Host.Outcome State Fault Refusal :=
  done (if s.skeinUp sk then ((s.doubleAck sk).biPump).retireFlush else s)

/-- FASTEN_DONE (R196) at a home slice. -/
def execFastenDone (slice : SliceId) (p : Packet) (s : State) : Host.Outcome State Fault Refusal :=
  let p := { p with cmd := 0x22 }
  done (s.arrive p fun t => (t.fastenDone slice p).pumpTop slice)

/-- JOURNAL_WR (R193) at the line's home slice. -/
def execJournalWr (p : Packet) (s : State) : Host.Outcome State Fault Refusal :=
  let p := { p with cmd := 0x27 }
  done (s.arrive p fun t => t.journalWrite p)

/-- JOURNAL_COPY_WRITEBACK (R193). -/
def execJournalCopyWriteback (sk : SkId) (line : Nat) (s : State) : Host.Outcome State Fault Refusal :=
  done ((s.journalBack sk line).pumpTop (homeSlice line))

/-- RELEASE (R195) at the buddy. -/
def execRelease (sk : SkId) (line : Nat) (s : State) : Host.Outcome State Fault Refusal := done (s.releaseLine sk line)

/-- SNOOP_HOLD_EXPIRE (R185). -/
def execSnoopHoldExpire (sk : SkId) (line : Nat) (s : State) : Host.Outcome State Fault Refusal :=
  done (s.holdExpire sk line)

/-- SKEIN_LOSS (R197): the hub handles the skein as lost, for the cause given. -/
def execSkeinLoss (sk : SkId) (cause : LossCause) (s : State) : Host.Outcome State Fault Refusal :=
  done (s.skeinLoss sk cause)

/-- PROMOTION_WRITEBACK_COMPLETE (R197 step 8). -/
def execPromotionWritebackComplete (sk : SkId) (s : State) : Host.Outcome State Fault Refusal := done (s.promotionDone sk)

/-- DIRECTORY_SWEEP (R198). -/
def execDirectorySweep (slice : SliceId) (line : Nat) (s : State) : Host.Outcome State Fault Refusal :=
  done (s.directorySweep slice line)

/-- REHOST_PLACEMENT (R202). -/
def execRehostPlacement (sp : SpId) (s : State) : Host.Outcome State Fault Refusal := done (s.rehost sp)

/-- SUSPENDED_SPINDLE_PLACE (R203). -/
def execSuspendedSpindlePlace (sp : SpId) (s : State) : Host.Outcome State Fault Refusal := done (s.placeSuspended sp)

/-- REPAIRING_COMPLETE (R205). -/
def execRepairingComplete (sk : SkId) (s : State) : Host.Outcome State Fault Refusal := done (s.repair sk)

/-- The lines of skein k in ways 12 to 15 of its L3, with their slots. -/
def State.reservedLines (s : State) (k : Nat) : List (Nat × Nat) :=
  ((s.sk k).l3.filter fun e => 12 ≤ e.1 % 16 && e.2.line != 0).map fun e => (e.1, e.2.line - 1)

/-- A line leaves one slot of the L3: for its home when no other cache of the skein holds it, dirty data written back
(R208, R236). -/
def State.l3Leave (s : State) (k l : Nat) : State :=
  let x := s.skl k l
  let s1 := s.l3Drop k l
  if (s1.skl k l).held then s1 else (s1.setSkl k l { s1.skl k l with l3 := x.l3 }).evictLine k l

/-- A line leaves its reserved way (R183, R208): for its home, but an unfastened one for an ordinary way of its set, which is all
that keeps it within the skein; none while that has no way. -/
def State.resvLeave (s : State) (k l : Nat) : Option State :=
  let x := s.skl k l
  if x.fst = .unfastened ∨ x.fst = .closing then
    let s1 := s.l3Drop k l
    if (s1.skl k l).held then some s1
    else ((s1.setSkl k l { x with l3 := false }).l3Insert k l)
  else some (s.l3Leave k l)

/-- RESERVED_WAY_CLEAN_COMPLETE (R208): the four ways of a skein that has become Fastened are clean; when its buddy's are
too, both take their first barrier. -/
def execReservedWayCleanComplete (sk : SkId) (s : State) : Host.Outcome State Fault Refusal :=
  let k := sk.val
  let b := buddyOf k
  done (if !(s.sk k).resvClean then s
    else match ((s.reservedLines k).map (·.2)).foldl (fun o l => o.bind fun t => t.resvLeave k l) (some s) with
      | none => s
      | some t =>
        let s1 := t.modSk k fun z => { z with resvClean := false }
        if (s1.sk b).resvClean then s1 else (s1.epochTick k).epochTick b)

end Sys2Proof.Machine
end

