-- ==== Sys2Proof/Machine/CacheErr.lean ====
section
/-!
DEFINITION. Cache errors (R222 to R224), prefetches (R218, R219), and the cleaning, disabling and power-down of caches and
ways (R235 to R237).
-/

namespace Sys2Proof.Machine

/-- An error noted in CACHE_ERR_LOG (R239). -/
def State.logCache (s : State) (k p l level : Nat) (dirty recovered poisoned : Bool) : State :=
  s.modSk k fun z => { z with errLog := BitVec.ofNat 64 (128 * l % 2 ^ 52 + p % 32 * 2 ^ 52 + level * 2 ^ 57 +
    b2n dirty * 2 ^ 60 + b2n recovered * 2 ^ 61 + b2n poisoned * 2 ^ 62 + 2 ^ 63) }

/-- A line leaves ply p's side buffer; its home is told when nothing of the skein holds it (R219, R220). -/
def State.sbLeave (s : State) (k p l : Nat) : State :=
  let x := s.skl k l
  let s1 := s.sbDrop k p l
  if (s1.skl k l).held then s1 else (s1.setSkl k l { s1.skl k l with sbh := x.sbh }).evictLine k l

/-- A line leaves ply p's L2; a line that no other cache of the skein holds leaves for its home. -/
def State.l2Leave (s : State) (k p l : Nat) : State :=
  let x := s.skl k l
  let s1 := s.l2Drop k p l
  if (s1.skl k l).held then s1 else (s1.setSkl k l { s1.skl k l with l2 := x.l2 }).evictLine k l

/-- L1_PARITY_ERROR (R222): the line is invalidated in the L1s of the fibre, both fibres of a Twin ply, or in the side
buffer. -/
def execL1ParityError (sk : SkId) (pl : PlId) (where_ : L1Place) (line : Nat) (s : State) : Host.Outcome State Fault Refusal :=
  let x := s.skl sk line
  let m (f : Fin 2) : BitVec 40 := if (s.sk sk).split then BitVec.ofNat 40 (2 ^ (2 * pl.val + f.val)) else fibreBits pl
  let note (t : State) (level : Nat) : State := (t.logCache sk pl line level false true false).raise 0x0300 (20 * sk + pl)
  done (match where_ with
    | .l1d f => if x.l1d &&& m f = 0 then s else note (s.modSkl sk line fun y => { y with l1d := y.l1d &&& ~~~(m f) }) 2
    | .l1i f => if x.l1i &&& m f = 0 then s else note (s.modSkl sk line fun y => { y with l1i := y.l1i &&& ~~~(m f) }) 1
    | .side => if !x.sbh.getLsbD pl then s else note (s.sbLeave sk pl line) 3)

/-- The fastened copy of a line that a skein holds fastened-dirty: the buddy's, else the home's (R222). -/
def State.fastenedCopy (s : State) (k l : Nat) : Option LineVal :=
  match (tget ({} : Dbl) (s.sk (buddyOf k)).dbl l).cVal with
  | some v => some v
  | none => if (s.sk k).pair = 0 ∧ !(s.sk k).toHub then some (s.homeVal l) else none

/-- CACHE_UNCORRECTABLE (R222): an uncorrectable chunk in the L2 of a ply, or in the L3 (none). -/
def execCacheUncorrectable (sk : SkId) (pl : Option PlId) (line : Nat) (s : State) : Host.Outcome State Fault Refusal :=
  let x := s.skl sk line
  let k := sk.val
  let here := match pl with
    | some p => x.l2.getLsbD p
    | none => x.l3
  let p : Nat := match pl with
    | some p => p.val
    | none => 0
  let level := if pl.isSome then 4 else 5
  let inst := match pl with
    | some p => 20 * k + p.val
    | none => 240 + k
  done (if !here then s
    else if x.fst = .clean then
      ((if pl.isSome then s.l2Leave k p line else s.l3Leave k line).logCache k p line level false true false).raise 0x0303 inst
    else match (if x.fst = .fastenedDirty ∧ !(s.sk k).loose then s.fastenedCopy k line else none) with
      | some v => ((s.modSkl k line fun y => { y with val := v }).logCache k p line level true true false).raise 0x0303 inst
      | none => ((s.modSkl k line fun y => { y with val := { y.val with poison := true } }).logCache k p line level true false
          true).raise 0x0304 inst)

/-- CACHE_TAG_DOUBLE_FAILURE (R223): both tag copies of a way fail, in slot set * 16 + way of a ply's L2, or in slot
(slice * 12288 + set) * 16 + way of the L3. -/
def execCacheTagDoubleFailure (sk : SkId) (pl : Option PlId) (slot : Nat) (s : State) : Host.Outcome State Fault Refusal :=
  let k := sk.val
  done (if !s.skeinUp k then s
    else match pl with
      | some p =>
        let v := (tget ({} : CacheSlot) (s.ply k p).l2 slot).line
        let inst := 20 * k + p.val
        if v = 0 then s.raise 0x0305 inst
        else if (s.skl k (v - 1)).dirty then
          ((s.evictPoisoned k (v - 1)).logCache k p (v - 1) 4 true false true).raise 0x0304 inst |>.raise 0x0305 inst
        else (s.l2Leave k p (v - 1)).raise 0x0305 inst
      | none =>
        if !(s.sk k).loose then (s.skeinLoss k .cacheTag).raise 0x0306 (240 + k)
        else
          let v := (tget ({} : CacheSlot) (s.sk k).l3 slot).line
          if v = 0 then s.raise 0x0306 (240 + k)
          else if (s.skl k (v - 1)).dirty then
            ((s.evictPoisoned k (v - 1)).logCache k 0 (v - 1) 5 true false true).raise 0x0304 (240 + k) |>.raise 0x0306 (240 + k)
          else (s.l3Leave k (v - 1)).raise 0x0306 (240 + k))

/-- BUDDY_COPY_LOST (R222): the reserved way of skein sk drops a committed copy, and its owner doubles the line again. -/
def execBuddyCopyLost (sk : SkId) (line : Nat) (s : State) : Host.Outcome State Fault Refusal :=
  let k := sk.val
  done (if (tget ({} : Dbl) (s.sk k).dbl line).cVal.isNone then s
    else
      let s1 := (s.modDbl k line fun d => { d with cVal := none, cAge := 0 }).modSk (buddyOf k) fun z =>
        { z with redouble := if z.redouble.contains line then z.redouble else z.redouble ++ [line] }
      (s1.logCache k 0 line 6 true false false).raise 0x0307 (240 + k))

/-- The line continues a stride between the last two misses of a fibre, within the 4 KiB of the last (R218). -/
def Ply.strideHit (y : Ply) (line : Nat) : Bool :=
  [0, 1].any fun f =>
    let a := tget 0 y.strides (2 * f)
    let b := tget 0 y.strides (2 * f + 1)
    let up := decide (b < a ∧ a < line + 1) && (line + 1 - a) % (a - b) == 0
    let down := decide (a < b ∧ line + 1 < a) && (a - (line + 1)) % (b - a) == 0
    a != 0 && b != 0 && (up || down) && line / 32 == (a - 1) / 32

/-- PREFETCH_ISSUE (R218): the ply's prefetcher, which watches the L2 misses of both fibres for strides, asks for a Shared copy
of a line of coherent memory that the skein lacks. -/
def execPrefetchIssue (sk : SkId) (pl : PlId) (line : Nat) (s : State) : Host.Outcome State Fault Refusal :=
  done (if s.running && s.skeinUp sk && (s.ply sk pl).state == 0 && s.l2Up sk pl && s.param 0x0700 (20 * sk + pl) == 1 &&
      (s.ply sk pl).strideHit line && s.memRange (128 * line) 128 && !(s.skl sk line).held then s.ask sk pl line false true else s)

/-- PREFETCH_AGE_EXPIRE (R219): a side-buffer line not used within cache.prefetch_age_cycles is invalidated. -/
def execPrefetchAgeExpire (sk : SkId) (pl : PlId) (line : Nat) (s : State) : Host.Outcome State Fault Refusal :=
  let y := s.ply sk pl
  done (if (s.skl sk line).sbh.getLsbD pl ∧ tget 0 y.sbAt line + plyTicks y.step (s.param 0x0701 0) ≤ s.time + 1 then s.sbLeave sk pl line else s)

/-- Lines are cleaned out of a ply's L2 or the L3; while one of them is unfastened or closing a fasten comes first, and
nothing leaves (R183, R235, R236). -/
def State.cleanOut (s : State) (k : Nat) (pl : Option Nat) (ls : List Nat) : Option State :=
  if ls.any fun l => let f := (s.skl k l).fst; f == .unfastened || f == .closing then none
  else some (foldS ls (fun l t =>
    let t1 := if (t.skl k l).dirty then t.cleanLine k l else t
    match pl with
    | some p => t1.l2Leave k p l
    | none => t1.l3Leave k l) s)

/-- The lines in the slots of a cache that satisfy c. -/
def State.slotLines (s : State) (k : Nat) (pl : Option Nat) (c : Nat → Bool) : List Nat :=
  let t := match pl with
    | some p => (s.ply k p).l2
    | none => (s.sk k).l3
  (t.filter fun e => c e.1 && e.2.line != 0).map fun e => e.2.line - 1

/-- The ply number of an optional ply. -/
def plNat (pl : Option PlId) : Option Nat := pl.map (·.val)

/-- CACHE_DRAIN_COMPLETE (R235): a draining cache holds nothing dirty, drops its clean lines and reports disabled; the beads of
its arrays return until it is enabled again (log 37). The slices of an L3 then drain and are fenced (R282). -/
def execCacheDrainComplete (sk : SkId) (pl : Option PlId) (s : State) : Host.Outcome State Fault Refusal :=
  let k := sk.val
  let st := match pl with
    | some p => (s.ply k p).l2State
    | none => (s.sk k).l3State
  done (if st ≠ 1 then s
    else match s.cleanOut k (plNat pl) (s.slotLines k (plNat pl) fun _ => true) with
      | none => s.requestFasten k
      | some s1 => match pl with
        | some p =>
          let s2 := s1.returnBeads k (if (s.ply k p).step < 9 then 2 * popCount 16 (s.ply k p).l2On.toNat else 0)
          foldS (s2.ply k p).sb (fun l t => t.sbLeave k p l) (s2.modPly k p fun y => { y with l2State := 2, cleaning := y.l2Off != 0 })
        | none => foldS (List.range 4) (fun j t => t.drainKey (sliceKey k j))
            ((s1.returnBeads k (32 * popCount 16 (s.sk k).l3On.toNat)).modSk k fun z => { z with l3State := 2, cleaning := z.l3Off != 0 }))

/-- WAY_POWER_OFF_COMPLETE (R236): the way is clean, its gate reports off, and its beads return: a sixteenth of a bead for an
L2 way, a quarter for each of the four slices of an L3 way (R476). -/
def execWayPowerOffComplete (sk : SkId) (pl : Option PlId) (way : Fin 16) (s : State) : Host.Outcome State Fault Refusal :=
  let k := sk.val
  let bit : BitVec 16 := BitVec.ofNat 16 (2 ^ way.val)
  let off := match pl with
    | some p => (s.ply k p).l2Off
    | none => (s.sk k).l3Off
  done (if off &&& bit = 0 then s
    else match s.cleanOut k (plNat pl) (s.slotLines k (plNat pl) fun n => n % 16 == way.val) with
      | none => s.requestFasten k
      | some s1 => match pl with
        | some p => (s1.returnBeads k (if (s.ply k p).step < 9 ∧ (s.ply k p).l2State ≠ 2 then 2 else 0)).modPly k p fun y =>
            { y with l2On := y.l2On &&& ~~~bit, l2Off := y.l2Off &&& ~~~bit, cleaning := y.l2Off &&& ~~~bit != 0 || y.l2State == 1 }
        | none => (s1.returnBeads k (if (s.sk k).l3State ≠ 2 then 32 else 0)).modSk k fun z =>
            { z with l3On := z.l3On &&& ~~~bit, l3Off := z.l3Off &&& ~~~bit, cleaning := z.l3Off &&& ~~~bit != 0 || z.l3State == 1 })

/-- CLEAN_LIMIT_TIMEOUT (R237): a cleaning goes on beyond cache.clean_limit_us. -/
def execCleanLimitTimeout (sk : SkId) (pl : Option PlId) (s : State) : Host.Outcome State Fault Refusal :=
  let k := sk.val
  let late (t : Nat) : Bool := decide (t + s.param 0x0709 0 * 1000 ≤ s.time)
  done (match pl with
    | some p => if (s.ply k p).cleaning && late (s.ply k p).cleanAt then s.raise 0x0309 (20 * k + p.val) else s
    | none => if (s.sk k).cleaning && late (s.sk k).cleanAt then s.raise 0x0309 (240 + k) else s)

end Sys2Proof.Machine
end

