-- ==== Sys2Proof/Machine/Coherence.lean ====
section
/-!
DEFINITION. The home slices (R241 to R264): the order of requests at the home, the directory, the snoops and their answers,
evictions that cross a snoop, and what a skein does with a grant, a snoop or a recall.
-/

namespace Sys2Proof.Machine

/-- A request at its home slice (R247, R250, R254): opened, refused with a reason, or at the top age kept in its reserved
slot. -/
def State.homeRequest (s : State) (p : Packet) : State :=
  if p.src < 12 ∧ !s.skeinUp p.src then s
  else
    let s := s.resolveLine p.line
    let h := homeSlice p.line
    let hold (reason : Nat) : State :=
      if topAge p then s.modHome h fun x => { x with topq := x.topq ++ [p], tops := satBits 64 (x.tops + 1) }
      else s.nack p reason s.estimate
    if (s.txnOn p.line).isSome ∨ ((s.homeOf h).topq.any fun q => q.line == p.line) then hold 1
    else if s.recalling p.line then hold 3
    else if !topAge p ∧ s.plainSlots ≤ s.slotsUsed h false then hold 2
    else
      let s := if topAge p then s.modHome h fun x => { x with tops := satBits 64 (x.tops + 1) } else s
      if s.wantsWay p then s.needWay p false else s.serve p

/-- A WB or EVICT_CLEAN at the home (R254, R255): dirty data is written, the skein is removed as a holder unless it keeps a
cleaned line (log 23); while its snoop is open the notice counts for its answer and its acknowledgement waits. An UPGRADE of a
skein that has let the line go is served with its data. -/
def State.homeEvict (s : State) (p : Packet) : State :=
  let l := p.line
  let k := p.src
  if 12 ≤ k ∨ !s.skeinUp k then s
  else
    let d := s.dirOf l
    let wb := p.cmd == 0x05
    let cleaned := wb && p.hint == 1
    let owner := decide (2 ≤ d.state) && d.owner == k
    let holder := owner || (d.state == 1 && d.sharers.getLsbD k)
    let drop (d : DirEntry) : DirEntry :=
      if owner then (if cleaned then { d with state := 2 } else d.clear)
      else
        let m := d.sharers &&& ~~~(skBit k)
        if m = 0 then d.clear else { d with sharers := m }
    let s1 := if wb ∧ owner then s.homeWrite l p.val else s
    let s2 := if holder then s1.modDir l drop else s1
    match s.txnAt l with
    | some t =>
      if t.await.getLsbD k ∧ !cleaned then
        let u := { t with data := if wb ∧ owner then some p.val else t.data, got := t.got ++ [p] }
        if t.evicting.getLsbD k then
          (s2.setTxn { u with await := t.await &&& ~~~(skBit k), evicting := t.evicting &&& ~~~(skBit k) }).finishTxn l
        else s2.setTxn u
      else
        (if t.req.src = k ∧ t.req.cmd = 3 ∧ !t.recallFor ∧ !cleaned then s2.setTxn { t with req := { t.req with cmd := 2 } } else s2).send
          (replyTo p 0x1F)
    | none => ((s2.send (replyTo p 0x1F)).pumpTop (homeSlice l)).biPump

/-- A skein's answer to a snoop (R254, R255): DATA, ACK, NACK or EVICTING; its TAG names the line (R272). -/
def State.homeAnswer (s : State) (p : Packet) : State :=
  let k := p.src
  match s.txnOf p with
  | none => s
  | some t =>
    let l := t.line
    if 12 ≤ k ∨ !t.await.getLsbD k then s
    else
      let rest := t.await &&& ~~~(skBit k)
      match p.cmd with
      | 0x18 =>
        let s1 := if p.dirty then s.homeWrite l p.val else s
        let keeps := if t.req.cmd = 0x01 ∧ !t.recallFor then t.kept ||| skBit k else t.kept
        let gone := !(t.req.cmd == 0x07) || t.recallFor
        let s2 := if t.req.cmd = 0x01 ∧ !t.recallFor then
            s1.modDir l fun d => if d.owner = k then { d with state := 1, owner := 15, sharers := d.sharers ||| skBit k } else d
          else if gone then s1.modDir l fun d => d.without k else s1
        (s2.setTxn { t with await := rest, data := some p.val, kept := keeps }).finishTxn l
      | 0x1A => (s.setTxn { t with await := rest, nack := true, hint := p.hint }).finishTxn l
      | 0x1B =>
        if t.got.any fun q => q.src == k then (s.setTxn { t with await := rest }).finishTxn l
        else s.setTxn { t with evicting := t.evicting ||| skBit k }
      | _ =>
        let gone := !(t.req.cmd == 0x07) || t.recallFor
        let s1 := if gone then s.modDir l fun d => d.without k else s
        (s1.setTxn { t with await := rest }).finishTxn l

/-- The answer of a skein to a snoop. -/
def answerTo (p : Packet) (cmd : Nat) : Packet :=
  { cmd := cmd, age := p.age, tag := p.tag, src := p.dst, srcNode := p.dstNode, dst := 12, dstNode := p.srcNode, line := p.line }

/-- A snoop at a skein (R184, R185, R195, R255): EVICTING for a line that is leaving, NACK for one that is unfastened or
closing, else the answer, with the release of a line given up. A line whose CLEAN is not yet acknowledged is supplied as dirty
(log 23). -/
def State.snooped (s : State) (p : Packet) : State :=
  let k := p.dst
  let l := p.line
  if 12 ≤ k ∨ !s.skeinUp k then s
  else
    let x := s.skl k l
    if (s.sk k).leaving l then s.send (answerTo p 0x1B)
    else if !x.held then s.send (answerTo p 0x19)
    else if x.fst = .unfastened ∨ x.fst = .closing then
      ({ s with freeCtr := s.freeCtr + 1 }.nackLine k l (if topAge p then 2 else 1)).send
        { answerTo p 0x1A with aux := 4, hint := s.estimate }
    else
      let dirty := x.fst == .fastenedDirty
      let supplied := dirty || (s.sk k).cleans l
      let data := withData { answerTo p 0x18 with dirty := supplied } x.val
      match p.cmd with
      | 0x12 => if x.hold = 0 then s.send data else ((s.modSkl k l fun y => { y with hold := 0, nacked := 0 }).send data).drainSkein k
      | 0x10 =>
        let s1 := if dirty then s.sendRelease k l else s
        ((s1.modSkl k l fun y => { y with fst := .clean, own := .shared, hold := 0, nacked := 0 }).send data).drainSkein k
      | _ =>
        let s1 := if dirty then s.sendRelease k l else s
        ((s1.forget k l).send (if supplied then data else answerTo p 0x19)).drainSkein k

/-- A snoop arrives; one to a line whose grant is on its way to the skein waits for the grant (R270; log 95). -/
def State.snoopArrives (s : State) (p : Packet) : State :=
  if s.granting p.dst p.line then s else s.arrive p fun t => t.snooped p

/-- The line that a grant brings enters the ply's L2, or its side buffer for a prefetch, or the L3 while that L2 serves
nothing, or waits in the request's own buffer while the L3 allocates nothing either, or for its lock-fill; none while no way
takes it (R183, R218, R233, R235). -/
def State.fill (s : State) (k : Nat) (r : Req) (l : Nat) (v : LineVal) (own : Own) : Option State :=
  let x := s.skl k l
  let base := s.setSkl k l { x with val := v, fst := .clean, own := own }
  if r.pf && r.pkt.cmd == 1 && s.l2Up k r.ply then
    let old := (s.ply k r.ply).sb
    let s1 := match old with
      | o :: _ => if 32 ≤ old.length then base.sbLeave k r.ply o else base
      | [] => base
    some ((s1.modPly k r.ply fun y => { y with sb := y.sb ++ [l], sbAt := tset 0 y.sbAt l (s.time + 1) }).modSkl k l fun y => { y with sbh := setPly y.sbh r.ply true })
  else if r.lock then some (base.modSkl k l fun y => { y with buf := true })
  else if s.l2Up k r.ply then (base.l2Insert k r.ply l).map fun t => t.modPly k r.ply fun y =>
    { y with l2 := match findWay y.l2 (l2Base l) fun _ z => z.line == l + 1 with
      | some w => tmod {} y.l2 (l2Base l + w) fun z => { z with fresh := true }
      | none => y.l2 }
  else if (s.sk k).l3State = 0 then base.l3Insert k l
  else some (base.modSkl k l fun y => { y with buf := true })

/-- A grant at the skein that asked (R246, R254), which takes it at once (R270): a line that no way takes stays in the request's
buffer, and an early fasten is asked for (R183). A skein that has let the line of its UPGRADE go asks again. -/
def State.granted_ (s : State) (p : Packet) : State :=
  let k := p.dst
  match if k < 12 ∧ s.skeinUp k then (s.sk k).reqs.find? fun r => r.pkt.tag == p.tag && r.pkt.line == p.line else none with
  | none => s
  | some r =>
    let served (t : State) : State := (t.modSk k fun z => { z with reqs := z.reqs.filter fun q => q.pkt.tag != p.tag }).drainSkein k
    if p.cmd = 0x1E then
      (if (s.skl k p.line).held then served (s.modSkl k p.line fun y => { y with own := .modified }) else served s)
    else
      let own := if p.cmd = 0x1C then Own.shared else if r.pkt.cmd = 1 then .exclusive else .modified
      match s.fill k r p.line p.val own with
      | some t => served t
      | none => served ((s.modSkl k p.line fun x => { x with val := p.val, fst := .clean, own := own, buf := true }).requestFasten k)

/-- A NACK at the skein that asked (R218, R247, R248): a prefetch is dropped; another request waits at least the hint, with the
age at which the NACK found it raised. -/
def State.nacked (s : State) (p : Packet) : State :=
  let k := p.dst
  let again (r : Req) : Option Req :=
    if r.pkt.tag ≠ p.tag ∨ r.pkt.line ≠ p.line then some r
    else if r.pf then none
    else some { r with wait := true, until_ := s.time + fabricTicks p.hint,
                       pkt := { r.pkt with age := min 15 (max r.pkt.age p.age + s.param 0x0800 0) } }
  if 12 ≤ k then s else s.modSk k fun z => { z with reqs := z.reqs.filterMap again }

/-- The lines of a home slice's set that a skein holds. -/
def State.linesInSet (s : State) (k slice set : Nat) : List Nat :=
  ((s.sk k).lines.filter fun e => e.2.held && homeSlice e.1 == slice && dirSet e.1 == set).map (·.1)

/-- A set recall at a skein (R264): every line of the set written back and invalidated, a fasten first for unfastened and
closing ones; false while it must wait, for that or for a grant on its way. -/
def State.recalled (s : State) (p : Packet) : Bool × State :=
  let k := p.dst
  let slice := p.aux % 4
  let set := bits p.line 0 18
  if 12 ≤ k ∨ !s.skeinUp k then (true, s)
  else
    let ls := s.linesInSet k slice set
    let coming := s.fab.net.any fun q => q.dst == k && (q.cmd == 0x1C || q.cmd == 0x1D || q.cmd == 0x1E) &&
      homeSlice q.line == slice && dirSet q.line == set
    if coming then (false, s)
    else if ls.any fun l => let f := (s.skl k l).fst; f == .unfastened || f == .closing then
      (false, s.requestFasten k)
    else (true, (foldS ls (fun l t => t.evictLine k l) s).send { answerTo p 0x19 with aux := 8 + slice })

/-- A skein's acknowledgement of a set recall (R264). -/
def State.recallAck (s : State) (p : Packet) : State :=
  let h := p.aux % 4
  if 12 ≤ p.src ∨ (s.homeOf h).recallSet ≠ bits p.line 0 18 then s
  else (s.modHome h fun x => { x with awaits := x.awaits &&& ~~~(skBit p.src) }).recallEnd h

/-- RD_SHARED (R254). -/
def execRdShared (p : Packet) (s : State) : Host.Outcome State Fault Refusal := 
  let p := { p with cmd := 0x01 }
  done (s.arrive p fun t => t.homeRequest p)
/-- RD_OWN (R254). -/
def execRdOwn (p : Packet) (s : State) : Host.Outcome State Fault Refusal := 
  let p := { p with cmd := 0x02 }
  done (s.arrive p fun t => t.homeRequest p)
/-- UPGRADE (R254). -/
def execUpgrade (p : Packet) (s : State) : Host.Outcome State Fault Refusal := 
  let p := { p with cmd := 0x03 }
  done (s.arrive p fun t => t.homeRequest p)
/-- MARK_M (R243): the entry of a line that its owner holds Exclusive becomes Modified. -/
def execMarkM (p : Packet) (s : State) : Host.Outcome State Fault Refusal :=
  let p := { p with cmd := 0x04 }
  done (s.arrive p fun t => t.modDir p.line fun d => if d.state = 2 ∧ d.owner = p.src then { d with state := 3 } else d)
/-- WB (R254, R255). -/
def execWb (p : Packet) (s : State) : Host.Outcome State Fault Refusal := 
  let p := { p with cmd := 0x05 }
  done (s.arrive p fun t => (t.homeEvict p).recallEnd (homeSlice p.line))
/-- EVICT_CLEAN (R254, R255). -/
def execEvictClean (p : Packet) (s : State) : Host.Outcome State Fault Refusal := 
  let p := { p with cmd := 0x06 }
  done (s.arrive p fun t => (t.homeEvict p).recallEnd (homeSlice p.line))
/-- A request of a hub agent, or of a guest, arrives at its home slice. At the top age it is sent only while those agents hold
fewer than their 32 reserved slots of the slice, the oldest first (R249). -/
def State.hubArrives (s : State) (p : Packet) : State :=
  let h := homeSlice p.line
  let older (q : Packet) : Bool := q != p && topAge q && decide (12 ≤ q.src) && decide (q.since < p.since) && homeSlice q.line == h &&
    (q.cmd == 0x07 || q.cmd == 0x08 || q.cmd == 0x09)
  if topAge p ∧ (32 ≤ s.hubTops h ∨ s.fab.net.any older) then (if s.fab.net.contains p then s else s.send p)
  else s.arrive p fun t => t.homeRequest p

/-- RD_PEEK (R254). -/
def execRdPeek (p : Packet) (s : State) : Host.Outcome State Fault Refusal := done (s.hubArrives { p with cmd := 0x07 })
/-- WR_FULL (R254): a hub agent's write of a whole line. -/
def execWrFull (p : Packet) (s : State) : Host.Outcome State Fault Refusal := done (s.hubArrives { p with cmd := 0x08 })

/-- The first part of a write in two parts, which waits for the second at its home (R273). -/
def State.firstPart (s : State) (p : Packet) : Option Packet :=
  s.fab.net.find? fun q => q.cmd == 0x09 && q.tag == p.tag && q.src == p.src && q.line == p.line && q.aux % 2 == 1 && q != p

/-- WR_PART (R254, R273): a hub agent's partial write; a pair with MORE set on the first is performed as one write. -/
def execWrPart (p : Packet) (s : State) : Host.Outcome State Fault Refusal :=
  let p := { p with cmd := 0x09 }
  done (if p.aux % 2 = 1 then (if s.fab.net.contains p then s else s.send p)
    else match s.firstPart p with
      | some q =>
        let m : LineVal := lineMerge { q.val with tags := 0, poison := q.val.poison || p.val.poison } p.mask p.val.data
        ((s.received p).received q).homeRequest { p with mask := p.mask ||| q.mask, val := m }
      | none => s.hubArrives p)

/-- SNP_SHARE (R254) at a skein. -/
def execSnpShare (p : Packet) (s : State) : Host.Outcome State Fault Refusal := done (s.snoopArrives { p with cmd := 0x10 })
/-- SNP_INV (R254) at a skein. -/
def execSnpInv (p : Packet) (s : State) : Host.Outcome State Fault Refusal := done (s.snoopArrives { p with cmd := 0x11 })
/-- SNP_PEEK (R254) at a skein. -/
def execSnpPeek (p : Packet) (s : State) : Host.Outcome State Fault Refusal := done (s.snoopArrives { p with cmd := 0x12 })

/-- RECALL (R264) at a skein; while it must wait, the packet stays under way. -/
def execRecall (p : Packet) (s : State) : Host.Outcome State Fault Refusal :=
  let p := { p with cmd := 0x13 }
  done (if s.heldUp p then s else match s.recalled p with
    | (true, t) => t.received p
    | (false, t) => t)

/-- HOLD_RELEASE (R185): the hold for a cancelled request ends. -/
def execHoldRelease (p : Packet) (s : State) : Host.Outcome State Fault Refusal :=
  let p := { p with cmd := 0x14 }
  let k := p.dst
  done (s.arrive p fun t => if 12 ≤ k then t
    else (t.modSkl k p.line fun x => if x.held then { x with hold := 0, nacked := 0 } else x).drainSkein k)

/-- DATA (R254) at the home. -/
def execData (p : Packet) (s : State) : Host.Outcome State Fault Refusal :=
  let p := { p with cmd := 0x18 }
  done (s.arrive p fun t => t.homeAnswer p)

/-- ACK (R254, R264) at the home: of a snoop, or of a set recall. -/
def execAck (p : Packet) (s : State) : Host.Outcome State Fault Refusal :=
  let p := { p with cmd := 0x19 }
  done (s.arrive p fun t => if 8 ≤ p.aux then t.recallAck p else t.homeAnswer p)

/-- NACK (R184, R247): of a snooped skein at the home, or of the home at the skein that asked. -/
def execNack (p : Packet) (s : State) : Host.Outcome State Fault Refusal :=
  let p := { p with cmd := 0x1A }
  done (s.arrive p fun t => if p.dst < 12 then t.nacked p else t.homeAnswer p)

/-- Reserved slots of slice h that skein k holds or has asked for (R249). -/
def State.skeinTops (s : State) (k h : Nat) : Nat :=
  (s.home.txns.filter fun t => t.top && t.req.src == k && homeSlice t.line == h).length +
    ((s.homeOf h).topq.filter fun q => q.src == k).length +
    (s.fab.net.filter fun q => q.src == k && q.age == 15 && decide (q.cmd ≤ 3) && homeSlice q.line == h).length

/-- NACK_RETRY (R247 to R249): once the hint has passed, the request is sent again with its age; one at the top age is sent only
while its skein holds fewer than coh.top_slots of the slice's reserved slots, the oldest first. -/
def execNackRetry (p : Packet) (s : State) : Host.Outcome State Fault Refusal :=
  let k := p.src
  let h := homeSlice p.line
  done (match if k < 12 ∧ s.skeinUp k then (s.sk k).reqs.find? fun r => r.wait && r.pkt.tag == p.tag && r.pkt.line == p.line else none with
    | some r =>
      let older (q : Req) : Bool := q.wait && topAge q.pkt && homeSlice q.pkt.line == h && decide (q.pkt.since < r.pkt.since)
      if s.time < r.until_ then s
      else if topAge r.pkt ∧ (s.param 0x0803 0 ≤ s.skeinTops k h ∨ (s.sk k).reqs.any older) then s
      else
        let q := { r.pkt with agedAt := s.time }
        (s.modSk k fun z => { z with reqs := z.reqs.map fun x => if x = r then { x with wait := false, pkt := q } else x }).send q
    | none => s)

/-- EVICTING (R255) at the home. -/
def execEvicting (p : Packet) (s : State) : Host.Outcome State Fault Refusal :=
  let p := { p with cmd := 0x1B }
  done (s.arrive p fun t => t.homeAnswer p)

/-- A grant delivered; back-invalidate snoops that waited for it follow. -/
def State.deliverGrant (s : State) (p : Packet) : State := s.arrive p fun t => (t.granted_ p).biPump

/-- GRANT_S (R254) at the skein. -/
def execGrantS (p : Packet) (s : State) : Host.Outcome State Fault Refusal := done (s.deliverGrant { p with cmd := 0x1C })
/-- GRANT_E (R254) at the skein. -/
def execGrantE (p : Packet) (s : State) : Host.Outcome State Fault Refusal := done (s.deliverGrant { p with cmd := 0x1D })
/-- GRANT_UPG (R254) at the skein. -/
def execGrantUpg (p : Packet) (s : State) : Host.Outcome State Fault Refusal := done (s.deliverGrant { p with cmd := 0x1E })

/-- WB_ACK (R255): the eviction record that its TAG names is cleared; a kept line that has been written since its CLEAN is now
marked Modified at the home (R243; log 23). -/
def execWbAck (p : Packet) (s : State) : Host.Outcome State Fault Refusal :=
  let p := { p with cmd := 0x1F }
  let k := p.dst
  done (s.arrive p fun t => if 12 ≤ k then t
    else match (t.sk k).evicts.find? fun e => e.line == p.line && e.tag == p.tag with
      | some e =>
        let t1 := t.modSk k fun z => { z with evicts := z.evicts.erase e }
        if e.hint = 1 ∧ (t1.skl k p.line).held ∧ (t1.skl k p.line).own = .modified then t1.markM k p.line else t1
      | none => t)

/-- WR_ACK (R254): the write's hub agent, or the guest it acts for, has its answer. -/
def execWrAck (p : Packet) (s : State) : Host.Outcome State Fault Refusal := done (s.arrive { p with cmd := 0x20 } id)
/-- PEEK_DATA (R254): the read's hub agent, or the guest it acts for, has its answer. -/
def execPeekData (p : Packet) (s : State) : Host.Outcome State Fault Refusal := done (s.arrive { p with cmd := 0x21 } id)

/-- The requests for a line that are not served: held by their skeins or by the hub, under way, in reserved slots, or in an open
transaction (R251). -/
def State.openRequests (s : State) (l : Nat) : List Packet :=
  ((allSkeins.flatMap fun k => (s.sk k).reqs.map (·.pkt)) ++ s.home.hubReqs ++
    (s.fab.net.filter fun q => decide (q.cmd ≤ 3) || q.cmd == 0x07 || q.cmd == 0x08 || q.cmd == 0x09) ++
    (s.homeOf (homeSlice l)).topq ++ s.home.txns.map (·.req)).filter fun q => q.line == l

/-- PROGRESS_LIMIT (R251): a request of the top age has not been served within coh.progress_limit_us. -/
def execProgressLimit (p : Packet) (s : State) : Host.Outcome State Fault Refusal :=
  done (if (s.openRequests p.line).any fun q => q.src == p.src && q.tag == p.tag && topAge q &&
      decide (q.since + s.param 0x0802 0 * 1000 ≤ s.time) then
      s.raise 0x0402 (homeSlice p.line)
    else s)

/-- DIR_ENTRY_UNCORRECTABLE (R264): the set of an entry that cannot be corrected is recalled from every skein. -/
def execDirEntryUncorrectable (slice : SliceId) (line : Nat) (s : State) : Host.Outcome State Fault Refusal :=
  let h := slice.val
  let set := dirSet line
  let up := allSkeins.filter fun k => s.skeinUp k
  let mask : BitVec 12 := up.foldl (fun m k => m ||| skBit k) 0
  done (if homeSlice line ≠ h ∨ (s.homeOf h).recallOn then s
    else
      let s1 := (s.modHome h fun x => { x with
        set := set, way := (s.dirOf line).way, uncorr := true, valid := true, awaits := mask, recallSet := set, recallOn := true,
        recalls := satBits 64 (x.recalls + 1) }).raise 0x0401 h
      (foldS up (fun k t => t.send {
        cmd := 0x13, src := 12, srcNode := homeNode h, dst := k, dstNode := controlNode, line := set, aux := h }) s1).recallEnd h)

/-- CXL_BACK_INVALIDATE (R186, R262): a device asks for a line of a shared CXL range, for a Shared copy or for its invalidation;
the response is held while the line's transaction, its way here or its fasten is awaited. -/
def execCxlBackInvalidate (line : Nat) (shared : Bool) (s : State) : Host.Outcome State Fault Refusal :=
  done (if !s.cxlShared line ∨ s.home.biHeld.any (fun e => e.1 == line) then s
    else { s with home := { s.home with biHeld := s.home.biHeld ++ [(line, shared, false, s.time)] } }.biPump)

end Sys2Proof.Machine
end

