-- ==== Sys2Proof/Machine/Spindles.lean ====
section
/-!
DEFINITION. The commands of a spindle that are no trigger of a unit: bundles, completions, the timebase events, deliveries,
long operations and the answers of guests (R50, R60, R72 to R76, R128, R135, R136, R139, R230, R522).
-/

namespace Sys2Proof.Machine

/-- BUNDLE_NORMAL (R50): the spindle issues the bundle at BA when it is a normal one. -/
def execBundleNormal (sp : SpId) (s : State) : Host.Outcome State Fault Refusal := done (s.issueBundle sp 0)

/-- BUNDLE_LONG_IMMEDIATE (R49): the spindle issues the bundle at BA when its KIND is 0b01. -/
def execBundleLongImmediate (sp : SpId) (s : State) : Host.Outcome State Fault Refusal := done (s.issueBundle sp 1)

/-- BUNDLE_COPROCESSOR (R74): the spindle issues the bundle at BA when its KIND is 0b10. -/
def execBundleCoprocessor (sp : SpId) (s : State) : Host.Outcome State Fault Refusal := done (s.issueBundle sp 2)

/-- The data plane of a spindle works: the reel runs, and the spindle is placed, not frozen and not moving (R60). -/
def State.dataRuns (s : State) (i : Nat) : Bool :=
  let x := s.sp i
  s.running && x.released && !x.frozen && !x.suspended && !x.moving &&
    (match x.host with
      | some h => s.skeinUp h.skein
      | none => false)

/-- UNIT_COMPLETION (R60): the oldest operation of a unit completes. -/
def execUnitCompletion (sp : SpId) (u : UnitId) (s : State) : Host.Outcome State Fault Refusal :=
  done (if s.dataRuns sp then (s.unitDone sp u).afterDone sp else s)

/-- The ply of a spindle whose WAIT has ended asks for the raise to its target step (R482). -/
def State.wakePly (s : State) (i : Nat) : State :=
  match (s.sp i).host with
  | some h => s.aimPly h.skein h.ply (s.stepGoal h.skein)
  | none => s

/-- WAIT_END (R135): the timebase has reached the WAIT's value; its result is 0. -/
def execWaitEnd (sp : SpId) (s : State) : Host.Outcome State Fault Refusal :=
  done (match (s.sp sp).waitUntil with
    | some t => if s.alive sp ∧ t ≤ s.time then ((s.modSp sp fun x => x.endWait 0).wakePly sp).park sp else s
    | none => s)

/-- DEADLINE_REACHED (R135): the timebase has reached a non-zero DEADLINE; interrupt 255 is raised, DEADLINE becomes 0. -/
def execDeadlineReached (sp : SpId) (s : State) : Host.Outcome State Fault Refusal :=
  let d := (s.sp sp).arch.deadline
  done (if s.dataRuns sp ∧ d ≠ 0 ∧ d.toNat ≤ s.time then
      (s.modSp sp fun x => { x with arch := { x.arch with deadline := 0 } }).raiseIntr sp 255
    else s)

/-- The spindle stands at a bundle boundary at which an event of ranks 1 to 4 may be delivered: a WAIT that such an event
ends has ended with result 1 (R135, R136). -/
def State.atBoundary (s : State) (i : Nat) : State × Bool :=
  let s1 := if s.alive i && (s.sp i).waitUntil.isSome && admits (s.sp i) then (s.modSp i fun x => x.endWait 1).wakePly i else s
  (s1, s1.canIssue i && (s1.sp i).trapPend.isNone && !(s1.sp i).exhausted && (s1.sp i).precPend.isNone)

/-- INTERRUPT_DELIVERY (R136): the deliverable interrupt of highest number, when no event of higher rank is due. -/
def execInterruptDelivery (sp : SpId) (s : State) : Host.Outcome State Fault Refusal :=
  let (s1, ok) := s.atBoundary sp
  let x := s1.sp sp
  done (match ok && (dueNotice x).isNone, dueInterrupt x with
    | true, some n => s1.takeInterrupt sp n x.ba x.resume
    | _, _ => s1)

/-- NOTICE_DELIVERY (R128, R136): the pending notice of lowest number, when NOTICE is 0 and no event of higher rank is
due. -/
def execNoticeDelivery (sp : SpId) (s : State) : Host.Outcome State Fault Refusal :=
  let (s1, ok) := s.atBoundary sp
  let x := s1.sp sp
  done (match ok, dueNotice x with
    | true, some n => s1.takeNotice sp n x.ba x.resume
    | _, _ => s1)

/-- CACHEOP_COMPLETE (R230): a cache operation completes in the controllers. -/
def execCacheopComplete (sp : SpId) (s : State) : Host.Outcome State Fault Refusal :=
  done (if s.running && (s.sp sp).released then (s.cacheComplete sp).afterDone sp else s)

/-- LONG_OP_PROGRESS_POINT (R139): the long operation of a spindle reaches a progress point; a freeze of a Loose spindle
takes effect there (R31). -/
def execLongOpProgressPoint (sp : SpId) (s : State) : Host.Outcome State Fault Refusal :=
  done (if s.alive sp && (s.sp sp).longOn then (s.progressPoint sp).park sp else s)

/-- LONG_OP_COMPLETE (R72): the long operation completes, and its bundle retires. -/
def execLongOpComplete (sp : SpId) (s : State) : Host.Outcome State Fault Refusal :=
  done (if s.alive sp && (s.sp sp).longOn then (s.longComplete sp).afterDone sp else s)

/-- The source and destination of a long operation as its modifier (R64). -/
def srcDst (src dst : CapReg) : Nat := src.val + dst.val * 64

/-- BMOVE (R522): a long block copy between two capabilities begins. -/
def execBmove (sp : SpId) (src dst : CapReg) (len : Word) (s : State) : Host.Outcome State Fault Refusal :=
  done (s.issueTrig sp 17 4 (srcDst src dst) (ofWord len))

/-- BFILL (R522): a long block fill with a byte begins; the byte is operand 1. -/
def execBfill (sp : SpId) (dst : CapReg) (len : Word) (fillByte : Byte) (s : State) : Host.Outcome State Fault Refusal :=
  done (s.issueMoves sp 17 5 (srcDst 0 dst) (ofWord len) (some (ofWord (fillByte.setWidth 64))))

/-- COMPRESS (R405): a long compression on the page's press stream begins. -/
def execCompress (sp : SpId) (src dst : CapReg) (len : Word) (s : State) : Host.Outcome State Fault Refusal :=
  done (s.issueTrig sp 18 4 (srcDst src dst) (ofWord len))

/-- DECOMPRESS (R405): a long decompression on the page's press stream begins. -/
def execDecompress (sp : SpId) (src dst : CapReg) (len : Word) (s : State) : Host.Outcome State Fault Refusal :=
  done (s.issueTrig sp 18 5 (srcDst src dst) (ofWord len))

/-- PRESS_FINISH (R403): the press stream's FINISH starts; UNIT_COMPLETION performs it. -/
def execPressFinish (sp : SpId) (src dst : CapReg) (len : Word) (s : State) : Host.Outcome State Fault Refusal :=
  done (s.issueTrig sp 18 6 (srcDst src dst) (ofWord len))

/-- ENCRYPT (R404): a long encryption on the page's cipher stream begins. -/
def execEncrypt (sp : SpId) (src dst : CapReg) (len : Word) (s : State) : Host.Outcome State Fault Refusal :=
  done (s.issueTrig sp 19 4 (srcDst src dst) (ofWord len))

/-- DECRYPT (R404): a long decryption on the page's cipher stream begins. -/
def execDecrypt (sp : SpId) (src dst : CapReg) (len : Word) (s : State) : Host.Outcome State Fault Refusal :=
  done (s.issueTrig sp 19 5 (srcDst src dst) (ofWord len))

/-- CIPHER_FINISH (R403): the cipher stream's FINISH starts; UNIT_COMPLETION performs it. -/
def execCipherFinish (sp : SpId) (src dst : CapReg) (len : Word) (s : State) : Host.Outcome State Fault Refusal :=
  done (s.issueTrig sp 19 6 (srcDst src dst) (ofWord len))

/-- COPROCESSOR_REQUEST (R73): a trigger of units 80 to 95. -/
def execCoprocessorRequest (sp : SpId) (cop : CopId) (trig : TrigId) (m : Modifier) (a : Word) (s : State) :
    Host.Outcome State Fault Refusal :=
  done (s.issueTrig sp (80 + cop) (4 + trig) m.toNat (ofWord a))

/-- A serial output has been accepted by the gate: it was sent, or a spindle that was re-hosted from before the acceptance holds it
again while its response is awaited (R188). -/
def State.serialLeft (s : State) (i : Nat) (q : Serial) : Bool :=
  let g := tget {} s.home.gate i
  q.sent || (g.seq == q.seq && !g.done)

/-- The request in flight of a coprocessor unit, once it has left the spindle (R75, R76). -/
def State.copWaits (s : State) (i cop : Nat) : Option OpRec :=
  let x := s.sp i
  (x.ops.find? fun r => r.unit == 80 + cop && r.kind == OpKind.answer 0 0 false 0).filter fun r =>
    !x.serials.any fun q => q.seq == r.ser && !s.serialLeft i q

/-- The open request of a spindle's coprocessor unit that was sent first, with its site. -/
def State.copOpen (s : State) (i cop : Nat) : Option (Nat × Packet) :=
  [0, 1].findSome? fun g => ((s.site g).opens.find? fun p => p.cmd == 0x2C && p.line == i && p.aux / 16 == 80 + cop).map fun p => (g, p)

/-- That request, which its answer ends, leaves the open requests of its site. -/
def State.closeCop (s : State) (i cop : Nat) : State :=
  match s.copOpen i cop with
  | some (g, p) => s.modSite g fun x => { x with opens := x.opens.erase p }
  | none => s

/-- A coprocessor answer enters the result socket, the gate holding it as the request's response (R76, R188). -/
def State.copAnswer (s : State) (i cop : Nat) (val : BitVec 128) (timedOut : Bool) : State :=
  match s.copWaits i cop with
  | none => s
  | some r =>
    let s1 := (s.closeCop i cop).modSp i fun x =>
      let y := x.arrive r { r with res := ⟨val, false⟩, orSt := if timedOut then 1 else 0 }
      if (y.serial.map (·.seq)) = some r.ser then y.endSerial else y
    s1.holdResp i r.ser val timedOut

/-- COPROCESSOR_RESPONSE (R76): the guest's answer to the request that was sent to it. -/
def execCoprocessorResponse (sp : SpId) (cop : CopId) (val : BitVec 128) (s : State) : Host.Outcome State Fault Refusal :=
  done (if (s.copOpen sp cop).isNone then s else (s.copAnswer sp cop val false).afterDone sp)

/-- COPROCESSOR_TIMEOUT (R76, R292, R294): no answer within the binding's response limit: result 0, TO set, and the fault of the
spindle; a response that comes later is dropped and counted. -/
def execCoprocessorTimeout (sp : SpId) (cop : CopId) (s : State) : Host.Outcome State Fault Refusal :=
  done (if (s.copWaits sp cop).isNone then s
    else
      let out (t : State) : State := ((t.copAnswer sp cop 0 true).raise 0x0D01 sp (some sp.val)).afterDone sp
      match s.copOpen sp cop with
      | some (g, p) =>
        if s.time < p.since + bits (s.param 0x0945 (16 * p.part + cop)) 16 16 * 1000 then s
        else out (s.modSite g fun x => { x with ended := x.ended ++ [p.tag] })
      | none => s)

end Sys2Proof.Machine
end

