-- ==== Sys2Proof/Machine/Fabric.lean ====
section
/-!
DEFINITION. The on-package fabric (R271 to R296): answers and refusals of uncached accesses, strand links, the drain-and-fence
handshake, probes, and the guest sites with the hub firewall.
-/

namespace Sys2Proof.Machine

/-- The requests of the reel to the sites without those of a spindle's uncached access. -/
def State.closeUc (s : State) (i : Nat) : State :=
  foldS [0, 1] (fun g t => t.modSite g fun x => { x with
    opens := x.opens.filter fun p => !((p.cmd == 0x28 || p.cmd == 0x29) && p.lines.headD 480 == i) }) s

/-- The uncached load of a spindle that is under way at address a. -/
def State.ucLoadAt (s : State) (i a : Nat) : Option OpRec :=
  (s.sp i).ops.find? fun r => match r.kind with
    | .answer b n _ _ => n != 0 && b == a
    | _ => false

/-- The uncached store of a spindle that has left its skein. -/
def State.ucStoreOut (s : State) (i : Nat) : Bool :=
  match (s.sp i).serial with
  | some q => q.kind == SerialKind.ucStore && s.serialLeft i q
  | none => false
/-- The uncached load of a spindle that has left its skein, by its address. -/
def State.ucLoadOut (s : State) (i : Nat) : Option Nat :=
  match (s.sp i).serial with
  | some q => if q.kind = SerialKind.ucLoad ∧ s.serialLeft i q then some q.addr else none
  | none => none

/-- The data of an uncached load enters the result socket, as a load of its width delivers it (R63, R112, R130, R272). -/
def State.ucAnswer (s : State) (i a : Nat) (val : BitVec 128) (poisoned : Bool) : State :=
  match s.ucLoadAt i a with
  | none => s
  | some r =>
    let res : Cap := match r.kind with
      | .answer _ n signed _ => loadValue { data := val.setWidth 1024, tags := 0, poison := false } 0 n signed false
      | _ => Cap.zero
    let window := (s.ucLoadOut i) == some a
    let s1 := s.modSp i fun x =>
      let y := x.arrive r { r with res := res, poison := if poisoned then some (lineOf a) else none }
      if window then y.endSerial else y
    (if window then (s1.closeUc i).holdResp i r.ser val false else s1).afterDone i

/-- The pending output of spindle i ends with the response v, which the gate holds (R187, R188). -/
def State.endOutput (s : State) (i : Nat) (v : BitVec 128) : State :=
  match (s.sp i).serial with
  | some q => (s.modSp i Spindle.endSerial).holdResp i q.seq v false
  | none => s

/-- An uncached store is acknowledged (R187, R272). -/
def State.ucAck (s : State) (i : Nat) : State :=
  if s.ucStoreOut i then ((s.endOutput i 0).closeUc i).afterDone i else s

/-- A refused uncached load (R284): all ones of the access width, and the fence-refusal fault for the fenced die. -/
def State.ucRefuse (s : State) (i a inst : Nat) : State :=
  if (s.ucLoadAt i a).isNone then s
  else (s.ucAnswer i a (BitVec.allOnes 128) false).raise 0x0507 inst (some i)

/-- A refused uncached store (R284): it is not performed, and the fence-refusal fault is logged. -/
def State.ucRefuseStore (s : State) (i inst : Nat) : State :=
  if s.ucStoreOut i then
    ((s.endOutput i (BitVec.allOnes 128)).closeUc i).afterDone i |>.raise 0x0507 inst (some i)
  else s

/-- A refused coprocessor request (R76, R284): result 0 with TO set, without waiting for the response limit. -/
def State.copRefuse (s : State) (i cop : Nat) : State := (s.copAnswer i cop 0 true).afterDone i

/-- Whatever request of spindle i has left its skein is refused; inst is the die that refuses (R284). -/
def State.refuseSpindle (s : State) (i inst : Nat) : State :=
  match (s.sp i).serial with
  | some q => if !s.serialLeft i q then s else match q.kind with
    | .ucLoad => s.ucRefuse i q.addr inst
    | .ucStore => s.ucRefuseStore i inst
    | .cop => s.copRefuse i (q.addr / 16 - 80)
    | .cacheop => s
  | none => s

/-- UC_DATA (R272): the data of an uncached load through a window returns to the spindle. -/
def execUcData (sp : SpId) (val : BitVec 128) (poisoned : Bool) (s : State) : Host.Outcome State Fault Refusal :=
  done (match s.ucLoadOut sp with
    | some a => s.ucAnswer sp a val poisoned
    | none => s)

/-- UC_ACK (R272). -/
def execUcAck (sp : SpId) (s : State) : Host.Outcome State Fault Refusal := done (s.ucAck sp)

/-- INTR (R133, R134). -/
def execIntr (sp : SpId) (n : Fin 256) (s : State) : Host.Outcome State Fault Refusal := done (s.raiseIntr sp n)

/-- MESH_HEADER_UNCORRECTABLE (R274): on a skein a loss of the skein, on the hub a reel-fatal fault. -/
def execMeshHeaderUncorrectable (die : DieId) (s : State) : Host.Outcome State Fault Refusal :=
  done (if s.life = .off then s
    else if die.val = 12 then s.raise 0x0502 12
    else if s.skeinUp die then (s.raise 0x0501 die).todo (.loseSkein die .meshHeader) else s)

/-- PACKET_AGE_INCREMENT (R275): a packet has waited 256 fabric cycles in one router input buffer since it was sent or last
aged. -/
def execPacketAgeIncrement (p : Packet) (s : State) : Host.Outcome State Fault Refusal :=
  done { s with fab := { s.fab with net := match s.fab.net.idxOf? p with
    | some j => if s.time < max p.since p.agedAt + fabricTicks 256 then s.fab.net
      else s.fab.net.set j { p with age := min 15 (p.age + 1), agedAt := s.time }
    | none => s.fab.net } }

/-! ### Strand links (R276 to R281) -/

/-- Block replays of the link in the last millisecond (R280). -/
def State.recentReplays (s : State) (k : Nat) : Nat := ((s.sk k).replayAt.filter fun t => decide (s.time < t + 1000000)).length

/-- STRAND_BLOCK_REPLAY (R277, R280, R294, R295): a block that failed its CRC, or that is missing from the sequence, is
replayed from the sender's last 64 (State.send). -/
def execStrandBlockReplay (sk : SkId) (s : State) : Host.Outcome State Fault Refusal :=
  done (if !s.skeinUp sk then s else s.modSk sk fun z => { z with
    replays := satBits 16 (z.replays + 1), replayTot := satBits 64 (z.replayTot + 1),
    replayAt := (s.time :: z.replayAt).take (s.param 0x0913 0 + 1) })

/-- HEARTBEAT_MISSING (R277): no valid block for 2 µs, on a link that has been up as long and does not hold its timer while a role
narrows (R280); the hub acts under R197. -/
def execHeartbeatMissing (sk : SkId) (s : State) : Host.Outcome State Fault Refusal :=
  done (if s.time < (s.sk sk).upAt + 2000 ∨ s.time < (s.sk sk).narrowEnd then s else s.skeinLoss sk .heartbeat)

/-- The lanes of the hub role under the boot record's split (R19, R472). -/
def hubLanes (code : Nat) : Nat := match code with | 0 => 96 | 1 => 80 | 2 => 64 | _ => 48
/-- The lanes lo to lo + n - 1. -/
def laneMask (lo n : Nat) : BitVec 96 := BitVec.ofNat 96 ((2 ^ n - 1) * 2 ^ lo)
/-- The good lanes of a mask from lane lo, n lanes, lowest first. -/
def goodLanes (m : BitVec 96) (lo n : Nat) : List Nat := ((List.range n).map fun j => lo + j).filter fun j => m.getLsbD j
/-- The width a role trains at: the largest of the set that its good lanes and its size admit; 0 for none (R276). -/
def roleWidth (good size : Nat) : Nat := (([96, 64, 48, 32, 16].find? fun w => decide (w ≤ min good size))).getD 0
/-- The active lanes of a role: its lowest-numbered good lanes, as many as its width (R276). -/
def activeLanes (m : BitVec 96) (lo n : Nat) : BitVec 96 :=
  ((goodLanes m lo n).take (roleWidth (goodLanes m lo n).length n)).foldl (fun a j => a ||| BitVec.ofNat 96 (2 ^ j)) 0

/-- The beads of a trained edge, in thirty-seconds (R476). -/
def Skein.edgeBeads (z : Skein) : Nat := if z.hubWidth = 0 then 0 else 32 + z.hubWidth + z.buddyWidth

/-- The widths that the good lanes of a skein's two roles give (R276, R281, R295). -/
def Skein.setWidths (z : Skein) (h : Nat) : Skein :=
  let gh := (goodLanes z.lanes 0 h).length
  let gb := (goodLanes z.lanes h (96 - h)).length
  let wh := roleWidth gh h
  let wb := roleWidth gb (96 - h)
  { z with hubWidth := wh, buddyWidth := wb, hubSpares := gh - wh, buddySpares := gb - wb, viaHub := wb == 0 }

/-- A skein with the lanes of its buddy role replaced (R279, R281). -/
def Skein.withBuddy (z : Skein) (h : Nat) (lanes : BitVec 96) : Skein :=
  ({ z with lanes := (z.lanes &&& laneMask 0 h) ||| (lanes &&& laneMask h (96 - h)) }).setWidths h

/-- A skein that takes the link state of another record: lanes, widths and spares. -/
def Skein.withLinks (z links : Skein) (now : Nat) : Skein :=
  { z with hubMask := links.hubMask, lanes := links.lanes, hubWidth := links.hubWidth, buddyWidth := links.buddyWidth,
           viaHub := links.viaHub, linkState := 2, hubSpares := links.hubSpares, buddySpares := links.buddySpares, upAt := now }

/-- Hub lanes of skein k; both skeins of a pair have the same split (R19). -/
def State.hubLanesOf (s : State) (k : Nat) : Nat := hubLanes (tget 2 s.jalif.boot.strand k)

/-- The buddy role of an admitted skein b comes up on the lanes that training found, once its keeper has granted the edge beads
for a wider role (R23, R279, R479, R481): until then it is not brought up at either end. -/
def State.trainBuddy (s : State) (b : Nat) (lanes : BitVec 96) : State :=
  let h := s.hubLanesOf b
  let z := s.sk b
  let y := z.withBuddy h lanes
  if !s.skeinUp b then s
  else if y.edgeBeads ≤ z.edgeBeads then
    (s.modSk b fun _ => { y with buddyLost := false, pendLanes := 0 }).returnBeads b (z.edgeBeads - y.edgeBeads)
  else ((s.modSk b fun z => { z with pendLanes := lanes }).askBeads b 2 (y.edgeBeads - z.edgeBeads) (.edge b)).modSk (buddyOf b) fun z =>
    z.withBuddy h 0

/-- Training of both roles on the intersections of the masks that their two ends report (R278, R279): the widths of R276 apply to
both ends, and the role with the buddy trains again there too (R281). -/
def State.train (s : State) (k : Nat) (m : TrainMasks) : State :=
  let h := s.hubLanesOf k
  let buddy := m.buddy.near &&& m.buddy.far &&& laneMask h (96 - h)
  let good := (m.hub.near &&& m.hub.far &&& laneMask 0 h) ||| buddy
  ((s.modSk k fun z =>
    let z := { z with lanes := good, hubMask := good, replays := 0, replayAt := [] }.setWidths h
    { z with linkState := if z.hubWidth = 0 then 0 else 2, buddyLost := false, upAt := s.time }).trainBuddy (buddyOf k) buddy).freshStrands k (buddyOf k)

/-- The edge beads of a wider buddy role are granted to skein b: the role comes up at both ends (R23, R279). -/
def State.edgeGranted (s : State) (b : Nat) : State :=
  let h := s.hubLanesOf b
  let lanes := (s.sk b).pendLanes
  if lanes = 0 then s
  else
    let k := buddyOf b
    let s1 := s.modSk b fun z => { z.withBuddy h lanes with buddyLost := false, pendLanes := 0 }
    if s1.skeinUp k then
      let y := (s1.sk k).withBuddy h lanes
      ((s1.modSk k fun _ => y).modGranted k (· + (y.edgeBeads - (s1.sk k).edgeBeads))).relife
    else s1.relife

/-- STRAND_TRAINING (R278): the roles of a skein that is in training, which it always is from the start; an admitted skein
does not train again until it is re-admitted (R281). -/
def execStrandTraining (sk : SkId) (hubMask buddyMask : EndMasks) (s : State) : Host.Outcome State Fault Refusal :=
  done (if (s.sk sk).present ∨ (s.sk sk).linkState ≠ 1 then s else s.train sk ⟨hubMask, buddyMask⟩)

/-- The other end of a buddy role that has lost lanes narrows with it (R279, R280, R281). -/
def State.narrowBuddy (s : State) (b : Nat) (gone : BitVec 96) (lost : Bool) (until_ : Nat) : State :=
  let z := s.sk b
  if !s.skeinUp b then s
  else
    let y := z.withBuddy (s.hubLanesOf b) (z.lanes &&& ~~~gone)
    (s.modSk b fun _ => { y with buddyLost := z.buddyLost || lost, narrowEnd := max z.narrowEnd until_ }).returnBeads b
      (z.edgeBeads - y.edgeBeads)

/-- LANE_RETIRE (R280, R281): active lanes of one role, with more than strand.lane_err_limit replays in a millisecond, leave it; a
spare replaces each while there is one, else the role narrows, in 1.5 µs, and returns beads, and a role below 16 lanes is lost.
Which lane a replay belongs to is the command's (log 95). -/
def execLaneRetire (sk : SkId) (buddy : Bool) (mask : BitVec 96) (s : State) : Host.Outcome State Fault Refusal :=
  done (
    let k := sk.val
    let h := s.hubLanesOf k
    let z := s.sk k
    let gone := mask &&& (if buddy then activeLanes z.lanes h (96 - h) else activeLanes z.lanes 0 h)
    if !s.skeinUp k ∨ gone = 0 ∨ s.recentReplays k ≤ s.param 0x0913 0 then s
    else
      let y := { z with lanes := z.lanes &&& ~~~gone, replayAt := [] }.setWidths h
      let was := if buddy then z.buddyWidth else z.hubWidth
      let now := if buddy then y.buddyWidth else y.hubWidth
      let s1 := s.raiseD 0x0503 k none gone.toNat
      if !buddy ∧ now = 0 then s1.skeinLoss k .hubLink
      else
        let lost := buddy && now == 0
        let end_ := if now < was then s.time + 1500 else z.narrowEnd
        let s2 := (s1.modSk k fun _ => { y with buddyLost := z.buddyLost || lost, narrowEnd := end_ }).returnBeads k (z.edgeBeads - y.edgeBeads)
        let s3 := if buddy then s2.narrowBuddy (buddyOf k) gone lost end_ else s2
        if lost then (s3.raise 0x0505 k).relife
        else if now < was then s3.raise 0x0504 k else s3)

/-- The drain limit of a domain in ticks (R282). -/
def drainLimit (d : FDomain) : Nat :=
  match d with
  | .skein _ | .unitOf _ _ => 50000
  | .guest _ | .rack _ => 1000000
  | .flex _ => 64000000
  | .engine _ | .channel _ => 100000
  | .ply _ _ => 10000
  | .slice _ _ => 20000

/-- The INSTANCE of a fabric fault of a domain (R424). -/
def fdomInst (d : FDomain) : Nat :=
  match d with
  | .skein n | .unitOf n _ | .ply n _ | .slice n _ => n.val
  | .guest n => 13 + n.val
  | _ => 12

/-- What the status registers show of a domain's handshake (R295); a guest PHY, and a group of rack ports none of which is
enabled, powers off once it is fenced (R477, R478). -/
def State.showFence (s : State) (d : FDomain) (st : Nat) : State :=
  match d with
  | .skein n => s.modSk n fun z => { z with linkState := if z.linkState = 0 then 0 else match st with | 1 => 4 | 2 => 5 | _ => 2 }
  | .guest n =>
    let s1 := s.modSite n fun x => { x with state := if x.state = 0 then 0 else match st with | 2 => 3 | 1 => x.state | _ => 2 }
    if st = 2 ∧ s.param 0x0940 n = 0 then s1.dropDomain (358 + n) 0 else s1
  | .rack n =>
    let g := n.val / 3
    if st = 2 ∧ (List.range 3).all fun j => !bitAt (s.param 0x0C40 (3 * g + j)) 0 then s.dropDomain (354 + g) 0 else s
  | _ => s

/-- A domain begins to drain (R282, R283); a second DRAIN changes nothing. -/
def State.drainDomain (s : State) (d : FDomain) : State :=
  if (s.fence (fdomKey d)).st = 0 then (s.setFence (fdomKey d) { st := 1, since := s.time }).showFence d 1 else s

/-- Spindles whose access through a window of flex port n has left them. -/
def State.flexUsers (s : State) (n : Nat) : List Nat :=
  s.cores.spindles.filterMap fun e => match e.2.serial with
    | some q => if s.serialLeft e.1 q && (q.kind == SerialKind.ucLoad || q.kind == SerialKind.ucStore) &&
        (s.flexWinOf q.addr).any (fun w => w.port == n) then some e.1 else none
    | none => none

/-- An operation of a channel engine that has left the hub for port n: 0 to 23 a flex port, 32 + k rack port k (R344). -/
def State.portBusy (s : State) (n : Nat) : Bool :=
  s.chan.ledger.any fun e => (e.2.st == .issuing || e.2.st == .issued) &&
    bitAt (s.param 0x0B04 (4 * e.2.device + e.2.path)) 63 && bits (s.param 0x0B04 (4 * e.2.device + e.2.path)) 0 8 == n

/-- The domain still waits for a response, or holds a request (R282 steps 2 and 3). A DDR5 channel holds none between commands:
an access of memory is one step. -/
def State.fdomBusy (s : State) (d : FDomain) : Bool :=
  match d with
  | .guest n => !(s.site n).opens.isEmpty || (s.fab.net.any fun p => p.src == 13 + n.val) ||
      (s.home.txns.any fun t => t.req.src == 13 + n.val) || (List.range 4).any fun h => (s.homeOf h).topq.any fun p => p.src == 13 + n.val
  | .skein n => ((s.sk n).reqs.any fun r => !r.wait) || !(s.sk n).evicts.isEmpty || s.fab.net.any fun p => p.src == n.val || p.dst == n.val
  | .engine n => s.chan.ledger.any fun e => e.2.engine == n.val && (e.2.st == .issuing || e.2.st == .issued)
  | .ply n p => (s.sk n).reqs.any fun r => r.ply == p.val && !r.wait
  | .slice n j => ((s.sk n).reqs.any fun r => !r.wait && l3SliceOf r.pkt.line == j.val) || (s.sk n).evicts.any fun e => l3SliceOf e.line == j.val
  | .flex n => !(s.flexUsers n).isEmpty || s.portBusy n
  | .rack n => s.portBusy (32 + n)
  | .unitOf n u => s.tenants.any fun e => match u with
      | .press => e.2.pHolder == some n.val && e.2.busyP.isSome
      | .cipher => e.2.cHolder == some n.val && e.2.busyC.isSome
  | .channel _ => false

/-- The requests of the reel to a site end REFUSED (R284, R288). -/
def State.refuseOpens (s : State) (g : Nat) : State :=
  foldS (s.site g).opens (fun p t =>
    let i := p.lines.headD 480
    if p.cmd = 0x2C then t.copRefuse i (p.aux / 16 - 80) else t.refuseSpindle i (13 + g))
    (s.modSite g fun x => { x with opens := [] })

/-- DRAIN (R282). -/
def execDrain (d : FDomain) (s : State) : Host.Outcome State Fault Refusal := done (s.drainDomain d)

/-- FENCED (R282): the answer of a draining domain that has nothing left to complete. -/
def execFenced (d : FDomain) (s : State) : Host.Outcome State Fault Refusal :=
  done (let f := s.fence (fdomKey d)
    if f.st ≠ 1 ∨ s.fdomBusy d then s else (s.setFence (fdomKey d) { f with st := 2 }).showFence d 2)

/-- A domain is cut off (R282): what it sends is discarded, and what is asked of it is refused; a skein cut off while it is
admitted is lost (R197, R283). A request of a guest that its home slice has accepted completes (R288). -/
def State.cutOff (s : State) (d : FDomain) : State :=
  let s1 := (s.setFence (fdomKey d) { s.fence (fdomKey d) with st := 2, forced := true }).showFence d 2
  match d with
  | .guest n =>
    let s2 := { s1 with fab := { s1.fab with net := s1.fab.net.filter fun p => p.dst != 13 + n.val && p.src != 13 + n.val } }
    s2.refuseOpens n
  | .skein n => s1.skeinLoss n .other
  | .flex n =>
    foldS (s1.flexUsers n) (fun i t => t.refuseSpindle i 12) s1
  | _ => s1

/-- The domain has restarted and may rejoin the fabric. -/
def State.fdomUp (s : State) (d : FDomain) : Bool :=
  match d with
  | .skein n => s.skeinUp n
  | .guest n => s.param 0x0940 n == 1 && (s.site n).rate != 0
  | .flex n => (s.flexP n).state == 2
  | .rack n => (s.rack n).state == 2
  | .engine n => (s.engine n).state == 0
  | .channel n => s.chUp n
  | .unitOf n _ => s.skeinUp n
  | .slice n _ => s.skeinUp n && (s.sk n).l3State != 2
  | .ply n p => s.skeinUp n && decide ((s.ply n p).step < 9 ∧ (s.ply n p).state ≠ 3)

/-- UNFENCE (R282): a fenced domain rejoins after its restart. -/
def execUnfence (d : FDomain) (s : State) : Host.Outcome State Fault Refusal :=
  done (if (s.fence (fdomKey d)).st = 2 ∧ s.fdomUp d then (s.setFence (fdomKey d) {}).showFence d 0 else s)

/-- A trace buffer with entries appended; it wraps after 4,096 (R286). -/
def Trace.add (t : Trace) (xs : List (BitVec 128 × Bool)) : Trace :=
  xs.foldl (fun t x => { buf := tset 0 t.buf t.next x.1, isData := tset false t.isData t.next x.2,
                         next := (t.next + 1) % 4096, wrapped := t.wrapped || t.next == 4095 }) t

/-- Probe n of a die; 12 is the hub. -/
def State.probe (s : State) (die n : Nat) : Probe := tget {} (if die < 12 then (s.sk die).probes else s.fab.hubProbes) n
/-- Probe n of a die becomes x. -/
def State.setProbe (s : State) (die n : Nat) (x : Probe) : State :=
  if die < 12 then s.modSk die fun z => { z with probes := tset {} z.probes n x }
  else { s with fab := { s.fab with hubProbes := tset {} s.fab.hubProbes n x } }
/-- A die's trace buffer changed by f. -/
def State.modTrace (s : State) (die : Nat) (f : Trace → Trace) : State :=
  if die < 12 then s.modSk die fun z => { z with trace := f z.trace }
  else { s with fab := { s.fab with hubTrace := f s.fab.hubTrace } }

/-- The entries of a trace record: the stamp, the header, and the data flits where they are captured (R286). -/
def traceRecord (time n : Nat) (header : BitVec 128) (data : List (BitVec 128)) : List (BitVec 128 × Bool) :=
  [(BitVec.ofNat 128 (time % 2 ^ 64 + n * 2 ^ 64 + data.length * 2 ^ 69), false), (header, false)] ++
    data.map fun d => (d, true)

/-- A store to a KEY_DATA register of a tenant page, whose data no probe captures (R394, R413). -/
def keyDataStore (header : BitVec 128) : Bool :=
  let h := header.toNat
  let a := bits h 73 45 * 128 + bits h 118 5 * 4
  let o := a - (regBase + 0x300000000)
  bits h 4 6 == 0x29 && decide (regBase + 0x300000000 ≤ a ∧ o < 2 ^ 24) && between 0x100 0x13F (o % 4096)

/-- The probe watches a router input or output that the packet of a header passes (R269, R285). -/
def State.probeSees (s : State) (die : Nat) (ctl : Nat) (header : BitVec 128) : Bool :=
  let p := ofHeader header
  let via := decide (p.src < 12) && (s.sk p.src).viaHub
  (packetPath via die p).any fun h => h.1 == bits ctl 3 6 && (if bitAt ctl 12 then h.2.2 else h.2.1) == bits ctl 9 3

/-- A matching header at probe n of a die, where the probe watches (R285, R286, R413). -/
def State.probeMatch (s : State) (die n : Nat) (header : BitVec 128) (payload : List (BitVec 128)) : State :=
  let p := s.probe die n
  let ctl := p.ctl.toNat
  if !bitAt ctl 0 ∨ !s.probeSees die ctl header ∨ header &&& p.mask ≠ p.mtch &&& p.mask then s
  else
    let count := satBits 48 (p.count + 1)
    let hit := decide (bits p.thresh.toNat 0 48 ≠ 0 ∧ count = bits p.thresh.toNat 0 48 ∧ p.count < count)
    let s1 := s.setProbe die n { p with count := count }
    match bits ctl 1 2 with
    | 1 =>
      if !hit then s1
      else
        let i := bits p.thresh.toNat 48 9
        let s2 := s1.setProbe die n { p with count := 0 }
        if bits ctl 15 8 < 240 ∧ i < 480 then s2.raiseIntr i (bits ctl 15 8) else s2
    | 2 =>
      let capture := bitAt ctl 13
      let open_ := s.faults.service && !keyDataStore header
      let data := if capture && open_ then payload.take (min 8 (bits header.toNat 10 4)) else []
      let s2 := s1.modTrace die fun t => t.add (traceRecord s.time n header data)
      if capture && !open_ then s2.setProbe die n { p with count := count, ctl := p.ctl ||| (BitVec.ofNat 64 (2 ^ 14)) }
      else s2
    | 3 => if hit then s1.requestSnap 3 (die * 256 + n) 0 else s1
    | _ => s1

/-- PROBE_MATCH (R285, R286). -/
def execProbeMatch (die : DieId) (probe : Fin 32) (header : BitVec 128) (payload : List (BitVec 128)) (s : State) :
    Host.Outcome State Fault Refusal :=
  done (if die.val < 12 ∧ !s.skeinUp die then s else s.probeMatch die probe header payload)

/-- A guest's capability slot (R290, R294): base, length, LOAD, STORE, partition; none when invalid. -/
structure GuestSlot where
  base  : Nat
  len   : Nat
  load  : Bool
  store : Bool
  part  : Nat
deriving DecidableEq, Repr

/-- Slot n of site g. -/
def State.guestSlot (s : State) (g n : Nat) : Option GuestSlot :=
  let v := s.param 0x0943 (64 * g + n)
  if n < 64 ∧ bitAt v 127 then some ⟨bits v 0 52, bits v 52 44, bitAt v 96, bitAt v 97, bits v 98 6⟩ else none

/-- A partition bound to a site by a capability slot or a coprocessor binding (R289). -/
def State.boundTo (s : State) (g part : Nat) : Bool :=
  ((List.range 64).any fun n => match s.guestSlot g n with | some c => c.part == part | none => false) ||
  ((List.range 16).any fun u => bits (s.param 0x0945 (16 * part + u)) 0 2 == g + 1)

/-- CMD is one a guest may send and LEN agrees with it (R272, R273, R289). -/
def guestShapeOk (p : Packet) : Bool :=
  match p.cmd with
  | 0x07 | 0x2B | 0x2E => p.len == 0
  | 0x08 => p.len == 8
  | 0x09 => between 2 8 p.len && p.len == 1 + maskGranules p.mask
  | 0x2A | 0x2D => p.len == 1
  | _ => false

/-- A request of a guest that is answered: a read or a write of memory. -/
def guestRequest (p : Packet) : Bool := p.cmd == 0x07 || p.cmd == 0x08 || p.cmd == 0x09
/-- A response of a guest. -/
def guestResponse (p : Packet) : Bool := p.cmd == 0x2A || p.cmd == 0x2B || p.cmd == 0x2D

/-- The bytes that a guest's request addresses lie in its slot's range (R289). -/
def slotCovers (c : GuestSlot) (p : Packet) : Bool :=
  let a := 128 * p.line
  if p.cmd = 0x09 then
    (List.range 128).all fun j => !p.mask.getLsbD j || decide (c.base ≤ a + j ∧ a + j < c.base + c.len)
  else decide (c.base ≤ a ∧ a + 128 ≤ c.base + c.len)

/-- The request of the reel that a response answers: UC_LD for UC_DATA, UC_ST for UC_ACK, COP_REQ for COP_RSP. -/
def State.openFor (s : State) (g : Nat) (p : Packet) : Option Packet :=
  (s.site g).opens.find? fun q => q.tag == p.tag && q.part == p.part && q.cmd + (if p.cmd = 0x2D then 1 else 2) == p.cmd

/-- The checks of the firewall in order (R289): the reason of the first that fails, 0 when all pass. -/
def State.guestCheck (s : State) (g : Nat) (p : Packet) : Nat :=
  let slot := p.tenant.bind (s.guestSlot g)
  if !guestShapeOk p then 1
  else if p.src ≠ 13 + g ∨ !s.boundTo g p.part then 2
  else if guestResponse p then (if (s.openFor g p).isNone then 2 else 0)
  else if guestRequest p then
    match slot with
    | none => 2
    | some c =>
      if c.part ≠ p.part then 2
      else if !slotCovers c p || !(if p.cmd = 0x07 then c.load else c.store) then 3
      else if !s.memRange (128 * p.line) 128 then 4 else 0
  else
    let i := bits p.line 0 9
    let n := bits p.line 9 8
    if bitAt (s.param 0x0947 g) n && decide (n < 240) && s.partOf i == some p.part then 0 else 5

/-- A packet that fails a check (R289, R295): recorded, counted, its fault raised, and a request answered REFUSED. -/
def State.violation (s : State) (g : Nat) (p : Packet) (reason : Nat) : State :=
  let log := p.cmd % 64 + reason * 2 ^ 6 + (p.part % 64) * 2 ^ 9 + ((p.tenant.getD 0) % 4096) * 2 ^ 15 + 2 ^ 63
  let s1 := (s.modSite g fun x => { x with
    viol := satBits 32 (x.viol + 1), log := BitVec.ofNat 64 log, addr := BitVec.ofNat 64 (p.line % 2 ^ 45) }).raise 0x0509 (13 + g)
  if guestRequest p then
    s1.send { cmd := 0x30, tag := p.tag, src := 12, dst := 13 + g, dstNode := p.srcNode, part := p.part, line := p.line,
              aux := if reason = 1 then 3 else 2 }
  else s1

/-- Rung 2 of the ladder is applied to a partition: the firewall refuses its coprocessor and guest requests (R433), which
lasts while the record is active (log 34). -/
def State.partCut (s : State) (part : Nat) : Bool := s.faults.active.any fun r => r.cut && r.owner == part

/-- What a packet that passes the checks does: a memory request goes to its home slice, a response ends the request it
answers, an interrupt is raised (R133, R290). -/
def State.guestPass (s : State) (g : Nat) (p : Packet) : State :=
  if guestRequest p && s.partCut p.part then
    s.send { cmd := 0x30, tag := p.tag, src := 12, dst := 13 + g, dstNode := p.srcNode, part := p.part, line := p.line, aux := 2 }
  else if guestRequest p then
    s.send { p with age := 0, src := 13 + g, dst := 12, dstNode := homeNode (homeSlice p.line), dirty := false, since := s.time }
  else if guestResponse p then
    match s.openFor g p with
    | none => s
    | some q =>
      let i := q.lines.headD 480
      let s1 := s.modSite g fun x => { x with opens := x.opens.erase q }
      match p.cmd with
      | 0x2A => (match s1.ucLoadOut i with
        | some a => s1.ucAnswer i a (p.val.data.setWidth 128) p.val.poison
        | none => s1)
      | 0x2B => s1.ucAck i
      | _ => (s1.copAnswer i (q.aux / 16 - 80) (p.val.data.setWidth 128) false).afterDone i
  else s.raiseIntr (bits p.line 0 9) (bits p.line 9 8)

/-- What a flow of flits counts in this microsecond after n more; none where that goes over its rate (R292, R293). -/
def flowTake (now rate n : Nat) (f : Nat × Nat) : Option (Nat × Nat) :=
  let k := (if f.1 = now / 1000 then f.2 else 0) + n
  if k ≤ rate then some (now / 1000, k) else none

/-- GUEST_PACKET (R289, R290, R293, R294): a packet from a guest whose link is up; what a fenced site sends is discarded (R282), and
a guest that is at its rate has no credit to send one. -/
def execGuestPacket (site : SiteId) (p : Packet) (s : State) : Host.Outcome State Fault Refusal :=
  done (
    let g := site.val
    if (s.site g).state ≠ 2 ∨ (s.fence (fdomKey (.guest site))).st = 2 then s
    else match flowTake s.time (s.param 0x0941 g) (1 + p.len) (s.site g).flow with
    | none => s
    | some f =>
    let s := s.modSite g fun x => { x with flow := f }
    if guestShapeOk p && guestResponse p && p.src == 13 + g && s.boundTo g p.part && (s.site g).ended.contains p.tag then
      s.modSite g fun x => { x with late := satBits 64 (x.late + 1), ended := x.ended.erase p.tag }
    else
      match s.guestCheck g p with
      | 0 => s.guestPass g p
      | r => s.violation g p r)

/-- A site's link fails or loses its heartbeat (R288): the site is force-fenced and the guest-link fault raised. -/
def State.guestLost (s : State) (g : SiteId) : State :=
  let s1 := (s.modSite g fun x => { x with state := 3, rate := 0, x32 := false }).cutOff (.guest g)
  s1.raise 0x0508 (13 + g)

/-- GUEST_LINK_LOST (R288). -/
def execGuestLinkLost (site : SiteId) (s : State) : Host.Outcome State Fault Refusal :=
  done (if (s.site site).state = 2 ∨ (s.site site).state = 1 then s.guestLost site else s)

/-- GUEST_UC_TIMEOUT (R291): no UC_DATA within guest.uc_limit_us. -/
def execGuestUcTimeout (sp : SpId) (site : SiteId) (s : State) : Host.Outcome State Fault Refusal :=
  done (match (s.site site).opens.find? fun q => q.cmd == 0x28 && q.lines.headD 480 == sp.val with
    | some q =>
      if s.time < q.since + s.param 0x0942 site * 1000 then s
      else (s.modSite site fun x => { x with opens := x.opens.erase q, ended := x.ended ++ [q.tag] }).refuseSpindle sp (13 + site)
    | none => s)

/-- GUEST_LINK_TRAINING (R287, R288): a site in training comes up and is unfenced, or its link fails. -/
def execGuestLinkTraining (site : SiteId) (r : GuestTrain) (s : State) : Host.Outcome State Fault Refusal :=
  done (if (s.site site).state ≠ 1 then s
    else if r.ok && (r.rate == 16 || r.rate == 24 || r.rate == 32) then
      (s.modSite site fun x => { x with state := 2, rate := r.rate, x32 := r.x32 }).setFence (fdomKey (.guest site)) {}
    else s.guestLost site)

end Sys2Proof.Machine
end

