-- ==== Sys2Proof/Machine/MemCtl.lean ====
section
/-!
DEFINITION. The memory controllers (R297 to R322): channel lines and their addresses, what a read finds, correction and
repair, the repeat detector, scrubbing, channel loss and restoration, and the flip-mask.
-/

namespace Sys2Proof.Machine

/-- Lines of channel c, the reserve included. -/
def State.channelLines (s : State) (c : Nat) : Nat := (s.mch c).capacity * 2 ^ 23
/-- Lines of channel c that it presents to the address map: below the reserve (R300, R301). -/
def State.mappedLines (s : State) (c : Nat) : Nat := s.channelBytes c / 128

/-- The line number of channel c's line at offset off, the inverse of the interleave (R302); none in the reserve. -/
def State.lineAt (s : State) (c off : Nat) : Option Nat :=
  if s.mappedLines c ≤ off then none
  else
    let g := off / 32
    let lo := off % 32
    let mir := (s.mch c).mirrored
    some (match s.mcs.interleave with
      | 0 =>
        if mir then g * 256 + (c / 2 ^^^ g % 8) * 32 + lo
        else g * 512 + (c ^^^ g % 16) * 32 + lo
      | 1 =>
        let base := ((List.range (c / 4)).map s.quadBytes).sum / 128
        base + (if mir then g * 64 + (c / 2 % 2 ^^^ g % 2) * 32 + lo else g * 128 + (c % 4 ^^^ g % 4) * 32 + lo)
      | _ =>
        let size (k : Nat) : Nat := if (s.mch k).mirrored then (if k % 2 = 0 then s.channelBytes k else 0) else s.channelBytes k
        let k := if mir then c / 2 * 2 else c
        ((List.range k).map size).sum / 128 + off)

/-- The DIMM that holds a channel line: DIMM 1 holds the upper half when there are two (R301). -/
def State.dimmOf (s : State) (c off : Nat) : Nat :=
  if (s.mch c).dimms = 2 ∧ s.channelLines c ≤ 2 * off then 1 else 0

/-- A memory log record, also shown in MEM_ERR_LOG (R322, R329). -/
def State.logMem (s : State) (c : Nat) (off : Option Nat) (pos kind : Nat) : State :=
  let line := (off.bind (s.lineAt c)).getD 0
  let resv := match off with
    | some o => (s.lineAt c o).isNone
    | none => false
  let r : MemRec := { time := s.time, line := line, ch := c, pos := pos, kind := kind, reserve := resv,
                      dimm := (off.map (s.dimmOf c)).getD 0 }
  let log := line + pos * 2 ^ 45 + kind * 2 ^ 50 + b2n resv * 2 ^ 54 + 2 ^ 63
  ({ s with mcs := { s.mcs with memLog := (r :: s.mcs.memLog).take 4096, memCount := s.mcs.memCount + 1 } }).modMch c fun m =>
    { m with errLog := BitVec.ofNat 64 log }

/-- A line classified as hard: a retire candidate (R308). -/
def State.hardLine (s : State) (c off pos : Nat) : State :=
  ((s.modMch c fun m => { m with reps := m.reps.filter fun r => r.off != off }).logMem c (some off) pos 2).raise 0x0601 c

/-- The repeat window in ticks. -/
def State.repeatWindow (s : State) : Nat := s.param 0x0A05 0 * 1000000000

/-- The entry whose window opened earliest. -/
def earliestRep : List RepEntry → Option RepEntry
  | [] => none
  | r :: rest => match earliestRep rest with
    | some q => if q.start < r.start then some q else some r
    | none => some r

/-- A correction at a line acts on the repeat detector (R308). -/
def State.repeatStep (s : State) (c off pos : Nat) : State :=
  let m := s.mch c
  match m.reps.find? fun r => r.off == off with
  | some r =>
    let q : RepEntry := if s.time < r.start + s.repeatWindow then { r with count := r.count + 1 } else ⟨off, 1, s.time⟩
    if 4 ≤ q.count then s.hardLine c off pos
    else s.modMch c fun m => { m with reps := m.reps.map fun e => if e.off = off then q else e }
  | none =>
    if m.reps.length < 64 then s.modMch c fun m => { m with reps := m.reps ++ [⟨off, 1, s.time⟩] }
    else
      let s1 := s.modMch c fun m => { m with reps := (match earliestRep m.reps with
        | some r => m.reps.erase r
        | none => m.reps) ++ [⟨off, 1, s.time⟩] }
      (s1.logMem c (some off) pos 9).raise 0x0602 c

/-- A correction counted by device position (R309). -/
def State.positionStep (s : State) (c pos : Nat) : State :=
  let m := s.mch c
  let fresh := decide (m.posStart + s.repeatWindow ≤ s.time) || m.posCnt.isEmpty
  let cnt := if fresh then [] else m.posCnt
  let n := tget 0 cnt pos + 1
  let s1 := s.modMch c fun m => { m with posCnt := tset 0 cnt pos n, posStart := if fresh then s.time else m.posStart }
  if n = s.param 0x0A06 0 then s1.raiseD 0x0603 c none pos else s1

/-- A corrected read (R306, R308, R309): delivered and written back corrected, logged and counted. -/
def State.correctedRead (s : State) (c off pos : Nat) : State :=
  let s1 := (s.flipWrite c (s.lineAt c off) off).modMch c fun m => { m with corrected := satBits 64 (m.corrected + 1) }
  (((s1.logMem c (some off) pos 1).raise 0x0600 c).repeatStep c off pos).positionStep c pos

/-- The value of a line taken from the lowest-numbered holder, where the entry shows it Shared or Exclusive and the holder's
copy is clean (R307 course 2). -/
def State.cacheRepair (s : State) (l : Nat) : Option LineVal :=
  let d := s.dirOf l
  if d.state ≠ 1 ∧ d.state ≠ 2 ∨ d.journaled then none
  else
    let holders := allSkeins.filter fun k => (if d.state = 1 then d.sharers.getLsbD k else d.owner == k)
    match holders.head? with
    | some k => if (s.skl k l).held ∧ (s.skl k l).fst = .clean then some (s.skl k l).val else none
    | none => none

/-- The partner of a channel in its mirrored pair serves (R303). -/
def State.partnerUp (s : State) (c off : Nat) : Bool :=
  ((s.mch c).mirrored || (s.lineAt c off).isNone) && s.chUp (c ^^^ 1) && !s.copyBad (c ^^^ 1) off

/-- The answer of a MEM_CHANNEL_RETRAIN that waits for channel c (R317). -/
def State.retrainAnswer (s : State) (c status : Nat) : State :=
  match (s.mch c).retrain with
  | some n => (s.modMch c fun m => { m with retrain := none }).respond (s.mbOf n) 0x49 status []
  | none => s

/-- The installed pairs of channels, round which the granules of the reserve go (R300). -/
def State.pairs (s : State) : List Nat := (List.range 8).filter fun p => decide (0 < (s.mch (2 * p)).capacity)

/-- The offset within the hub reserve of channel line off; none outside the reserve (R300). -/
def State.reserveAt (s : State) (c off : Nat) : Option Nat :=
  let q := off - s.mappedLines c
  if off < s.mappedLines c then none
  else (s.pairs.findIdx? (· == c / 2)).map fun j => (q / 32 * s.pairs.length + j) * 4096 + q % 32 * 128

/-- Both copies of the reserve lines whose offsets are hit are uncorrectable (R300, R316, R322): a journal copy in one reads as
poisoned, and a fasten image as lost. Which of them lie where the spec leaves open (log 98). -/
def State.loseReserve (s : State) (hit : Nat → Bool) : State :=
  let area := 160 * 2 ^ 20
  let journalHit (j : JEntry) : Bool := hit (j.skein * area + Config.journalPlace j.skein j.line % (area / 128) * 128)
  let imageHit (i : Nat) : Bool :=
    (List.range 32).any fun l => hit (12 * area + Config.imagePlace i % 4096 * 4096 + 128 * l)
  let mark (t : Tbl Image) : Tbl Image := t.map fun e => if imageHit e.1 then (e.1, { e.2 with bad := true }) else e
  let copy (j : JEntry) : JEntry := if journalHit j then { j with val := { j.val with poison := true, tags := 0 } } else j
  { s with home := { s.home with journal := s.home.journal.map copy } }.modJalif fun j =>
    { j with soloImg := mark j.soloImg, heldImg := mark j.heldImg }

/-- The loss of a channel (R315, R316). -/
def State.channelLoss (s : State) (c : Nat) : State :=
  let m := s.mch c
  if m.state = 0 ∨ m.state = 2 then s
  else
    let s1 := s.modMch c fun m => { m with state := 2, flipCtl := m.flipCtl &&& ~~~(1 : Word), badLines := [] }
    let s2 := s1.modMch (c ^^^ 1) fun p => { p with partnerLost := p.partnerLost || (m.mirrored && p.state == 1) }
    let s2 := if s.chUp (c ^^^ 1) then s2 else s2.loseReserve (fun x => s.pairs.getD (x / 4096 % s.pairs.length) 8 == c / 2)
    let s3 := ((s2.logMem c none 31 8).raise 0x0608 c).relife
    let s4 := if s3.domainState (320 + c) = 1 then (s3.setDomain (320 + c) 0).returnBeads 12 192 else s3
    (s4.setFence (fdomKey (.channel (Fin.ofNat 16 c))) { st := 2, since := s.time }).retrainAnswer c 0x17

/-- An uncorrectable line counted toward the loss of its channel: more than 64 distinct lines within 1 ms (R315). -/
def State.badLine (s : State) (c off : Nat) : State :=
  let keep := (s.mch c).badLines.filter fun e => s.time < e.2 - 1 + 1000000
  let now := tset 0 keep off (s.time + 1)
  let s1 := s.modMch c fun m => { m with badLines := now }
  if 64 < now.length then s1.channelLoss c else s1

/-- An uncorrectable read, by demand or by the scrubber (R303, R307, R313, R322). -/
def State.uncorrectable (s : State) (c off : Nat) (addrCheck partnerBad scrub : Bool) : State :=
  let l := s.lineAt c off
  let s0 := if addrCheck then s.raise 0x0606 c else s
  let kind (k : Nat) : Nat := if addrCheck then 7 else k
  let s1 :=
    if s.partnerUp c off && !partnerBad then
      (((s0.flipWrite c l off).flipWrite (c ^^^ 1) l off).logMem c (some off) 31 (kind 5)).raise 0x0604 c
    else match l with
      | some n => (match s.cacheRepair n with
        | some v => ((s0.memWrite n v).logMem c (some off) 31 (kind 6)).raise 0x0604 c
        | none => ((s0.poisonLine n).logMem c (some off) 31 (kind (if scrub then 3 else 4))).raise 0x0605 c)
      | none => (((s.reserveAt c off).elim s0 (fun a => s0.loseReserve (· == a)) |>.flipWrite c none off).logMem c (some off) 31
          (kind (if scrub then 3 else 4))).raise 0x060A c
  (s1.hardLine c off 31).badLine c off

/-- A line read through channel c at channel line off: the outcome of R305 for what the decoder finds and for the positions
that an applied flip-mask inverted (R318). -/
def State.lineRead (s : State) (c off : Nat) (r : ReadResult) (scrub : Bool) : State :=
  let flips := tget 0 (s.mch c).flipped off
  match r with
  | .uncorrectable a b => s.uncorrectable c off a b scrub
  | .clean =>
    match popCount 20 flips with
    | 0 => s
    | 1 => s.correctedRead c off (((List.range 20).find? flips.testBit).getD 0)
    | _ => s.uncorrectable c off false false scrub
  | .corrected pos =>
    if popCount 20 (flips ||| 2 ^ pos.val) = 1 then s.correctedRead c off pos else s.uncorrectable c off false false scrub

/-- MEMORY_READ_COMPLETE (R303, R305 to R309): the read of channel line off returns. -/
def execMemoryReadComplete (ch : ChId) (off : Nat) (r : ReadResult) (s : State) : Host.Outcome State Fault Refusal :=
  done (if s.chUp ch ∧ off < s.channelLines ch then s.lineRead ch off r false else s)

/-- The next channel line that the scrubber reads: retired pages are skipped (R311). -/
def State.scrubNext (s : State) (c : Nat) : Nat → Nat → Nat
  | 0, off => off
  | n + 1, off =>
    if s.mcs.retired.any fun e => e.applied && decide (e.frame = off / 32) &&
        (e.ch == c || ((s.mch c).mirrored && e.ch == c ^^^ 1)) then s.scrubNext c n ((off / 32 + 1) * 32)
    else off

/-- SCRUB_READ (R311 to R313): the next line of the lap, within the rate of a millisecond; after the last one the lap ends. -/
def execScrubRead (ch : ChId) (r : ReadResult) (s : State) : Host.Outcome State Fault Refusal :=
  done (
    let m := s.mch ch
    let lines := s.channelLines ch
    let n := if m.scrubFlow.1 = s.time / 1000000 then m.scrubFlow.2 else 0
    if !m.scrubbing ∨ !s.chUp ch ∨ lines = 0 ∨ s.param 0x0A03 0 ≤ n then s
    else
      let s := s.modMch ch fun m => { m with scrubFlow := (s.time / 1000000, n + 1) }
      let off := s.scrubNext ch (s.mcs.retired.length + 1) m.scrubAt
      let s1 := if off < lines then s.lineRead ch off r true else s
      if off + 1 < lines then s1.modMch ch fun m => { m with scrubAt := off + 1 }
      else s1.modMch ch fun m => { m with scrubAt := 0, lapS := (s.time - m.lapStart) / 1000000000, lapStart := s.time, late := false })

/-- SCRUB_LAP_LATE (R312): once in a lap that runs past mem.scrub_lap_limit_s. -/
def execScrubLapLate (ch : ChId) (s : State) : Host.Outcome State Fault Refusal :=
  done (
    let m := s.mch ch
    if !m.scrubbing ∨ !s.chUp ch ∨ m.late ∨ s.time < m.lapStart + s.param 0x0A04 0 * 1000000000 then s
    else (s.modMch ch fun m => { m with late := true }).raise 0x0607 ch)

/-- CHANNEL_LOSS (R310, R315): a channel whose retries within 1 ms, in service or at FILL, exceed mem.channel_retry_limit. -/
def execChannelLoss (c : ChRetries) (s : State) : Host.Outcome State Fault Refusal :=
  done (if s.param 0x0A07 0 < c.retries then s.channelLoss c.ch else s)

/-- A channel in training, filling or re-silvering comes back (R317): re-silvered from its partner, or every line poisoned. -/
def State.channelBack (s : State) (c : Nat) : State :=
  let m := s.mch c
  let p := s.mch (c ^^^ 1)
  let fromPartner := m.mirrored && p.state == 1
  let s1 := s.modMch c fun m => { m with
    state := 1, flipped := [], badLines := [], partnerLost := m.mirrored && p.state != 1,
    pfill := if fromPartner then p.pfill else true, rewritten := if fromPartner then p.rewritten else [] }
  let s2 := if fromPartner then s1.modMch (c ^^^ 1) fun p => { p with partnerLost := false } else s1
  ((s2.setFence (fdomKey (.channel (Fin.ofNat 16 c))) {}).retrainAnswer c 0).relife

/-- The ticks that re-silvering channel c takes at mem.resilver_rate (R317). -/
def State.resilverTicks (s : State) (c : Nat) : Nat := (s.mch c).capacity * 2 ^ 30 * 1000 / s.param 0x0A08 0

/-- CHANNEL_RESTORE_COMPLETE (R317): a retrain that trains goes on to fill or to re-silver, and the end of that work sets
CHANNEL_UP; a channel that fails stays lost. -/
def execChannelRestoreComplete (ch : ChId) (ok : Bool) (s : State) : Host.Outcome State Fault Refusal :=
  done (
    let c := ch.val
    let m := s.mch c
    let lost (t : State) : State :=
      let u := t.modMch c fun m => { m with state := 2 }
      if u.domainState (320 + c) = 1 then (u.setDomain (320 + c) 0).returnBeads 12 192 else u
    match m.state with
    | 3 =>
      if !ok then (lost s).retrainAnswer c 0x15
      else s.modMch c fun m => { m with
        state := if m.mirrored && (s.mch (c ^^^ 1)).state == 1 then 5 else 4, resilverAt := s.time }
    | 4 | 5 => if ok ∧ m.state = 5 ∧ s.time < m.resilverAt + s.resilverTicks c then s else if ok then s.channelBack c else (lost s).retrainAnswer c 0x17
    | _ => s)

/-- A write of MEM_FLIP_CTL in Service mode (R318, R329): DISARM clears ARM, and ARM arms with the written positions. -/
def State.flipCtl (s : State) (c : Nat) (w : Word) : State :=
  if !s.faults.service then s
  else
    let keep : Word := 0x3FFC
    let arm (m : MemCh) : Bool := (m.flipCtl.getLsbD 0 || w.getLsbD 0) && !w.getLsbD 1
    let bad0 := decide (19 < bits w.toNat 4 5)
    let bad1 := decide (19 < bits w.toNat 9 5)
    let hold : Word := (if bad0 then 0x1F0 else 0) ||| (if bad1 then 0x3E00 else 0)
    let s1 := s.modMch c fun m => { m with
      flipCtl := (w &&& keep &&& ~~~hold) ||| (m.flipCtl &&& hold) ||| (if arm m then 1 else 0) }
    if bad0 || bad1 then s1.reservedWrite 6 c (0x204000020 + 0x1000 * c) else s1

/-- ARM (R318): a write of w to MEM_FLIP_CTL with ARM set. -/
def execArm (ch : ChId) (w : Word) (s : State) : Host.Outcome State Fault Refusal := done (s.flipCtl ch (w ||| 1))

/-- DISARM (R318): DISARM written to MEM_FLIP_CTL with the other fields as they stand. -/
def execDisarm (ch : ChId) (s : State) : Host.Outcome State Fault Refusal :=
  done (s.flipCtl ch ((s.mch ch).flipCtl ||| 2))

end Sys2Proof.Machine
end

