-- ==== Sys2Proof/Machine/Rings.lean ====
section
/-!
DEFINITION. Rings in a partition's memory (R353 to R356, R387): clearing at binding, and the interrupt or doorbell that
tells of posted entries.
-/

namespace Sys2Proof.Machine

/-- The lines of a range that hold, or may hold, anything but zero bytes: those that memory lists or a skein holds; every
line where a channel was filled poisoned or a flip-mask applied. -/
def State.touchedLines (s : State) (a n : Nat) : List Nat :=
  let plain := (List.range 16).all fun c => !(s.mch c).pfill && (s.mch c).flipped.isEmpty
  let mine (l : Nat) : Bool := decide (a < 128 * l + 128 ∧ 128 * l < a + n)
  if plain then
    let keys : List Nat := (s.mem.bytes.map (fun e => e.1 / 128)) ++ (s.mem.tags.map (fun e => e.1 / 8)) ++
      (s.mem.poison.map (fun e => e.1)) ++ (s.home.dir.map (fun e => e.1)) ++ (s.home.journal.map (fun j => j.line))
    (keys.filter mine).eraseDups
  else linesOf a n

/-- A range of whole lines written with zeros by WR_FULL (R353); false while a line waits, with nothing written. -/
def State.zeroRange (s : State) (a n : Nat) : Bool × State :=
  let ls := s.touchedLines a n
  match s.hubLines ls with
  | (none, t) => (false, t)
  | (some _, t) => (true, foldS ls (fun l u => u.hubPut l fun _ => LineVal.zero) t)

/-- A ring's parameter (R364, R388): base and n; none when unbound. -/
def ringOf (v : Nat) : Option (Nat × Nat) := if bitAt v 63 then some (bits v 12 40 * 4096, bits v 52 5) else none

/-- A ring line whose channel is in service and that the map covers (R356). -/
def State.ringLineOk (s : State) (a n : Nat) : Bool :=
  s.memRange a n && (linesOf a n).all fun l => !s.lineLost l

/-- The counts from which a ring's notification follows: entries posted since the last one, and the tick of the oldest. -/
structure Tell where
  count  : Nat
  oldest : Option Nat
deriving DecidableEq, Repr

/-- A notification sent as chan.notify and chan.doorbell choose (R355): the interrupt, or P written to the doorbell; a
doorbell whose line waits leaves the notification due. -/
def State.tellNow (s : State) (notify door p : Nat) (t : Tell) : Tell × State :=
  match bits notify 0 2 with
  | 1 => (⟨0, none⟩, if bits notify 10 9 < 480 then s.raiseIntr (bits notify 10 9) (bits notify 2 8) else s)
  | 2 =>
    if !bitAt door 63 then (⟨0, none⟩, s)
    else match s.hubWrite (bits door 3 49 * 8) (leBytes 8 p) with
      | (true, u) => (⟨0, none⟩, u)
      | (false, u) => (⟨t.count, some 0⟩, u)
  | _ => (⟨0, none⟩, s)

/-- An entry has been posted: the notification follows at once for NOTIFY or at the COALESCE_COUNT-th entry, else the entry
waits for a later one (R355). -/
def State.tell (s : State) (notify door p : Nat) (t : Tell) (must : Bool) : Tell × State :=
  let t1 : Tell := ⟨t.count + 1, t.oldest <|> some s.time⟩
  if bits notify 0 2 = 0 then (⟨0, none⟩, s)
  else if must || decide (bits notify 19 11 ≤ t1.count) then s.tellNow notify door p t1 else (t1, s)

/-- COALESCE_US has elapsed since the posting of the oldest entry not yet notified (R355). -/
def State.tellDue (s : State) (notify : Nat) (t : Tell) : Bool :=
  match t.oldest with
  | some x => decide (x + bits notify 30 16 * 1000 ≤ s.time)
  | none => false

end Sys2Proof.Machine
end

