-- ==== Sys2Proof/Machine/Ledger.lean ====
section
/-!
DEFINITION. The ledger of channel operations (R339 to R363): states and their changes, devices, paths and engines, terminal
outcomes and redrives, the segments' stream, and the in-line lanes (R414).
-/

namespace Sys2Proof.Machine

/-- The device type of a device number: 0 none, 1 NVMe, 2 PCIe function, 3 rack endpoint (R364). -/
def State.devType (s : State) (d : Nat) : Nat := bits (s.param 0x0B03 d) 0 2
/-- The partition of a device. -/
def State.devPart (s : State) (d : Nat) : Nat := bits (s.param 0x0B03 d) 2 6
/-- The path p of a device: its port, routing ID or remote reel, and queue or endpoint; none when invalid. -/
def State.devPath (s : State) (d p : Nat) : Option (Nat × Nat × Nat) :=
  let v := s.param 0x0B04 (4 * d + p)
  if bitAt v 63 then some (bits v 0 8, bits v 8 16, bits v 24 16) else none
/-- A port that a path names is up and not fenced (R344). -/
def State.portUp (s : State) (n : Nat) : Bool :=
  if n < 24 then (s.flexP n).state == 2 && (s.fence (32 + n)).st == 0
  else if 32 ≤ n ∧ n < 44 then (s.rack (n - 32)).state == 2 && (s.fence (64 + (n - 32))).st == 0
  else false
/-- Path p of a device is usable. -/
def State.pathUsable (s : State) (d p : Nat) : Bool :=
  match s.devPath d p with
  | some (n, _, _) => s.portUp n
  | none => false
/-- Some path of the device is usable. -/
def State.anyPath (s : State) (d : Nat) : Bool := (List.range 4).any (s.pathUsable d)

/-- The entry is in a state of an attempt: ACTIVE, ISSUING or ISSUED. -/
def Entry.attempting (e : Entry) : Bool := e.st == .active || e.st == .issuing || e.st == .issued
/-- Operations of an engine in ACTIVE, ISSUING or ISSUED (R344). -/
def State.engineLoad (s : State) (n : Nat) : Nat := (s.chan.ledger.filter fun e => e.2.attempting && e.2.engine == n).length
/-- The engine is in service. -/
def State.engineUp (s : State) (n : Nat) : Bool := (s.engine n).state == 0 && (s.fence (128 + n)).st == 0
/-- Slots of a page that are not FREE. -/
def State.pageSlots (s : State) (pg : Nat) : List (Nat × Entry) :=
  s.chan.ledger.filter fun e => e.2.st != .free && e.2.tenant == pg

/-- READ and SENSE write memory. -/
def Entry.toMem (e : Entry) : Bool := e.op == 1 || e.op == 4
/-- A segment that passes a hub lane: READ and WRITE only (R332, R414). -/
def Entry.laneOf (e : Entry) (g : Seg) : Nat := if g.skip || !(e.op == 1 || e.op == 2) then 0 else g.lane
/-- The bytes of a segment at the device (R414). -/
def Entry.extent (e : Entry) (g : Seg) : Nat :=
  if e.laneOf g = 1 then (g.len + 4095) / 4096 * 4096 + 4096 else g.len
/-- The segment total at the device. -/
def Entry.total (e : Entry) : Nat := (e.segs.map e.extent).sum
/-- The operation passes a lane. -/
def Entry.lanes (e : Entry) : Bool := e.segs.any fun g => e.laneOf g != 0
/-- The segments with the stream offsets at which they start. -/
def Entry.placed (e : Entry) : List (Seg × Nat) :=
  (e.segs.foldl (fun (r, o) g => (r ++ [(g, o)], o + e.extent g)) (([] : List (Seg × Nat)), 0)).1

/-- The domains of the press and cipher lane pairs (R477). -/
def laneDomains : List Nat := [344, 345, 346, 347]

/-- The lane pairs go off when the channel subsystem has no lane work (R477). -/
def State.laneIdle (s : State) : State :=
  if laneDomains.any (fun n => s.domainState n != 0) && !(s.chan.ledger.any fun e => e.2.lanes && (e.2.attempting || e.2.st == .queued || e.2.st == .redrive)) then
    foldS laneDomains (fun n t => t.dropDomain n 0) s
  else s

/-- An entry becomes TERMINAL (R351): class, detail, residual and device status. -/
def State.terminate (s : State) (k cls detail residual : Nat) (devstatus : Word := 0) : State :=
  let e := s.entry k
  let n := s.chan.ledgerCount + 1
  let s1 := (s.modEntry k fun e => { e with
    st := .terminal, cls := cls, detail := detail, residual := residual % 2 ^ 32, devstatus := devstatus, termOrder := n,
    abortWait := false, abortNext := false, waitHint := none, lanebuf := [] })
  let s2 := { s1 with chan := { s1.chan with ledgerCount := n } }
  let s3 := if cls = 2 then (s2.modDevice e.device fun d => { d with unknown := satBits 64 (d.unknown + 1) }).raise 0x0702 (8192 + e.device)
    else s2
  s3.laneIdle

/-- Bytes of the entry that no device has confirmed. -/
def Entry.left (e : Entry) : Nat := e.total - min e.total e.done

/-- An entry that ends without a result of its device: failed when it is idempotent or never reached ISSUING, else
outcome-unknown (R348, R359). -/
def State.endEither (s : State) (k failed unknown : Nat) : State :=
  let e := s.entry k
  if e.idem ∨ !e.everIssued then s.terminate k 1 failed e.left else s.terminate k 2 unknown e.left

/-- An entry into REDRIVE (R347, R348): counted, or the end of one whose redrives are used up. -/
def State.redrive (s : State) (k : Nat) : State :=
  let e := s.entry k
  if e.removed then s.endEither k 0x0118 0x0120
  else if s.param 0x0B08 0 < e.redrives + 1 then s.endEither k 0x0112 0x0120
  else
    let rack := s.devType e.device = 3
    let s1 := (s.modEntry k fun e => { e with
      st := .redrive, redrives := e.redrives + 1, redriveAt := s.time, abortWait := false, waitHint := none, lanebuf := [],
      abortNext := e.cancel && rack && e.everIssued }).modDevice e.device fun d => { d with redrives := satBits 64 (d.redrives + 1) }
    let s2 := s1.raise 0x0701 (8192 + e.device)
    (if s2.anyPath e.device then s2 else s2.raise 0x0705 (8192 + e.device)).laneIdle

/-- An attempt fails (R347); unknown is the detail of R352 for the cause: 0x0120 path, port or link, 0x0121 timeout, 0x0122
engine. -/
def State.failAttempt (s : State) (k unknown : Nat) : State :=
  let e := s.entry k
  let rack := s.devType e.device = 3
  match e.st with
  | .active => s.redrive k
  | .issuing | .issued =>
    if rack then s.redrive k
    else if e.idem then (if e.cancel then s.terminate k 1 0x0116 e.left else s.redrive k)
    else s.terminate k 2 unknown e.left
  | _ => s

/-- Every attempt for which the condition holds fails. -/
def State.failAttempts (s : State) (c : Entry → Bool) (unknown : Nat) : State :=
  foldS ((s.chan.ledger.filter fun e => e.2.attempting && c e.2).map (·.1)) (fun k t => t.failAttempt k unknown) s

/-- The attempts on a port fail (R347, R374, R381). -/
def State.portFails (s : State) (port : Nat) : State :=
  s.failAttempts (fun e => match s.devPath e.device e.path with | some (n, _, _) => n == port | none => false) 0x0120

/-- The first poisoned line of a range as a hub agent reads it: its offset from a (R314, R352). -/
def State.poisonIn (s : State) (a n : Nat) : Option Nat :=
  let sound := (List.range 16).all fun c => (s.mch c).state == 0 ||
    ((s.mch c).state == 1 && !(s.mch c).pfill && (s.mch c).flipped.isEmpty)
  let cand := if sound then s.touchedLines a n else linesOf a n
  let bad := cand.filter fun l => match (s.hubLine l).1 with | some v => v.poison | none => false
  bad.foldl (fun (o : Option Nat) l => some (match o with | some x => min x (128 * l - a) | none => 128 * l - a)) none

/-- The stream offset at which a WRITE or CONTROL meets a poisoned line. -/
def State.streamPoison (s : State) (e : Entry) : Option Nat :=
  e.placed.findSome? fun (g, o) => if g.skip then none else (s.poisonIn g.base g.len).map fun d => o + d

/-- The rules of R414 that a lane segment breaks, found at dispatch: the completion code of R400. -/
def State.laneFault (s : State) (e : Entry) : Option Nat :=
  let t := s.tenant e.tenant
  let cfg := t.cipherCfg
  let slot := t.keySlot (cfgSlot cfg)
  e.placed.findSome? fun (g, o) =>
    if e.laneOf g ≠ 2 then none
    else
      let a := e.devaddr.toNat + o
      let du := cfgDu cfg
      if cfgMode cfg ≠ 1 ∧ cfgMode cfg ≠ 3 then some 0x06
      else if !slot.loaded then some 0x07
      else if cipherConfigBad cfg slot then some 0x06
      else if cfgMode cfg = 1 then (if a % 16 = 0 then none else some 0x05)
      else if a % du = 0 ∧ g.len % du = 0 then none else some 0x05

/-- What a lane makes of the device bytes of a READ segment (R414): the memory bytes, or the completion code of the error. -/
def State.laneRead (s : State) (e : Entry) (g : Seg) (o : Nat) (xs : List Nat) : Except Nat (List Nat) :=
  let t := s.tenant e.tenant
  if e.laneOf g = 1 then
    let clen := leNat (xs.take 4)
    let body := (xs.drop 16).take clen
    if leNat ((xs.drop 4).take 4) ≠ g.len ∨ leNat ((xs.drop 12).take 1) ≠ 1 ∨ xs.length < 16 + clen then .error 0x02
    else
      let d := decodeStream 0 body
      match d.ended, expand (fun _ => none) 0 0 d.toks [] with
      | some n, some out =>
        if d.bad ∨ n ≠ clen ∨ out.length ≠ g.len then .error 0x02
        else if crc32 0 out ≠ leNat ((xs.drop 8).take 4) then .error 0x03
        else .ok out
      | _, _ => .error 0x02
  else
    let key := (t.keySlot (cfgSlot t.cipherCfg)).bytes
    let a := e.devaddr.toNat + o
    if cfgMode t.cipherCfg = 1 then .ok (ctrCrypt key (leBytes 16 t.iv.toNat) a xs)
    else .ok (xtsCrypt false key (cfgDu t.cipherCfg) (t.iv.toNat % 2 ^ 64 + a / cfgDu t.cipherCfg) xs)

/-- Writes of the pieces of memory given by address, all of them or none (R345); false while a line waits. -/
def State.hubWrites (s : State) (ps : List (Nat × List Nat)) : Bool × State :=
  match s.hubLines ((ps.flatMap fun p => linesOf p.1 p.2.length).eraseDups) with
  | (none, t) => (false, t)
  | (some _, t) => (true, foldS ps (fun p u => (u.hubWrite p.1 p.2).2) t)

/-- Device bytes that arrive at stream offset off of a READ or SENSE (R332, R345, R372): to memory, to a lane's buffer, or
discarded in a SKIP segment; false while a line waits. -/
def State.streamIn (s : State) (k off : Nat) (xs : List Byte) : Bool × State :=
  let e := s.entry k
  let n := xs.length
  let parts := e.placed.filterMap fun (g, o) =>
    let lo := max off o
    let hi := min (off + n) (o + e.extent g)
    if lo < hi then some (g, lo, hi, o) else none
  let direct := parts.filterMap fun (g, lo, hi, o) =>
    if g.skip ∨ e.laneOf g ≠ 0 then none else some (g.base + (lo - o), ofBytes ((xs.drop (lo - off)).take (hi - lo)))
  match s.hubWrites direct with
  | (false, t) => (false, t)
  | (true, t) =>
    let put (lo hi : Nat) (buf : Tbl Byte) : Tbl Byte :=
      (List.range (hi - lo)).foldl (fun b j => tset 0 b (lo + j) (xs.getD (lo - off + j) 0)) buf
    (true, foldS (parts.filter fun q => e.laneOf q.1 != 0) (fun (_, lo, hi, _) u =>
      u.modEntry k fun e => { e with lanebuf := put lo hi e.lanebuf }) t)

/-- The lanes of a READ finish (R414): their bytes go to memory; none while a line waits, else the completion code of a
segment that a lane refuses. -/
def State.lanesOut (s : State) (k : Nat) : Option (Option Nat × State) × State :=
  let e := s.entry k
  let outs := (e.placed.filter fun (g, _) => e.op == 1 && e.laneOf g != 0).map fun (g, o) =>
    (g, s.laneRead e g o ((List.range (e.extent g)).map fun j => (tget (0 : Byte) e.lanebuf (o + j)).toNat))
  match outs.findSome? fun (_, r) => match r with | .error c => some c | .ok _ => none with
  | some c => (some (some c, s), s)
  | none =>
    match s.hubWrites (outs.filterMap fun (g, r) => match r with | .ok xs => some (g.base, xs) | .error _ => none) with
    | (true, t) => (some (none, t), s)
    | (false, t) => (none, t)

/-- Some byte that the segments name is not covered by the map any more (R352, CHAN_ADDRESS_ERROR). -/
def State.segsUncovered (s : State) (e : Entry) : Bool := e.segs.any fun g => !g.skip && !s.memRange g.base g.len
/-- A READ or SENSE names memory of a lost channel (R316). -/
def State.segsLost (s : State) (e : Entry) : Bool :=
  let down := (List.range 16).any fun c => decide (2 ≤ (s.mch c).state)
  down && e.segs.any fun g => !g.skip && (natsFrom (g.base / 4096) ((g.base + g.len + 4095) / 4096 - g.base / 4096)).any fun p =>
    s.lineLost (32 * p)

/-- The result of a device that reports success with the bytes moved (R331, R352, R414). -/
def State.succeed (s : State) (k bytes : Nat) : State :=
  let e := s.entry k
  let t := e.total
  let b := min bytes t
  if s.segsUncovered e then s.terminate k 1 0x0113 (t - b)
  else if e.toMem && s.segsLost e then s.terminate k 1 0x0115 (t - b)
  else
    match (if e.toMem then none else s.streamPoison e) with
    | some q => s.terminate k 1 0x0114 (t - q)
    | none =>
      if b = t then s.terminate k 0 0x0100 0
      else if e.op = 2 ∧ e.segs.any (fun g => e.laneOf g == 1) then s.terminate k 0 0x0100 (t - b)
      else if bitAt e.flags 1 then s.terminate k 0 0x0101 (t - b)
      else s.terminate k 1 0x0117 (t - b)

/-- A device completes the current attempt (R347): its data first, then its result; nothing happens while a line that the
data goes to waits. -/
def State.deviceDone (s : State) (k : Nat) (r : DevResult) : State :=
  let e := s.entry k
  match r with
  | .error status bytes => s.terminate k 1 0x0110 (e.total - min e.total bytes) status
  | .done bytes data =>
    match (if e.toMem ∧ !s.segsUncovered e then s.streamIn k 0 (data.take (min bytes e.total)) else (true, s)) with
    | (false, t) => t
    | (true, t) =>
      match (if e.op = 1 ∧ e.lanes ∧ !t.segsUncovered e then t.lanesOut k else (some (none, t), t)) with
      | (none, u) => u
      | (some (some c, u), _) => u.terminate k 1 0x0110 e.left (BitVec.ofNat 64 (2 ^ 63 + c))
      | (some (none, u), _) => u.succeed k bytes

/-- A completion that names an attempt that has ended (R349). -/
def State.lateCompletion (s : State) (k : Nat) : State :=
  let d := (s.entry k).device
  (s.modDevice d fun x => { x with late := satBits 64 (x.late + 1) }).raise 0x0707 (8192 + d)

end Sys2Proof.Machine
end

