-- ==== Sys2Proof/Machine/RackLink.lean ====
section
/-!
DEFINITION. The link layer of the rack ports (R379 to R383): the flits of messages, credits, blocks with their trailers, the blocks
kept for replay, and what a trailer that arrives says.
-/

namespace Sys2Proof.Machine

/-! ### Messages (R383) -/

/-- The bytes in flits of 16, the last filled with zeros. -/
def byteFlits : Nat → List Nat → List (BitVec 128)
  | 0, _ => []
  | n + 1, xs => if xs.isEmpty then [] else BitVec.ofNat 128 (leNat (xs.take 16)) :: byteFlits n (xs.drop 16)

/-- The data flits of a message. -/
def rackData (type : Nat) (m : RackMsg) : List (BitVec 128) :=
  match type with
  | 1 | 2 | 4 => [BitVec.ofNat 128 (m.devaddr % 2 ^ 64 + m.total % 2 ^ 36 * 2 ^ 64)]
  | 3 => [BitVec.ofNat 128 (m.devaddr % 2 ^ 64 + m.total % 2 ^ 36 * 2 ^ 64), m.devcmd.setWidth 128, (m.devcmd >>> 128).setWidth 128]
  | 6 => byteFlits 8 (ofBytes m.data)
  | 7 => [BitVec.ofNat 128 (m.doneBytes % 2 ^ 36)]
  | _ => []

/-- The header flit of a message. -/
def rackHeader (type : Nat) (m : RackMsg) : BitVec 128 :=
  let fields := match type with
    | 6 => pack [(76, m.offset % 2 ^ 36), (112, b2n m.last)]
    | 7 => pack [(76, m.code % 2 ^ 16), (92, m.incarnation % 2 ^ 32)]
    | 9 => pack [(76, m.hint % 2 ^ 32)]
    | _ => 0
  BitVec.ofNat 128 (pack [(0, type), (4, m.attempt % 16), (8, m.tag % 2 ^ 48), (56, m.endpoint % 2 ^ 16),
    (72, (rackData type m).length)] + fields)

/-- The flits of a message. -/
def RackOut.flits (x : RackOut) : List (BitVec 128) :=
  match x.m with
  | some m => rackHeader x.type m :: rackData x.type m
  | none => []

/-! ### Blocks (R379) -/

/-- The bytes of a block but for its CRC: 31 flits, and the trailer's bits 95 to 0. -/
def RackBlock.body (b : RackBlock) : List Nat :=
  ((b.flits ++ List.replicate 31 0).take 31).flatMap (fun (f : BitVec 128) => leBytes 16 f.toNat) ++
    leBytes 12 (pack [(0, b.seq), (20, b.ack), (40, b2n b.nak), (41, b.reqCredit), (53, b.rspCredit)])
/-- The 512 bytes of a block. -/
def RackBlock.bytes (b : RackBlock) : List Nat := b.body ++ leBytes 4 (crc32 0 b.body)
/-- A block arrives whole: its CRC is good. -/
def blockGood (xs : List Nat) : Bool := xs.length == 512 && crc32 0 (xs.take 508) == leNat (xs.drop 508)
/-- SEQ of the bytes of a block. -/
def blockSeq (xs : List Nat) : Nat := leNat ((xs.drop 496).take 3) % 2 ^ 20

/-- Flits cut into blocks from SEQ seq on; the first carries the trailer's answers. -/
def cutBlocks (first : RackBlock) : Nat → Nat → List (BitVec 128) → List RackBlock
  | 0, _, _ => []
  | n + 1, seq, fs =>
    if fs.isEmpty then []
    else { first with seq := seq % 2 ^ 20, flits := fs.take 31 } ::
      cutBlocks { first with nak := false, reqCredit := 0, rspCredit := 0 } n (seq + 1) (fs.drop 31)

/-! ### Credits and sending (R380, R381) -/

/-- The messages at the head of a queue for whose flits the credit suffices, the rest, and the credit left. -/
def takeFit : Nat → List RackOut → List RackOut × List RackOut × Nat
  | cr, [] => ([], [], cr)
  | cr, x :: xs =>
    let n := x.flits.length
    if n ≤ cr then (let (a, b, c) := takeFit (cr - n) xs; (x :: a, b, c)) else ([], x :: xs, cr)

/-- The messages that credit allows leave in blocks, responses first, and the last 256 blocks are kept (R380, R381). -/
def Rack.pump (x : Rack) : Rack :=
  let (a, rspLeft, rspCr) := takeFit x.rspCr x.outRsp
  let (b, reqLeft, reqCr) := takeFit x.reqCr x.outReq
  let fs := (a ++ b).flatMap RackOut.flits
  if x.state ≠ 2 ∨ fs.isEmpty then x
  else
    let blocks := cutBlocks { ack := x.ack, nak := x.nak, reqCredit := x.reqFree, rspCredit := x.rspFree } fs.length x.seq fs
    let sent := x.sent ++ blocks
    { x with outRsp := rspLeft, outReq := reqLeft, rspCr := rspCr, reqCr := reqCr, reqFree := 0, rspFree := 0, nak := false,
             seq := (x.seq + blocks.length) % 2 ^ 20, sent := sent.drop (sent.length - 256) }

/-- Messages of one class to be sent through port k, in order (R380); a port that is not up sends nothing. -/
def State.sendRack (s : State) (k : Nat) (request : Bool) (ms : List (Nat × RackMsg)) : State :=
  let xs := ms.map fun e => ({ type := e.1, m := some e.2 } : RackOut)
  s.modRack k fun x =>
    if x.state ≠ 2 then x
    else (if request then { x with outReq := x.outReq ++ xs } else { x with outRsp := x.outRsp ++ xs }).pump

/-- A message of a type and class has arrived (R379, R380): with the first of a block the credits of its trailer are held and the
blocks that the trailer acknowledges are dropped; the message's own flits are free. -/
def State.rackHeard (s : State) (type : Nat) (request : Bool) (m : RackMsg) : State :=
  let n := 1 + (rackData type m).length
  s.modRack m.port fun x =>
    let left := x.sent.filter fun b => decide (2 ^ 19 ≤ (m.ack + 2 ^ 20 - b.seq) % 2 ^ 20)
    let first := m.seq != x.ack
    ({ x with upAt := s.time, ack := m.seq, reqCr := if first then min 4095 (x.reqCr + m.reqCredit) else x.reqCr,
              rspCr := if first then min 4095 (x.rspCr + m.rspCredit) else x.rspCr,
              reqFree := if request then min 4095 (x.reqFree + n) else x.reqFree,
              rspFree := if request then x.rspFree else min 4095 (x.rspFree + n),
              sent := left, tries := if left.length < x.sent.length then 0 else x.tries }).pump

/-- The peer asks for replay from ACK + 1 (R381): the blocks it acknowledges are dropped, the others are sent again. -/
def Rack.replay (x : Rack) (ack : Nat) : Rack :=
  let left := x.sent.filter fun b => decide (2 ^ 19 ≤ (ack + 2 ^ 20 - b.seq) % 2 ^ 20)
  { x with sent := left, tries := if left.length < x.sent.length then 1 else x.tries + 1 }

/-- A port that comes up holds the credits that its peer advertises: 2,048 flits of each class (R380, R382). -/
def Rack.start (x : Rack) (now : Nat) : Rack :=
  { x with state := 2, lost := false, upAt := now, reqCr := 2048, rspCr := 2048, reqFree := 0, rspFree := 0, seq := 0, ack := 2 ^ 20 - 1,
           nak := false, sent := [], tries := 0, outReq := [], outRsp := [] }
/-- A port that goes down forgets its stream. -/
def Rack.stop (x : Rack) (now : Nat) : Rack :=
  { x with state := 3, lost := true, downAt := now, reqCr := 0, rspCr := 0, reqFree := 0, rspFree := 0, sent := [], tries := 0,
           outReq := [], outRsp := [] }

/-! ### What the source sends of an attempt (R342, R352, R357, R384) -/

/-- The rack port of the attempt's path and the endpoint it names; none when the path is not over a rack port. -/
def State.rackPath (s : State) (e : Entry) : Option (RackId × Nat) :=
  match s.devPath e.device e.path with
  | some (q, _, ep) => if h : 32 ≤ q ∧ q < 44 then some (⟨q - 32, by omega⟩, ep) else none
  | none => none

/-- What every message of the attempt holds (R383). -/
def Entry.rackMsg (e : Entry) (k : RackId) (ep : Nat) : RackMsg :=
  { port := k, attempt := e.redrives, tag := e.tag, endpoint := ep, devaddr := e.devaddr.toNat, total := e.total, devcmd := e.devcmd }

/-- Bytes as DATA messages of at most 128 bytes, from offset off on; the last carries LAST when fin holds. -/
def dataMsgs (m : RackMsg) (fin : Bool) : Nat → Nat → List Nat → List (Nat × RackMsg)
  | 0, _, _ => []
  | n + 1, off, xs =>
    if xs.isEmpty then []
    else (6, { m with offset := off, data := (xs.take 128).map (BitVec.ofNat 8), last := fin && (xs.drop 128).isEmpty }) ::
      dataMsgs m fin n (off + 128) (xs.drop 128)

/-- The device bytes of a WRITE segment at stream offset o (R332, R414); none while a line waits. A press lane's bytes are its own
choice (log 97). -/
def State.segOut (s : State) (e : Entry) (g : Seg) (o : Nat) : Option (List Nat) :=
  if g.skip then some (List.replicate (e.extent g) 0)
  else match (s.hubBytes g.base g.len).1 with
    | none => none
    | some (xs, _) =>
      let t := s.tenant e.tenant
      let key := (t.keySlot (cfgSlot t.cipherCfg)).bytes
      let a := e.devaddr.toNat + o
      some (match e.laneOf g with
        | 0 => xs
        | 1 => (List.range (e.extent g)).map fun j => (Config.laneByte s.freeCtr j).toNat
        | _ => if cfgMode t.cipherCfg = 1 then ctrCrypt key (leBytes 16 t.iv.toNat) a xs
          else xtsCrypt true key (cfgDu t.cipherCfg) (t.iv.toNat % 2 ^ 64 + a / cfgDu t.cipherCfg) xs)

/-- The bytes that a WRITE sends: all, or none while a line waits. -/
def State.streamOut (s : State) (e : Entry) : Option (List Nat) :=
  e.placed.foldl (fun r q => match r, s.segOut e q.1 q.2 with
    | some xs, some ys => some (xs ++ ys)
    | _, _ => none) (some [])

/-- The DATA of a WRITE (R384): up to the first poisoned line, at which the operation is aborted (R352); none while a line waits. -/
def State.writeData (s : State) (e : Entry) (m : RackMsg) : Option (List (Nat × RackMsg)) :=
  (s.streamOut e).map fun xs => match s.streamPoison e with
    | some q => dataMsgs m false (q + 1) 0 (xs.take q) ++ [(5, m)]
    | none => dataMsgs m true (xs.length + 1) 0 xs

/-- The attempt of a rack operation begins: its OP_* message, unless the attempt is an abort (R357), and then the ABORT of one that is
cancelled. -/
def State.rackIssue (s : State) (k : Nat) (abortOnly : Bool) : State :=
  let e := s.entry k
  match s.rackPath e with
  | some (p, ep) =>
    let m := e.rackMsg p ep
    s.sendRack p true ((if abortOnly then [] else [(e.op, m)]) ++ (if e.abortWait then [(5, m)] else []))
  | none => s
/-- A message without data about the entry's attempt, on its path: ABORT or CLEAR. -/
def State.rackTell (s : State) (k type : Nat) : State :=
  let e := s.entry k
  match s.rackPath e with
  | some (p, ep) => s.sendRack p true [(type, e.rackMsg p ep)]
  | none => s
/-- The data of a rack WRITE is sent; false while a line waits. -/
def State.sendWriteData (s : State) (k : Nat) : Bool × State :=
  let e := s.entry k
  if e.op ≠ 2 ∨ e.abortWait then (true, s)
  else match s.rackPath e with
    | some (p, ep) => match s.writeData e (e.rackMsg p ep) with
      | some ms =>
        let t := s.sendRack p true ms
        (true, if e.segs.any (fun g => e.laneOf g == 1) then { t with freeCtr := t.freeCtr + 1 } else t)
      | none => (false, s)
    | none => (true, s)

end Sys2Proof.Machine
end

