-- ==== Sys2Proof/Machine/Channel.lean ====
section
/-!
DEFINITION. The commands of the channel subsystem (R331 to R363): submission pages, the ledger's steps, engines, and
completion rings.
-/

namespace Sys2Proof.Machine

/-- The partition of a tenant page; 0 while it is unassigned (R393, R419). -/
def State.pagePart (s : State) (pg : Nat) : Nat := s.param 0x0D10 pg
/-- The page's ring: base and n. -/
def State.ring (s : State) (pg : Nat) : Option (Nat × Nat) := ringOf (s.param 0x0B05 pg)
/-- Entries between P and the last known CONSUMED. -/
def Tenant.ringUsed (t : Tenant) : Nat := (t.prod + 2 ^ 64 - t.consumed) % 2 ^ 64

/-- A ring is suspended (R354, R356). -/
def State.suspendRing (s : State) (pg : Nat) : State :=
  (s.modTenant pg fun t => { t with ringState := 3 }).raise 0x0706 pg

/-- The clearing of a newly bound ring: the header line and every entry (R353). -/
def State.clearRing (s : State) (pg : Nat) : State :=
  match (s.tenant pg).clearing, s.ring pg with
  | true, some (base, n) =>
    (match s.zeroRange base (128 + 32 * 2 ^ n) with
      | (true, u) => u.modTenant pg fun t => { t with clearing := false, consumed := 0 }
      | (false, u) => u)
  | _, _ => s

/-- A commit binds the page's ring (R353, R356): P restarts at 0. -/
def State.bindRing (s : State) (pg : Nat) : State :=
  match s.ring pg with
  | some _ => (s.modTenant pg fun t => { t with
      prod := 0, consumed := 0, ringState := 1, clearing := true, unnotified := 0, oldest := none }).clearRing pg
  | none => s.modTenant pg fun t => { t with ringState := 0, clearing := false, unnotified := 0, oldest := none }

/-- The 32 bytes of a completion entry (R353). -/
def completionBytes (token tag cls detail redrives phase residual : Nat) (devstatus : Word) : List Nat :=
  leBytes 8 token ++ leBytes 8 (tag % 2 ^ 48 + cls * 2 ^ 48) ++
    leBytes 8 (detail + redrives * 2 ^ 16 + phase * 2 ^ 20 + residual * 2 ^ 32) ++ leBytes 8 devstatus.toNat

/-- What comes of posting an entry to a ring. -/
inductive Posted where
  | yes | noRoom | waits
deriving DecidableEq, Repr

/-- An entry posted at index P mod 2^n of the page's ring, with its notification (R353 to R356); bytes takes the phase. -/
def State.postEntry (s : State) (pg : Nat) (bytes : Nat → List Nat) (must : Bool) : Posted × State :=
  let s := s.clearRing pg
  let t := s.tenant pg
  match s.ring pg with
  | none => (.noRoom, s)
  | some (base, n) =>
    if t.ringState = 0 ∨ t.ringState = 3 then (.noRoom, s)
    else if t.clearing then (.waits, s)
    else if 2 ^ n ≤ t.ringUsed then (.noRoom, s.modTenant pg fun t => { t with ringState := 2 })
    else
      let a := base + 128 + 32 * (t.prod % 2 ^ n)
      if !s.ringLineOk a 32 then (.noRoom, s.suspendRing pg)
      else match s.hubWrite a (bytes ((t.prod / 2 ^ n + 1) % 2)) with
        | (false, u) => (.waits, u)
        | (true, u) =>
          let p := (t.prod + 1) % 2 ^ 64
          let (tl, v) := u.tell (s.param 0x0B06 pg) (s.param 0x0B07 pg) p ⟨t.unnotified, t.oldest⟩ must
          (.yes, v.modTenant pg fun t => { t with
            prod := p, unnotified := tl.count, oldest := tl.oldest,
            ringState := if 2 ^ n ≤ ((p + 2 ^ 64 - t.consumed) % 2 ^ 64) then 2 else 1 })

/-- A submission is rejected (R337); false while the posting waits. -/
def State.reject (s : State) (pg code : Nat) (token : Word) : Bool × State :=
  match s.postEntry pg (fun ph => completionBytes token.toNat 0 3 code 0 ph 0 0) false with
  | (.waits, u) => (false, u)
  | (p, u) =>
    (true, (u.modTenant pg fun t => { t with
      rejected := satBits 64 (t.rejected + 1), lastReject := code,
      unposted := if p = .yes then t.unposted else satBits 64 (t.unposted + 1) }).raise 0x0700 pg)

/-- Segment k of the 192 bytes of an operation block (R332). -/
def segWord (xs : List Nat) (k : Nat) : Nat := fieldAt xs (64 + 16 * k) 16
/-- A segment's fields are defined and its reserved fields zero (R332, R414, R336 check 5). -/
def segOk (w : Nat) : Bool :=
  (bitAt w 48 || 2 ≤ bits w 44 4) && bits w 49 2 ≤ 2 && bits w 51 13 == 0 && 1 ≤ bits w 64 32 && bits w 96 32 == 0 &&
    !(bits w 49 2 == 1 && 2 ^ 20 < bits w 64 32)
/-- The fields of the block are defined (R331, R333, R336 check 5). -/
def blockOk (xs : List Nat) : Bool :=
  let f := fieldAt xs
  let op := f 8 1
  f 0 2 == 1 && between 1 4 op && f 5 1 ≤ 8 && (op == 3 || 1 ≤ f 5 1) && f 9 1 / 8 == 0 && f 10 2 == 0 && f 24 8 == 0 &&
    (op == 3 || f 32 32 == 0) && (List.range (f 5 1)).all fun k => segOk (segWord xs k)

/-- The page's slot k holds a capability that covers the segment with the permission its operation needs (R336 check 7). -/
def Tenant.segCovered (t : Tenant) (op w : Nat) : Bool :=
  bitAt w 48 ||
    (let c := tget Cap.zero t.slots (bits w 44 4)
     c.tag && bits w 0 44 + bits w 64 32 ≤ capLen c && capHas c (if op = 1 ∨ op = 4 then pSTORE else pLOAD))

/-- A free ledger slot, from a start the spec does not state (R336; log 9). -/
def State.freeSlot (s : State) : Option Nat :=
  ((List.range 65536).find? fun j => (s.entry ((Config.ledgerStart s.freeCtr + j) % 65536)).st == .free).map fun j =>
    (Config.ledgerStart s.freeCtr + j) % 65536

/-- An accepted submission enters the ledger QUEUED (R336, R339, R341). -/
def State.accept (s : State) (pg slot : Nat) (token : Word) (xs : List Nat) : State :=
  let f := fieldAt xs
  let t := s.tenant pg
  let segs : List Seg := (List.range (f 5 1)).map fun k =>
    let w := segWord xs k
    let base := if bitAt w 48 then 0 else (capBase (tget Cap.zero t.slots (bits w 44 4)) + bits w 0 44) % 2 ^ 52
    { slot := bits w 44 4, off := bits w 0 44, skip := bitAt w 48, lane := bits w 49 2, len := bits w 64 32, base := base }
  let n := s.chan.ledgerCount + 1
  let e : Entry := {
    tag := (s.jalif.boot.number % 4096) * 2 ^ 36 + slot * 2 ^ 20 + tget 0 s.chan.slotGen slot, st := .queued,
    idem := f 8 1 == 1 || f 8 1 == 4 || bitAt (f 9 1) 0, token := token, tenant := pg, part := f 4 1, device := f 6 2,
    op := f 8 1, flags := f 9 1, timeoutMs := f 12 4, devaddr := BitVec.ofNat 64 (f 16 8), devcmd := BitVec.ofNat 256 (f 32 32),
    segs := segs, order := n }
  let s1 := { s with freeCtr := s.freeCtr + 1, chan := { s.chan with ledgerCount := n } }
  (s1.modEntry slot fun _ => e).modTenant pg fun t => { t with accepted := satBits 64 (t.accepted + 1) }

/-- A store to SUBMIT (R336, R337): the checks in order; false while a line that the hub reads, or the ring, waits. -/
def State.submit (s : State) (pg part off : Nat) (token : Word) : Bool × State :=
  let t := s.tenant pg
  let c1 := tget Cap.zero t.slots 1
  if !s.chan.accepting then s.reject pg 0x0136 token
  else if s.pagePart pg = 0 ∨ part ≠ s.pagePart pg then s.reject pg 0x0130 token
  else if t.frozen ∨ t.freezing then s.reject pg 0x0134 token
  else if !(tget Cap.zero t.slots 0).tag ∨ !c1.tag ∨ off % 64 ≠ 0 ∨ capLen c1 < off + 192 then s.reject pg 0x0133 token
  else
    let a := capBase c1 + off
    if !s.memRange a 192 then s.reject pg 0x0132 token
    else match s.hubBytes a 192 with
      | (none, u) => (false, u)
      | (some (xs, poisoned), _) =>
        let f := fieldAt xs
        if poisoned ∨ !blockOk xs then s.reject pg 0x0132 token
        else if f 2 2 ≠ pg ∨ f 4 1 ≠ s.pagePart pg ∨ 4096 ≤ f 6 2 ∨ s.devType (f 6 2) = 0 ∨ s.devPart (f 6 2) ≠ s.pagePart pg then
          s.reject pg 0x0130 token
        else if !((List.range (f 5 1)).all fun k => t.segCovered (f 8 1) (segWord xs k)) then s.reject pg 0x0133 token
        else if s.param 0x0B00 pg ≤ (s.pageSlots pg).length ∨
            s.param 0x0B01 (s.pagePart pg) ≤ (s.chan.ledger.filter fun e => e.2.st != .free && e.2.part == s.pagePart pg).length then
          s.reject pg 0x0131 token
        else match s.freeSlot with
          | none => s.reject pg 0x0135 token
          | some k => (true, s.accept pg k token xs)

/-- SUBMIT (R336): a 16-byte store to the page's SUBMIT register, the packet carrying the partition. -/
def execSubmit (pg : PageId) (part : PartId) (w token : Word) (s : State) : Host.Outcome State Fault Refusal :=
  done (s.submit pg part (bits w.toNat 0 32) token).2

/-- A store to CANCEL (R357). -/
def State.cancel (s : State) (pg : Nat) (tag : Nat) : State :=
  let k := bits tag 20 16
  let e := s.entry k
  let rack := s.devType e.device = 3
  if e.st = .free ∨ e.tag ≠ tag % 2 ^ 48 ∨ e.tenant ≠ pg then
    s.modTenant pg fun t => { t with cancelIgn := satBits 64 (t.cancelIgn + 1) }
  else match e.st with
    | .queued | .frozen => s.terminate k 1 0x0116 e.left
    | .active => s.modEntry k fun e => { e with cancel := true, abortWait := e.abortWait || rack }
    | .issuing | .issued =>
      let t := s.modEntry k fun e => { e with cancel := true, abortWait := e.abortWait || rack }
      if rack then t.rackTell k 5 else t
    | .redrive =>
      if !e.everIssued ∨ (!rack && e.idem) then s.terminate k 1 0x0116 e.left
      else s.modEntry k fun e => { e with cancel := true, abortNext := rack }
    | _ => s

/-- CANCEL (R357). -/
def execCancel (pg : PageId) (_part : PartId) (tag : Word) (s : State) : Host.Outcome State Fault Refusal :=
  done (s.cancel pg (bits tag.toNat 0 48))

/-- A capability meets the requirement of slot k of a page (R335). -/
def State.slotOk (s : State) (pg k : Nat) (c : Cap) : Bool :=
  c.tag && (match k with
    | 0 => capKind c == 3 && capOtype c == pg && capHas c pSTORE
    | 1 => capKind c == 0 && capHas c pLOAD
    | _ => capKind c == 0 && (capHas c pLOAD || capHas c pSTORE) && s.memRange (capBase c) (capLen c))

/-- A store to a capability slot (R335). -/
def State.slotStore (s : State) (pg k : Nat) (c : Cap) : State :=
  s.modTenant pg fun t => { t with slots := if s.slotOk pg k c then tset Cap.zero t.slots k c else terase t.slots k }

/-- SLOT_WRITE (R335). -/
def execSlotWrite (pg : PageId) (k : Fin 16) (c : Cap) (s : State) : Host.Outcome State Fault Refusal :=
  done (s.slotStore pg k c)

/-- The engine that the hub chooses for an entry (R344). -/
def State.chooseEngine (s : State) (e : Entry) : Option Nat :=
  let set_ := s.param 0x0B02 e.part
  let inSet := (List.range 128).filter fun n => bitAt set_ n && s.engineUp n
  let others := inSet.filter fun n => n != e.engine
  let cand := if e.st = .redrive ∧ !others.isEmpty then others else inSet
  let open_ := cand.filter fun n => decide (s.engineLoad n < 512)
  open_.foldl (fun (o : Option Nat) n => match o with
    | some m => if s.engineLoad n < s.engineLoad m then some n else some m
    | none => some n) none

/-- The path that the hub chooses for an entry (R344). -/
def State.choosePath (s : State) (e : Entry) : Option Nat :=
  let last := (s.device e.device).lastPath
  let usable := ((List.range 4).map fun j => (last + 1 + j) % 4).filter (s.pathUsable e.device)
  (if e.st = .redrive then usable.find? fun p => !e.tried.getLsbD p else none) <|> usable.head?

/-- The entry is the first QUEUED one of its device (R344). -/
def State.firstQueued (s : State) (e : Entry) : Bool :=
  !(s.chan.ledger.any fun q => q.2.st == .queued && q.2.device == e.device && decide (q.2.order < e.order))

/-- CHANNEL_DISPATCH (R344, R385, R392, R414): engine and path chosen; a broken lane rule ends the entry; a lane segment
waits for the lanes' beads. -/
def State.dispatch (s : State) (k : Nat) : State :=
  let e := s.entry k
  if !(e.st = .redrive ∨ (e.st = .queued ∧ s.firstQueued e)) then s
  else match s.laneFault e with
    | some c => s.terminate k 1 0x0110 e.left (BitVec.ofNat 64 (2 ^ 63 + c))
    | none =>
      if e.lanes && laneDomains.any fun n => s.domainState n != 1 then foldS laneDomains (fun n t => t.wantDomain n) s
      else match s.chooseEngine e, s.choosePath e with
        | some n, some p =>
          let inc := match s.devPath e.device p with
            | some (q, _, _) => if 32 ≤ q then (s.rack (q - 32)).peerInc else 0
            | none => 0
          if s.devType e.device = 3 ∧ e.everIssued ∧ inc ≠ e.peerInc ∧ !e.idem then s.terminate k 2 0x0120 e.left
          else (s.modEntry k fun e => { e with
              st := .active, engine := n, path := p, tried := e.tried ||| BitVec.ofNat 4 (2 ^ p) }).modDevice e.device fun d =>
            { d with lastPath := p }
        | _, _ => s

/-- CHANNEL_DISPATCH (R344). -/
def execChannelDispatch (slot : SlotId) (s : State) : Host.Outcome State Fault Refusal := done (s.dispatch slot)

/-- ENGINE_ISSUE (R342): ISSUING is written before anything is sent; a rack operation's first message then goes out. -/
def execEngineIssue (slot : SlotId) (s : State) : Host.Outcome State Fault Refusal :=
  done (
    let e := s.entry slot
    let inc := match s.devPath e.device e.path with
      | some (q, _, _) => if 32 ≤ q then (s.rack (q - 32)).peerInc else 0
      | none => 0
    if e.st ≠ .active ∨ !s.engineUp e.engine then s
    else
      let t := s.modEntry slot fun e => { e with
        st := .issuing, issueTime := s.time, firstIssue := if e.everIssued then e.firstIssue else s.time, everIssued := true,
        peerInc := inc, done := 0, abortWait := e.abortWait || e.abortNext, abortNext := false }
      if s.devType e.device = 3 then t.rackIssue slot e.abortNext else t)

/-- DEVICE_ACCEPT (R342): of a rack WRITE, the data is sent with it, and nothing happens while a line of it waits. -/
def execDeviceAccept (slot : SlotId) (s : State) : Host.Outcome State Fault Refusal :=
  done (
    let e := s.entry slot
    if e.st ≠ .issuing then s
    else match (if s.devType e.device = 3 then s.sendWriteData slot else (true, s)) with
      | (true, t) => t.modEntry slot fun e => { e with st := .issued }
      | (false, t) => t)

/-- DEVICE_COMPLETION (R347, R349): of the current attempt of an NVMe or PCIe operation; one that names an attempt that has
ended is late. -/
def execDeviceCompletion (slot : SlotId) (attempt : Nat) (r : DevResult) (s : State) : Host.Outcome State Fault Refusal :=
  done (
    let e := s.entry slot
    if e.st = .free ∨ s.devType e.device = 3 then s
    else if (e.st = .issuing ∨ e.st = .issued) ∧ attempt = e.redrives then s.deviceDone slot r
    else if e.everIssued ∧ attempt ≤ e.redrives then s.lateCompletion slot
    else s)

/-- The limit of an attempt in ticks: TIMEOUT_MS, or the device's default (R331, R346). -/
def State.attemptLimit (s : State) (e : Entry) : Nat :=
  (if e.timeoutMs = 0 then bits (s.param 0x0B03 e.device) 8 24 else e.timeoutMs) * 1000000

/-- ATTEMPT_TIMEOUT (R346): NVMe is sent an Abort first; every other type fails its path at once. -/
def execAttemptTimeout (slot : SlotId) (s : State) : Host.Outcome State Fault Refusal :=
  done (
    let e := s.entry slot
    if e.st ≠ .issued ∨ s.time < e.issueTime + s.attemptLimit e then s
    else if s.devType e.device = 1 then s.modEntry slot fun e => { e with abortWait := true, abortAt := if e.abortWait then e.abortAt else s.time }
    else s.failAttempt slot 0x0121)

/-- NVME_ABORT_COMPLETE (R346): a completion of the command itself stands; otherwise the attempt fails, where the Abort is not
answered after the device's default timeout. -/
def execNvmeAbortComplete (slot : SlotId) (r : AbortResult) (s : State) : Host.Outcome State Fault Refusal :=
  done (
    let e := s.entry slot
    if e.st ≠ .issued ∨ !e.abortWait ∨ s.devType e.device ≠ 1 then s
    else match r with
      | .completed d => s.deviceDone slot d
      | .aborted => s.failAttempt slot 0x0121
      | .noAnswer =>
        if s.time < e.abortAt + bits (s.param 0x0B03 e.device) 8 24 * 1000000 then s else s.failAttempt slot 0x0121)

/-- ATTEMPT_FAILURE (R347): the path, port or link of the attempt fails. -/
def execAttemptFailure (slot : SlotId) (s : State) : Host.Outcome State Fault Refusal :=
  done (s.failAttempt slot 0x0120)

/-- PATH_WAIT_EXPIRE (R348). -/
def execPathWaitExpire (slot : SlotId) (s : State) : Host.Outcome State Fault Refusal :=
  done (
    let e := s.entry slot
    if e.st ≠ .redrive ∨ s.anyPath e.device ∨ s.time < e.redriveAt + s.param 0x0B09 0 * 1000000 then s
    else s.endEither slot 0x0111 0x0120)

/-- An engine fails (R350): it is force-fenced, its attempts take the outcomes of R347, and it is reset, or after a third
failure within 1 s stays out of service. -/
def State.engineFails (s : State) (n : Nat) : State :=
  let x := s.engine n
  if x.state = 1 then s
  else
    let recent := (x.fails.filter fun t => s.time < t + 1000000000) ++ [s.time]
    let out := decide (3 ≤ recent.length)
    let s1 := (s.modEngine n fun x => { x with
      state := if out then 1 else 2, fails := recent, resets := if out then x.resets else satBits 16 (x.resets + 1) }).setFence (128 + n)
        { st := 2, since := s.time, forced := true }
    let s2 := (s1.failAttempts (fun e => e.engine == n) 0x0122).raise 0x0703 (4096 + n)
    if !out then s2
    else
      let s3 := s2.raise 0x0704 (4096 + n)
      let g := n / 16
      if (List.range 16).all fun j => (s3.engine (16 * g + j)).state == 1 then s3.dropDomain (336 + g) 0 else s3

/-- ENGINE_MISMATCH (R350): two halves disagree, or the firmware watchdog expires. -/
def execEngineMismatch (e : EngId) (s : State) : Host.Outcome State Fault Refusal := done (s.engineFails e)

/-- ENGINE_RESET_COMPLETE (R350): the engine passes its self-test and is unfenced; one that does not pass has failed
again. -/
def execEngineResetComplete (e : EngId) (ok : Bool) (s : State) : Host.Outcome State Fault Refusal :=
  done (if (s.engine e).state ≠ 2 then s
    else if ok then (s.modEngine e fun x => { x with state := 0 }).setFence (128 + e) {}
    else s.engineFails e)

/-- The TERMINAL entry of a page that became so first. -/
def State.nextPost (s : State) (pg : Nat) : Option (Nat × Entry) :=
  ((s.pageSlots pg).filter fun e => e.2.st == .terminal).foldl (fun (o : Option (Nat × Entry)) e => match o with
    | some q => if e.2.termOrder < q.2.termOrder then some e else some q
    | none => some e) none

/-- A ledger slot becomes FREE, its generation incremented (R339). -/
def State.freeEntry (s : State) (k : Nat) : State :=
  let s1 := s.modEntry k fun _ => {}
  { s1 with chan := { s1.chan with slotGen := tmod 0 s1.chan.slotGen k fun g => (g + 1) % 2 ^ 20 } }

/-- COMPLETION_POST (R354, R384): the page's next TERMINAL entry is posted, and its slot freed; of a rack operation that was issued,
CLEAR is sent. -/
def execCompletionPost (pg : PageId) (s : State) : Host.Outcome State Fault Refusal :=
  done (match s.nextPost pg with
    | none => s.clearRing pg
    | some (k, e) =>
      match s.postEntry pg (fun ph => completionBytes e.token.toNat e.tag e.cls e.detail e.redrives ph e.residual e.devstatus)
        (bitAt e.flags 2) with
      | (.yes, u) => (if u.devType e.device = 3 ∧ e.everIssued then u.rackTell k 8 else u).freeEntry k
      | (_, u) => u)

/-- CONSUMED_POLL (R354): the hub reads CONSUMED of a ring that its last known count shows full, each microsecond. -/
def execConsumedPoll (pg : PageId) (s : State) : Host.Outcome State Fault Refusal :=
  done (match s.ring pg with
    | none => s
    | some (base, n) =>
      if (s.tenant pg).ringState ≠ 2 ∨ s.time < (s.tenant pg).polledAt + 1000 then s
      else if !s.ringLineOk base 8 then s.suspendRing pg
      else match s.hubBytes base 8 with
        | (none, u) => u
        | (some (xs, _), _) =>
          let c := leNat xs
          let used := ((s.tenant pg).prod + 2 ^ 64 - c) % 2 ^ 64
          if 2 ^ n < used then s.suspendRing pg
          else s.modTenant pg fun t => { t with consumed := c, polledAt := s.time, ringState := if used < 2 ^ n then 1 else 2 })

/-- COALESCE_TIMEOUT (R355). -/
def execCoalesceTimeout (pg : PageId) (s : State) : Host.Outcome State Fault Refusal :=
  done (
    let t := s.tenant pg
    let tl : Tell := ⟨t.unnotified, t.oldest⟩
    if !s.tellDue (s.param 0x0B06 pg) tl then s
    else
      let (tl2, u) := s.tellNow (s.param 0x0B06 pg) (s.param 0x0B07 pg) t.prod tl
      u.modTenant pg fun t => { t with unnotified := tl2.count, oldest := tl2.oldest })

/-- LEDGER_WORD_UNCORRECTABLE (R363, R365): word w of the primary or the second copy; rebuilt from the other copy, or with
both gone the end of the entry, or of the reel where its identity is lost. -/
def execLedgerWordUncorrectable (slot : SlotId) (w : Fin 32) (second both : Bool) (s : State) : Host.Outcome State Fault Refusal :=
  done (
    let k := slot.val
    let slice := k % 4 ^^^ (if second then 2 else 0)
    let log := k + slice * 2 ^ 16 + w.val * 2 ^ 18 + b2n (!both) * 2 ^ 24 + b2n both * 2 ^ 25 + 2 ^ 63
    let s1 := { s with chan := { s.chan with ledgerLog := BitVec.ofNat 64 log } }
    let e := s.entry k
    if !both then s1.raise 0x0709 e.tenant
    else if w.val < 8 then s1.raiseD 0x070A e.tenant none k
    else if e.st = .free then s1
    else if e.st = .terminal then (s1.terminate k 2 0x0123 e.residual e.devstatus).modEntry k fun x => { x with termOrder := e.termOrder }
    else s1.terminate k 2 0x0123 e.left)

end Sys2Proof.Machine
end

