-- ==== Sys2Proof/Machine/Links.lean ====
section
/-!
DEFINITION. The flex lanes (R366 to R377) and the rack links (R378 to R387): ports, the inbound decode, and operations served
and requested over the rack.
-/

namespace Sys2Proof.Machine

/-- The port indices that a bifurcation creates in a group (R367). -/
def bifurcation (code : Nat) : List Nat :=
  match code with
  | 0 => [0] | 1 => [0, 2] | 2 => [0, 2, 3] | 3 => [0, 1, 2] | 4 => [0, 1, 2, 3] | _ => []
/-- The role of a flex group in force (R367, R388). -/
def State.flexRole (s : State) (g : Nat) : Nat := bits (tget 0 s.jalif.boot.flex g) 0 2
/-- The port exists under its group's role and bifurcation (R368). -/
def State.flexExists (s : State) (n : Nat) : Bool :=
  n < 24 && (s.flexRole (n / 4) == 1 || s.flexRole (n / 4) == 2) &&
    (bifurcation (bits (tget 0 s.jalif.boot.flex (n / 4)) 2 3)).contains (n % 4)

/-- A port comes up as it trained (R369, R371, R389): a CXL port below 32 GT/s or without CXL is held down with a
port-training fault; a width of 0 is a port still in detect. -/
def State.flexTrained (s : State) (n : Nat) (r : FlexTrain) : State :=
  let cxl := s.flexRole (n / 4) = 2
  let s := s.modPins fun p => { p with perst := p.perst &&& ~~~(BitVec.ofNat 24 (2 ^ n)) }
  if r.width = 0 ∨ r.rate = 0 then s
  else if cxl ∧ (r.rate < 5 ∨ !r.cxl) then (s.modFlex n fun x => { x with state := 0 }).raise 0x0802 n
  else ((s.modFlex n fun x => { x with
      state := 2, lost := false, rate := min r.rate 6, width := min r.width 16, cxl := cxl, busFirst := r.busFirst % 256,
      busLast := r.busLast % 256 }).setFence (32 + n) {}).relife

/-- FLEX_PORT_TRAINING (R369). -/
def execFlexPortTraining (port : FlexId) (r : FlexTrain) (s : State) : Host.Outcome State Fault Refusal :=
  done (if s.flexExists port ∧ (s.flexP port).state = 1 then s.flexTrained port r else s)

/-- The lines of a contained port's CXL ranges are lost (R376): every copy of a skein is dropped, a dirty one logged, and
every later read is poisoned until the line is written. -/
def State.cxlPortLost (s : State) (n : Nat) : State :=
  let mine (l : Nat) : Option Nat := (List.range 16).find? fun r => match s.cxlRange r with
    | some c => c.port == n && decide (c.base ≤ 128 * l ∧ 128 * l < c.base + c.dataBytes)
    | none => false
  let held := (s.home.dir.map (fun e => e.1)).filterMap fun l => (mine l).map fun r => (l, r)
  let any := (List.range 16).any fun r => match s.cxlRange r with | some c => c.port == n | none => false
  let s1 := foldS held (fun (l, r) t =>
    let dirty := allSkeins.any fun k => (t.skl k l).dirty
    let u := (foldS (allSkeins.filter fun k => (t.skl k l).held) (fun k u => u.forget k l) t).modDir l DirEntry.clear
    if dirty then u.raise 0x0605 (16 + r) else u) s
  if any then s1.modFlex n fun x => { x with cxlLost := true, rewritten := [] } else s1

/-- A port is contained (R374): DPC, drain and fence, the attempts and accesses on it end, and the group counts as lost. -/
def State.contain (s : State) (n : Nat) : State :=
  let s1 := (s.modFlex n fun x => { x with state := 3, lost := true, downAt := s.time, contains := satBits 16 (x.contains + 1) }).setFence (32 + n)
    { st := 2, since := s.time }
  let s2 := foldS (s.flexUsers n) (fun i t => t.refuseSpindle i 12) (s1.portFails n)
  ((s2.cxlPortLost n).raise 0x0801 n).relife

/-- FLEX_UNCORRECTABLE_FATAL (R374). -/
def execFlexUncorrectableFatal (port : FlexId) (s : State) : Host.Outcome State Fault Refusal :=
  done (if (s.flexP port).state = 2 then s.contain port else s)

/-- FLEX_RETRAIN (R374): a contained port is trained again once flex.retrain_ms has passed; none is an attempt that fails. -/
def execFlexRetrain (port : FlexId) (r : Option FlexTrain) (s : State) : Host.Outcome State Fault Refusal :=
  done (
    let x := s.flexP port
    if x.state ≠ 3 ∨ !s.flexExists port ∨ s.time < x.downAt + s.param 0x0C05 0 * 1000000 then s
    else
      let s1 := s.modFlex port fun x => { x with downAt := s.time }
      match r with
      | some t => s1.flexTrained port t
      | none => s1)

/-- FLEX_UC_TIMEOUT (R371): no completion within flex.uc_limit_us. -/
def execFlexUcTimeout (sp : SpId) (port : FlexId) (s : State) : Host.Outcome State Fault Refusal :=
  done (match (s.sp sp).serial with
    | some q =>
      if (s.flexUsers port).contains sp.val ∧ q.kind = SerialKind.ucLoad ∧ q.sentAt + s.param 0x0C04 0 * 1000 ≤ s.time then
        s.refuseSpindle sp 12
      else s
    | none => s)

/-- PCIE_CORRECTABLE_ERROR (R374): logged. -/
def execPcieCorrectableError (port : FlexId) (s : State) : Host.Outcome State Fault Refusal :=
  done (if (s.flexP port).state = 2 then s.raise 0x0800 port else s)

/-- An inbound request is refused (R372). -/
def State.inboundRefused (s : State) (n : Nat) : State :=
  (s.modFlex n fun x => { x with refused := satBits 20 (x.refused + 1) }).raise 0x0803 n

/-- The lines of a range marked as poisoned after an inbound write with the EP bit (R372). -/
def State.poisonRange (s : State) (a n : Nat) : State :=
  foldS (linesOf a n) (fun l t => t.hubPut l fun v => { v with poison := true, tags := 0 }) s

/-- An inbound write of a device to memory, or a read of it (R372): what a read delivers leaves the reel. -/
def State.inboundMem (s : State) (r : Inbound) (a : Nat) : State :=
  if r.write then
    match s.hubWrite a (ofBytes r.data) with
    | (true, t) => if r.ep then t.poisonRange a r.data.length else t
    | (false, t) => t
  else (s.hubLines (linesOf a r.len)).2

/-- A request to the operation stream of a ledger entry (R372). -/
def State.inboundStream (s : State) (r : Inbound) : State :=
  let k := bits r.addr 40 16
  let e := s.entry k
  let off := bits r.addr 0 36
  let n := if r.write then r.data.length else r.len
  let ridOk := match s.devPath e.device e.path with
    | some (port, rid, _) => port == r.port.val && rid == r.rid
    | none => false
  if !((e.st == .issuing || e.st == .issued) && bits r.addr 36 4 == e.redrives && ridOk && r.write == e.toMem &&
      decide (off + n ≤ e.total)) then
    s.inboundRefused r.port
  else if !r.write then s
  else
    let (ok, t) := s.streamIn k off r.data
    if !ok || !r.ep then t
    else foldS (e.placed.filter fun q => !q.1.skip && e.laneOf q.1 == 0) (fun (g, o) u =>
      let lo := max off o
      let hi := min (off + n) (o + g.len)
      if lo < hi then u.poisonRange (g.base + (lo - o)) (hi - lo) else u) t

/-- The DMA window that admits the request: the reel address it maps to (R372, R388). -/
def State.dmaWindow (s : State) (r : Inbound) : Option Nat :=
  (List.range 64).findSome? fun w =>
    let v := s.param 0x0C02 w
    let n := if r.write then r.data.length else r.len
    let bus := bits v 96 32 * 2 ^ 16
    let size := bits v 52 36 * 2 ^ 16
    let a := bits v 16 36 * 2 ^ 16 + (r.addr - bus)
    if bitAt v 191 ∧ bits v 0 16 = r.rid ∧ bus ≤ r.addr ∧ r.addr + n ≤ bus + size ∧ bitAt v (if r.write then 89 else 88) ∧
        s.memRange a n then some a else none

/-- INBOUND_REQUEST (R372, R373). -/
def execInboundRequest (r : Inbound) (s : State) : Host.Outcome State Fault Refusal :=
  done (
    let a := r.addr % 2 ^ 64
    if (s.flexP r.port).state ≠ 2 then s
    else if 2 ^ 63 ≤ a ∧ bits a 56 7 = 0 then s.inboundStream r
    else if 0x4000000000000000 ≤ a ∧ a ≤ 0x40000000FFFFFFFF then
      if (List.range 16384).any fun p => s.devType (p / 4) == 1 && s.devPath (p / 4) (p % 4) != none &&
          (match s.devPath (p / 4) (p % 4) with | some (port, rid, _) => port == r.port.val && rid == r.rid | none => false)
      then s else s.inboundRefused r.port
    else if 0x4100000000000000 ≤ a ∧ a < 0x4100000000002000 then
      let v := s.param 0x0C03 ((a - 0x4100000000000000) / 4)
      if r.write ∧ r.data.length = 4 ∧ a % 4 = 0 ∧ bitAt v 63 ∧ bits v 0 16 = r.rid ∧ bits v 22 9 < 480 then
        s.raiseIntr (bits v 22 9) (bits v 31 8)
      else s.inboundRefused r.port
    else if a < 2 ^ 48 then
      match s.dmaWindow r with
      | some m => s.inboundMem r m
      | none => s.inboundRefused r.port
    else s.inboundRefused r.port)

/-- CXL_CAPACITY_EVENT (R375, R458): a notice to partition 0. -/
def execCxlCapacityEvent (port : FlexId) (rec : List Nat) (s : State) : Host.Outcome State Fault Refusal :=
  done (if (s.flexP port).state = 2 ∧ (s.flexP port).cxl then s.postNotice 0 4 (port.val :: rec) else s)

/-- The limit of the answer to a back-invalidate of a line, in ticks (R376). -/
def State.biLimit (s : State) (line : Nat) : Nat :=
  match s.ownerOfLine line with
  | none => 50000
  | some k =>
    let z := s.sk k
    let b := s.param 0x0602 0
    let n := s.param 0x0605 k
    if z.pair ≠ 0 ∨ z.viaHub ∨ z.buddyWidth < 16 then 100000
    else if b = 2048 ∧ n = 8192 then 50000
    else 2 * plyTicks 0 b + 2 * ((n * 128 + 40 * 4096 + 5 * z.buddyWidth - 1) / (5 * z.buddyWidth)) + 5000

/-- CXL_RESPONSE_LATE (R376): the answer to a back-invalidate that the home holds goes beyond its limit. -/
def execCxlResponseLate (line : Nat) (s : State) : Host.Outcome State Fault Refusal :=
  done (match s.cxlOf (128 * line), s.home.biHeld.find? (fun e => e.1 == line) with
    | some r, some e => if e.2.2.2 + s.biLimit line ≤ s.time then s.raise 0x0804 r.port else s
    | _, _ => s)

/-- A rack port goes down (R381): drained and fenced, its attempts fail, and the reel is DEGRADED. -/
def State.rackDown (s : State) (k : Nat) : State :=
  let s1 := (s.modRack k fun x => x.stop s.time).setFence (64 + k) { st := 2, since := s.time }
  ((s1.portFails (32 + k)).raise 0x0806 (32 + k)).relife

/-- What the boundary routers answer for a domain that is force-fenced (R282, R284): the attempts of an engine, or on a port, end
with a path failure; the other requests it holds are refused. -/
def State.forceFence (s : State) (d : FDomain) : State :=
  let s1 := s.cutOff d
  match d with
  | .engine n => s1.failAttempts (fun e => e.engine == n.val) 0x0122
  | .flex n => s1.portFails n
  | .rack n => s1.portFails (32 + n)
  | _ => s1

/-- FORCE_FENCE (R282): the domain has not answered within its limit. -/
def execForceFence (d : FDomain) (s : State) : Host.Outcome State Fault Refusal :=
  done (let f := s.fence (fdomKey d)
    if f.st ≠ 1 ∨ s.time < f.since + drainLimit d then s else (s.forceFence d).raise 0x0506 (fdomInst d))

/-- A replay on port k (R381, R389, R390): counted; a port with too many in a millisecond trains at the next narrower width. -/
def State.replayed (s : State) (k : Nat) : State :=
      let x := s.rack k
      let fresh := decide (x.msStart + 1000000 ≤ s.time)
      let n := (if fresh then 0 else x.msReplays) + 1
      let s1 := s.modRack k fun x => { x with
        replays := satBits 32 (x.replays + 1), msReplays := n, msStart := if fresh then s.time else x.msStart, faulted := true }
      let s2 := if fresh || !x.faulted then s1.raise 0x0805 (32 + k) else s1
      if n ≤ s.param 0x0C42 0 then s2
      else if x.width ≤ 1 ∨ x.width / 2 < bits (s.param 0x0C40 k) 13 3 then s2.rackDown k
      else s2.modRack k fun x => { x.stop s.time with state := 1, lost := false, width := x.width / 2 }

/-- RACK_BLOCK_REPLAY (R379, R381): a block that arrives with a bad CRC, or out of sequence, sets NAK; a NAK of the peer replays the
blocks kept, and the port goes down when the oldest has failed 8 replays. -/
def execRackBlockReplay (r : PortReplay) (s : State) : Host.Outcome State Fault Refusal :=
  done (
    let k := r.port
    let x := s.rack k
    if x.state ≠ 2 then s
    else match r.cause with
      | .bad block =>
        let xs := ofBytes block
        if blockGood xs ∧ blockSeq xs = (x.ack + 1) % 2 ^ 20 then s
        else (s.modRack k fun x => { x with nak := true }).replayed k
      | .nak ack =>
        let y := x.replay ack
        if 8 < y.tries then s.rackDown k else (s.modRack k fun _ => { y with upAt := s.time }).replayed k)

/-- RACK_PORT_DOWN (R381): no valid block has arrived for 20 µs. -/
def execRackPortDown (k : RackId) (s : State) : Host.Outcome State Fault Refusal :=
  done (if (s.rack k).state = 2 ∧ (s.rack k).upAt + 20000 ≤ s.time then s.rackDown k else s)

/-- RACK_RETRAIN (R378, R381): an enabled port that is in training, or that is down and has waited rack.retrain_ms, trains at a
width; none is a failure, after which it waits again. -/
def execRackRetrain (k : RackId) (width : Option Nat) (s : State) : Host.Outcome State Fault Refusal :=
  done (
    let x := s.rack k
    let v := s.param 0x0C40 k
    let due := x.state = 1 ∨ (x.state = 3 ∨ x.state = 5) ∧ x.downAt + s.param 0x0C41 0 * 1000000 ≤ s.time
    if ¬ due ∨ !bitAt v 0 then s
    else match width with
      | some w =>
        if (w = 1 ∨ w = 2 ∨ w = 4) ∧ bits v 13 3 ≤ w then s.modRack k fun x => { x with state := 1, width := w }
        else s.modRack k fun x => { x with downAt := s.time }
      | none => s.modRack k fun x => { x with downAt := s.time })

/-- IDENTITY_BLOCK (R382): at the end of training the port comes up for the peer that rack.port names; a new incarnation on
a running port is a port down. -/
def execIdentityBlock (k : RackId) (id : RackIdentity) (s : State) : Host.Outcome State Fault Refusal :=
  done (
    let x := s.rack k
    if x.state = 2 then
      (if id.incarnation = x.peerInc ∧ id.reel = x.peer then s else s.rackDown k)
    else if x.state ≠ 1 ∨ x.width = 0 then s
    else if id.reel = bits (s.param 0x0C40 k) 1 12 ∧ id.reel ≠ s.jalif.boot.number then
      ((s.modRack k fun x => { x.start s.time with peer := id.reel, peerInc := id.incarnation % 2 ^ 32 }).setFence
        (64 + k) {}).relife
    else (s.modRack k fun x => { x with state := 5, downAt := s.time }).raise 0x0807 (32 + k))

/-- A served endpoint (R386, R388): base, bytes, READ, WRITE, partition, and the source it allows. -/
structure EndpointCfg where
  base  : Nat
  size  : Nat
  read  : Bool
  write : Bool
  part  : Nat
  anySrc : Bool
  src   : Nat
deriving DecidableEq, Repr

/-- Endpoint n, when valid. -/
def State.endpointCfg (s : State) (n : Nat) : Option EndpointCfg :=
  let v := s.param 0x0C43 n
  if n < 256 ∧ bitAt v 127 then
    some ⟨bits v 0 40 * 4096, bits v 40 40 * 4096, bitAt v 80, bitAt v 81, bits v 82 6, bitAt v 88, bits v 89 12⟩
  else none

/-- The deduplication entry of a tag. -/
def State.dedupOf (s : State) (tag : Nat) : Option Dedup := (s.links.dedup.find? fun e => e.1 == tag).map (·.2)
/-- The entry of a tag written, or freed. -/
def State.setDedup (s : State) (tag : Nat) (d : Option Dedup) : State :=
  { s with links := { s.links with dedup := match d with
    | some x => tins s.links.dedup tag x
    | none => terase s.links.dedup tag } }

/-- The RESULT that an entry holds goes out, for the attempt and on the port of the message it answers (R383, R384). -/
def State.sendResult (s : State) (tag : Nat) (d : Dedup) : State :=
  s.sendRack d.port false [(7, {
    port := d.port, attempt := d.attempt, tag := tag, endpoint := d.endpoint, code := d.code, doneBytes := d.bytes,
    incarnation := s.jalif.incarnation })]

/-- A served operation ends with a RESULT, which the entry holds, after the data of a read (R384, R386). -/
def State.serveEnd (s : State) (tag : Nat) (d : Dedup) (code bytes : Nat) (data : List Nat := []) : State :=
  let e : Dedup := { d with done := true, code := code, bytes := bytes, since := s.time }
  let m : RackMsg := { port := d.port, attempt := d.attempt, tag := tag, endpoint := d.endpoint }
  let s1 := ((s.setDedup tag (some e)).sendRack d.port false (dataMsgs m true (data.length + 1) 0 data)).sendResult tag e
  if code ≤ 1 then s1.modEndpoint d.endpoint fun x => { x with ops := (x.ops + 1) % 2 ^ 64 } else s1

/-- The 64-byte status record of an endpoint (R387). -/
def State.senseBytes (s : State) (n : Nat) : List Nat :=
  let x := s.endpoint n
  let size := match s.endpointCfg n with | some c => c.size | none => 0
  leBytes 8 size ++ leBytes 8 x.ops ++ leBytes 8 ((x.prod + 2 ^ 64 - x.consumed) % 2 ^ 64) ++ leBytes 8 s.jalif.incarnation ++
    List.replicate 32 0

/-- The 64 bytes of a message ring entry (R387). -/
def messageBytes (tag ep phase : Nat) (cmd : BitVec 256) : List Nat :=
  leBytes 8 tag ++ leBytes 2 ep ++ [phase] ++ List.replicate 21 0 ++ leBytes 32 cmd.toNat

/-- The clearing of a newly bound message ring (R353, R387). -/
def State.clearEndpoint (s : State) (n : Nat) : State :=
  match (s.endpoint n).clearing, ringOf (s.param 0x0C44 n) with
  | true, some (base, m) =>
    (match s.zeroRange base (128 + 64 * 2 ^ m) with
      | (true, u) => u.modEndpoint n fun x => { x with clearing := false, consumed := 0 }
      | (false, u) => u)
  | _, _ => s

/-- CONSUMED of a message ring read again when the last known count shows it full (R354, R387). -/
def State.pollEndpoint (s : State) (n base m : Nat) : State :=
  let x := s.endpoint n
  if (x.prod + 2 ^ 64 - x.consumed) % 2 ^ 64 < 2 ^ m then s
  else match s.hubBytes base 8 with
    | (none, u) => u
    | (some (xs, _), _) =>
      if 2 ^ m < (x.prod + 2 ^ 64 - leNat xs) % 2 ^ 64 then s.modEndpoint n fun x => { x with suspended := true }
      else s.modEndpoint n fun x => { x with consumed := leNat xs }

/-- A CONTROL message delivered to its endpoint's ring at its transition to DONE (R384, R387); it stays PERFORMING while the
ring has no room. -/
def State.deliverControl (s : State) (tag : Nat) (d : Dedup) : State :=
  let n := d.endpoint
  match ringOf (s.param 0x0C44 n) with
  | none => s
  | some (base, m) =>
    let s := (s.clearEndpoint n).pollEndpoint n base m
    let x := s.endpoint n
    let a := base + 128 + 64 * (x.prod % 2 ^ m)
    if x.clearing ∨ x.suspended ∨ 2 ^ m ≤ (x.prod + 2 ^ 64 - x.consumed) % 2 ^ 64 then s
    else if !s.ringLineOk a 64 then s.modEndpoint n fun x => { x with suspended := true }
    else match s.hubWrite a (messageBytes tag n ((x.prod / 2 ^ m + 1) % 2) d.devcmd) with
      | (false, u) => u
      | (true, u) =>
        let p := (x.prod + 1) % 2 ^ 64
        let (tl, v) := u.tell (s.param 0x0C47 n) (s.param 0x0C48 n) p ⟨x.unnotified, x.oldest⟩ false
        (v.modEndpoint n fun x => { x with prod := p, unnotified := tl.count, oldest := tl.oldest }).serveEnd tag d 0 0

/-- Performance of an operation begins (R384, R386, R387): a refused one ends at once; a read ends when its data is read, and
waits, with no entry made, while a line waits. -/
def State.performOp (s : State) (m : RackMsg) (op : Nat) : State :=
  let d : Dedup := { attempt := m.attempt, endpoint := m.endpoint, op := op, devaddr := m.devaddr, total := m.total,
                     devcmd := m.devcmd, port := m.port }
  match s.endpointCfg m.endpoint with
  | none => s.serveEnd m.tag d 3 0
  | some c =>
    if !c.anySrc ∧ c.src ≠ bits m.tag 36 12 then s.serveEnd m.tag d 4 0
    else match op with
      | 3 => (s.setDedup m.tag (some d)).deliverControl m.tag d
      | 4 => s.serveEnd m.tag d (if 64 < m.total then 1 else 0) (min 64 m.total) ((s.senseBytes m.endpoint).take m.total)
      | _ =>
        if c.size < m.devaddr + m.total then s.serveEnd m.tag d 5 0
        else if !(if op = 1 then c.read else c.write) then s.serveEnd m.tag d 4 0
        else if op = 2 then (if m.total = 0 then s.serveEnd m.tag d 0 0 else s.setDedup m.tag (some d))
        else match s.hubBytes (c.base + m.devaddr) m.total with
          | (none, t) => t
          | (some (xs, poisoned), _) => if poisoned then s.serveEnd m.tag d 6 0 else s.serveEnd m.tag d 0 m.total xs

/-- A request message passes the spoof check (R383): its tag names the trained peer of a port that is up. -/
def State.fromPeer (s : State) (m : RackMsg) : Bool := bits m.tag 36 12 == (s.rack m.port).peer

/-- RETRY_LATER: the table is full; the hint is an estimate that the spec does not state (log 9). -/
def State.sendRetryLater (s : State) (m : RackMsg) : State :=
  { s with freeCtr := s.freeCtr + 1 }.sendRack m.port false [(9, {
    port := m.port, attempt := m.attempt, tag := m.tag, endpoint := m.endpoint, hint := (Config.retryHint s.freeCtr).toNat })]

/-- The held RESULT is sent again, for the attempt that asks and on its port (R384). -/
def State.resend (s : State) (m : RackMsg) (d : Dedup) : State :=
  let e := { d with attempt := m.attempt, port := m.port }
  (s.setDedup m.tag (some e)).sendResult m.tag e

/-- An OP_* message at the reel that serves the endpoint (R383, R384): an attempt below the entry's is discarded. -/
def State.opMessage (s : State) (m : RackMsg) (op : Nat) : State :=
  if (s.rack m.port).state ≠ 2 then s
  else
    let s := s.rackHeard op true m
    if !s.fromPeer m then s.raise 0x0808 (32 + m.port)
    else match s.dedupOf m.tag with
      | none => if s.links.dedup.length < 16384 then s.performOp m op else s.sendRetryLater m
      | some d =>
        if m.attempt < d.attempt then s
        else if d.done then s.resend m d
        else if d.attempt < m.attempt then s.performOp m op else s

/-- OP_READ (R384). -/
def execOpRead (m : RackMsg) (s : State) : Host.Outcome State Fault Refusal := done (s.opMessage m 1)
/-- OP_WRITE (R384): performed as its DATA arrives. -/
def execOpWrite (m : RackMsg) (s : State) : Host.Outcome State Fault Refusal := done (s.opMessage m 2)
/-- OP_CONTROL (R384, R387). -/
def execOpControl (m : RackMsg) (s : State) : Host.Outcome State Fault Refusal := done (s.opMessage m 3)
/-- OP_SENSE (R387). -/
def execOpSense (m : RackMsg) (s : State) : Host.Outcome State Fault Refusal := done (s.opMessage m 4)

/-- ABORT (R384): performance stops, DONE with CODE 2; a DONE entry sends its RESULT again. -/
def execAbort (m : RackMsg) (s : State) : Host.Outcome State Fault Refusal :=
  done (if (s.rack m.port).state ≠ 2 then s
    else
      let s := s.rackHeard 5 true m
      if !s.fromPeer m then s.raise 0x0808 (32 + m.port)
      else match s.dedupOf m.tag with
        | some d =>
          if m.attempt < d.attempt then s
          else if d.done then s.resend m d
          else s.serveEnd m.tag { d with attempt := m.attempt, port := m.port } 2 d.bytes
        | none => s)

/-- The ledger slot that a response message answers: its tag is current, its attempt the entry's, and it arrives on the
attempt's port (R349, R383). -/
def State.rackSlot (s : State) (m : RackMsg) : Option Nat :=
  let k := bits m.tag 20 16
  let e := s.entry k
  let onPort : Bool := match s.devPath e.device e.path with
    | some (q, _, _) => q == 32 + m.port.val
    | none => false
  if e.tag = m.tag ∧ (e.st = .issuing ∨ e.st = .issued) ∧ e.redrives = m.attempt ∧ s.devType e.device = 3 ∧ onPort then some k
  else none

/-- DATA of a write at the endpoint: the bytes go to the window, and the last ends the operation (R384, R386). -/
def State.dataIn (s : State) (m : RackMsg) (d : Dedup) : State :=
  match s.endpointCfg d.endpoint with
  | none => s
  | some c =>
    if d.done ∨ d.op ≠ 2 ∨ m.attempt ≠ d.attempt ∨ d.total < m.offset + m.data.length then s
    else match s.hubWrite (c.base + d.devaddr + m.offset) (ofBytes m.data) with
      | (false, t) => t
      | (true, t) =>
        let n := d.bytes + m.data.length
        if m.last then t.serveEnd m.tag d (if n < d.total then 1 else 0) (min n d.total)
        else t.setDedup m.tag (some { d with bytes := n })

/-- DATA (R383, R384): of a write at the endpoint that serves it, or of a read at its source. -/
def execRackData (m : RackMsg) (s : State) : Host.Outcome State Fault Refusal :=
  done (if (s.rack m.port).state ≠ 2 then s
    else
      let mine := bits m.tag 36 12 = s.jalif.boot.number
      let s := s.rackHeard 6 (!decide mine) m
      if mine then
        match s.rackSlot m with
        | some k => if (s.entry k).toMem ∧ m.offset + m.data.length ≤ (s.entry k).total then (s.streamIn k m.offset m.data).2 else s
        | none => s
      else if !s.fromPeer m then s.raise 0x0808 (32 + m.port)
      else match s.dedupOf m.tag with
        | some d => s.dataIn m d
        | none => s)

/-- RESULT (R383, R352): the endpoint's answer ends the entry; one that names an earlier attempt is late (R349). -/
def execResult (m : RackMsg) (s : State) : Host.Outcome State Fault Refusal :=
  done (if (s.rack m.port).state ≠ 2 then s
    else
      let s := s.rackHeard 7 false m
      if bits m.tag 36 12 ≠ s.jalif.boot.number then s.raise 0x0808 (32 + m.port)
      else match s.rackSlot m with
        | some k =>
          let e := s.entry k
          (match m.code with
            | 0 => s.deviceDone k (.done e.total [])
            | 1 => s.deviceDone k (.done m.doneBytes [])
            | 2 =>
              (match (if e.cancel ∨ e.toMem then none else s.streamPoison e) with
                | some q => s.terminate k 1 0x0114 (e.total - q)
                | none => s.terminate k 1 0x0116 (e.total - min e.total m.doneBytes))
            | c => s.terminate k 1 0x0110 (e.total - min e.total m.doneBytes) (BitVec.ofNat 64 c))
        | none =>
          let e := s.entry (bits m.tag 20 16)
          if e.tag = m.tag ∧ e.st ≠ .free ∧ m.attempt < e.redrives then s.lateCompletion (bits m.tag 20 16) else s)

/-- CLEAR (R384): the entry is freed. -/
def execClear (m : RackMsg) (s : State) : Host.Outcome State Fault Refusal :=
  done (if (s.rack m.port).state ≠ 2 then s
    else
      let s := s.rackHeard 8 true m
      if !s.fromPeer m then s.raise 0x0808 (32 + m.port)
      else match s.dedupOf m.tag with
        | some d => if m.attempt < d.attempt then s else s.setDedup m.tag none
        | none => s)

/-- RETRY_LATER (R384): the source waits for the hint, in µs, and sends the same attempt again. -/
def execRetryLater (m : RackMsg) (s : State) : Host.Outcome State Fault Refusal :=
  done (if (s.rack m.port).state ≠ 2 then s
    else
      let s := s.rackHeard 9 false m
      if bits m.tag 36 12 ≠ s.jalif.boot.number then s.raise 0x0808 (32 + m.port)
      else match s.rackSlot m with
        | some k => s.modEntry k fun e => { e with waitHint := some (s.time + m.hint * 1000) }
        | none => s)

/-- RETRY_LATER_WAIT_END (R384): the wait ends, and the same attempt is sent again, which is no redrive; it waits on while a line of
a write's data does. -/
def execRetryLaterWaitEnd (slot : SlotId) (s : State) : Host.Outcome State Fault Refusal :=
  done (match (s.entry slot).waitHint with
    | some t =>
      if s.time < t then s
      else
        let s1 := s.rackIssue slot false
        match (if (s.entry slot).st = .issued then s1.sendWriteData slot else (true, s1)) with
        | (true, u) => u.modEntry slot fun e => { e with waitHint := none }
        | (false, _) => s
    | none => s)

/-- DEDUP_ENTRY_EXPIRE (R384): a DONE entry without a CLEAR is freed after 3,600 s. -/
def execDedupEntryExpire (tag : Nat) (s : State) : Host.Outcome State Fault Refusal :=
  done (match s.dedupOf tag with
    | some d => if d.done ∧ d.since + 3600000000000 ≤ s.time then s.setDedup tag none else s
    | none => s)

/-- RACK_OPERATION_TIMEOUT (R385): 3,000 s after its first issue. -/
def execRackOperationTimeout (slot : SlotId) (s : State) : Host.Outcome State Fault Refusal :=
  done (
    let e := s.entry slot
    if s.devType e.device ≠ 3 ∨ !e.everIssued ∨ e.st = .free ∨ e.st = .terminal ∨ s.time < e.firstIssue + 3000000000000 then s
    else s.terminate slot 2 0x0121 e.left)

/-- CONTROL messages that wait for room in their rings, and notifications due, tried again (R355, R387): what the hub does of
itself while time passes. -/
def State.endpointTurn (s : State) : State :=
  let s1 := foldS (s.links.dedup.filter fun e => !e.2.done && e.2.op == 3) (fun e t => t.deliverControl e.1 e.2) s
  foldS (s1.links.endpoints.map (fun e => e.1)) (fun n t =>
    let x := t.endpoint n
    let tl : Tell := ⟨x.unnotified, x.oldest⟩
    if t.tellDue (t.param 0x0C47 n) tl then
      let (tl2, u) := t.tellNow (t.param 0x0C47 n) (t.param 0x0C48 n) x.prod tl
      u.modEndpoint n fun x => { x with unnotified := tl2.count, oldest := tl2.oldest }
    else t) s1

end Sys2Proof.Machine
end

