-- ==== Sys2Proof/Machine/TenantCmd.lean ====
section
/-!
DEFINITION. The commands of the tenant pages and of the press and cipher units (R391 to R422) that are no unit operation.
-/

namespace Sys2Proof.Machine

/-- A store to HIST_CAP (R398): valid for a tagged memory capability with LOAD and STORE over at least 64 KiB of the
partition's memory. -/
def State.histStore (s : State) (pg : Nat) (c : Cap) : State :=
  let ok := capMem c && capHasAll c [pLOAD, pSTORE] && decide (65536 ≤ capLen c) && s.memRange (capBase c) (capLen c) &&
    inRanges (s.partRanges (s.param 0x0D10 pg)) (capBase c) 65536
  s.modTenant pg fun t => { t with hist := if ok then some c else none }

/-- HIST_CAP (R398). -/
def execHistCap (pg : PageId) (c : Cap) (s : State) : Host.Outcome State Fault Refusal := done (s.histStore pg c)

/-- The words of a key of a length code (R394). -/
def keyWords (len : Nat) : Nat := match len with | 0 => 2 | 1 => 3 | 2 => 4 | _ => 8

/-- A write of KEY_CTL (R394, R396): the key data moves into the slot and is zeroed, or the slot is emptied. -/
def State.keyCtl (s : State) (pg : Nat) (w : Word) : State :=
  let n := w.toNat
  let slot := bits n 0 1
  let len := bits n 1 2
  s.modTenant pg fun t =>
    if bitAt n 3 then { t with keys := tset {} t.keys slot {} }
    else { t with
      keys := tset {} t.keys slot { loaded := true, len := len, words := (List.range (keyWords len)).map fun k => tget 0 t.keyData k },
      keyData := [] }

/-- KEY_COMMIT (R396): KEY_CTL written with CLEAR 0. -/
def execKeyCommit (pg : PageId) (w : Word) (s : State) : Host.Outcome State Fault Refusal :=
  done (s.keyCtl pg (w &&& ~~~(8 : Word)))

/-- KEY_CLEAR (R394): KEY_CTL written with CLEAR 1. -/
def execKeyClear (pg : PageId) (w : Word) (s : State) : Host.Outcome State Fault Refusal := done (s.keyCtl pg (w ||| 8))

/-- The number of a unit: 18 press, 19 cipher. -/
def pcNumber (u : PcUnit) : Nat := match u with | .press => 18 | .cipher => 19

/-- The pages whose context of a unit skein k holds (R409). -/
def State.pcPages (s : State) (k : Nat) (u : PcUnit) : List Nat :=
  (s.tenants.filter fun e => (match u with | .press => e.2.pHolder | .cipher => e.2.cHolder) == some k).map (fun e => e.1)

/-- The page's context on skein k waits for a fasten before it can leave (R409, R410). -/
def State.pcUnfastened (s : State) (k pg : Nat) : Bool := !(s.sk k).loose && (s.sk k).ctxDirty.contains pg

/-- CONTEXT_RECALL (R409): the holder releases the context when no operation runs on it and a fasten has completed, for which
it starts an early one. -/
def execContextRecall (pg : PageId) (u : PcUnit) (s : State) : Host.Outcome State Fault Refusal :=
  done (
    let t := s.tenant pg
    let (holder, busy) := match u with | .press => (t.pHolder, t.busyP) | .cipher => (t.cHolder, t.busyC)
    match holder with
    | none => s
    | some k =>
      if busy.isSome then s
      else if s.pcUnfastened k pg then s.requestFasten k
      else s.pcGive k u pg)

/-- The start beads of a unit, in thirty-seconds (R392, R476). -/
def pcBeads (u : PcUnit) : Nat := match u with | .press => 96 | .cipher => 128

/-- The state of a skein's unit becomes v (R420). -/
def Skein.setPc (z : Skein) (u : PcUnit) (v : Nat) : Skein :=
  match u with | .press => { z with press := v } | .cipher => { z with cipher := v }

/-- PC_UNIT_IDLE_OFF (R392): a unit idle for pc.idle_off_us powers off and returns its beads; its contexts go back to the hub's store, modified
ones after a fasten. -/
def execPcUnitIdleOff (sk : SkId) (u : PcUnit) (s : State) : Host.Outcome State Fault Refusal :=
  done (
    let k := sk.val
    let pages := s.pcPages k u
    let since := match u with | .press => (s.sk k).pIdleAt | .cipher => (s.sk k).cIdleAt
    if (s.sk k).pcState (pcNumber u) ≠ 1 ∨ s.pcBusy k (pcNumber u) ≠ 0 ∨ s.time < since + s.param 0x0D00 k * 1000 then s
    else if pages.any fun pg => s.pcUnfastened k pg then s.requestFasten k
    else ((foldS pages (fun pg t => t.pcGive k u pg) s).modSk k fun z => (z.setPc u 0)).returnBeads k (pcBeads u))

/-- UNIT_MISMATCH (R421): the work is repeated from the last progress point; the third mismatch within 1 ms takes the unit
out of service. -/
def execUnitMismatch (sk : SkId) (u : PcUnit) (s : State) : Host.Outcome State Fault Refusal :=
  done (
    let k := sk.val
    let z := s.sk k
    if z.pcState (pcNumber u) ≠ 1 then s
    else
      let recent := ((match u with | .press => z.pMis | .cipher => z.cMis).filter fun t => s.time < t + 1000000) ++ [s.time]
      let s1 := (s.modSk k fun z => match u with
        | .press => { z with pMis := recent }
        | .cipher => { z with cMis := recent }).raise 0x0900 k
      if recent.length < 3 then s1
      else ((s1.modSk k fun z => z.setPc u 3).returnBeads k (pcBeads u)).raise 0x0901 k)

/-- ENTROPY_HEALTH_FAIL (R411): the cipher unit starts no block until a test passes. -/
def execEntropyHealthFail (sk : SkId) (s : State) : Host.Outcome State Fault Refusal :=
  done (if s.skeinUp sk ∧ (s.sk sk).entropyOk then (s.modSk sk fun z => { z with entropyOk := false }).raise 0x0902 sk else s)

/-- ENTROPY_TEST_PASS (R411). -/
def execEntropyTestPass (sk : SkId) (s : State) : Host.Outcome State Fault Refusal :=
  done (if s.skeinUp sk then s.modSk sk fun z => { z with entropyOk := true } else s)

/-- CONTEXT_UNCORRECTABLE (R422): the page's context is lost; its next trigger ends with CONTEXT_POISONED. -/
def execContextUncorrectable (pg : PageId) (s : State) : Host.Outcome State Fault Refusal :=
  done ((s.modTenant pg fun t => { t with poisoned := true }).raise 0x0904 (256 + pg))

end Sys2Proof.Machine
end

