-- ==== Sys2Proof/Machine/Registers.lean ====
section
/-!
DEFINITION. What a load from reel register space reads (R12, R13, R37, R39, R41): every register of every page and block,
by its offset from the base of reel register space.
-/

namespace Sys2Proof.Machine

/-- A mask with bit n set where the condition holds, for n below w. -/
def maskOf (w : Nat) (c : Nat → Bool) : Nat := ((List.range w).map fun n => if c n then 2 ^ n else 0).sum

/-- LIFE_STATE (R37); OFF has no code, since nothing can be read then. -/
def Life.code : Life → Nat
  | .off => 1 | .rom => 1 | .fill => 2 | .staged => 3 | .run => 4 | .degraded => 5 | .halt => 6

/-- REEL_STATUS (R37). -/
def State.reelStatus (s : State) : Nat :=
  pack [(0, s.life.code), (3, b2n s.faults.service), (4, maskOf 12 s.skeinUp), (16, maskOf 12 fun k => (s.sk k).split),
        (28, maskOf 12 fun k => (s.sk k).loose), (40, maskOf 16 s.chUp)]

/-- FASTEN_STATUS (R211). -/
def Skein.fastenStatus (z : Skein) : Nat :=
  pack [(0, z.pair), (2, b2n (z.closingEpoch != 0)), (3, b2n z.tickHeld), (4, b2n z.inBarrier), (16, satBits 16 z.lastBarrier),
        (32, z.committed % 2 ^ 32)]

/-- CACHE_SKEIN_STATUS (R239). -/
def Skein.cacheStatus (z : Skein) : Nat :=
  pack [(0, z.l3State), (2, b2n z.cleaning), (4, z.l3On.toNat), (20, maskOf 16 fun w => tget 0 z.l3Lock w != 0)]

/-- CACHE_PLY_STATUS (R239). -/
def Ply.cacheStatus (y : Ply) : Nat :=
  pack [(0, y.l2State), (2, b2n y.cleaning), (4, y.l2On.toNat), (20, maskOf 16 fun w => tget 0 y.l2Lock w != 0),
        (36, satBits 28 y.corrected)]

/-- FABRIC_STATUS (R295): narrowing is a state of a link that is up (R280). -/
def Skein.fabricStatus (z : Skein) (now : Nat) : Nat :=
  let st := if z.linkState = 2 ∧ now < z.narrowEnd then 3 else z.linkState
  pack [(0, z.hubWidth), (7, z.buddyWidth), (14, b2n z.viaHub), (15, st), (18, z.hubSpares), (25, z.buddySpares),
        (32, z.replays)]

/-- PC_STATUS (R420). -/
def State.pcStatus (s : State) (k : Nat) : Nat :=
  let z := s.sk k
  pack [(0, z.press), (2, z.cipher), (4, b2n z.entropyOk), (5, z.pCache.length), (10, z.cCache.length), (15, s.pcBusy k 18),
        (19, s.pcBusy k 19)]

/-- POWER_STATUS (R503). -/
def Skein.powerStatus (z : Skein) : Nat :=
  pack [(0, z.allowance), (12, satBits 16 z.granted), (28, satBits 7 z.lent), (35, satBits 8 z.temp), (43, b2n z.soft),
        (44, b2n z.hard), (45, satBits 8 z.waiting.length), (53, z.railStep)]

/-- POWER_PLY_STEP (R503). -/
def State.plySteps (s : State) (k : Nat) : Nat :=
  pack ((List.range 20).map fun p => (4 * p, if (s.ply k p).step < 9 then (s.ply k p).step else 15))

/-- A probe's register (R286). -/
def Probe.reg (p : Probe) (o : Nat) : Nat :=
  match o with
  | 0x00 => p.ctl.toNat | 0x08 => p.mtch.toNat % 2 ^ 64 | 0x10 => p.mtch.toNat / 2 ^ 64
  | 0x18 => p.mask.toNat % 2 ^ 64 | 0x20 => p.mask.toNat / 2 ^ 64 | 0x28 => p.count | 0x30 => p.thresh.toNat | _ => 0

/-- A probe block and its trace buffer, from the offset of probe 0: the buffer lies at bufAt (R286). -/
def probeBlock (probes : Tbl Probe) (t : Trace) (bufAt o : Nat) : Nat :=
  if o < 0x800 then (tget {} probes (o / 0x40)).reg (o % 0x40)
  else if o = 0x800 then pack [(0, t.next), (12, b2n t.wrapped)]
  else if bufAt ≤ o ∧ o < bufAt + 0x10000 then
    let e := (tget 0 t.buf ((o - bufAt) / 16)).toNat
    if o % 16 = 0 then e % 2 ^ 64 else e / 2 ^ 64
  else 0

/-- A register of skein k's block (R211, R239, R286, R295, R420, R503). -/
def State.skeinReg (s : State) (k o : Nat) : Nat :=
  let z := s.sk k
  if o = 0x2000 then z.fastenStatus
  else if o = 0x4000 then z.cacheStatus
  else if 0x4100 ≤ o ∧ o < 0x41A0 then (s.ply k ((o - 0x4100) / 8)).cacheStatus
  else if o = 0x4200 then z.errLog.toNat
  else if o = 0x6000 then z.fabricStatus s.time
  else if 0x8000 ≤ o ∧ o < 0xA000 then probeBlock z.probes z.trace 0x10000 (o - 0x8000)
  else if o = 0xA000 then s.pcStatus k
  else if o = 0xC000 then z.powerStatus
  else if o = 0xC008 then s.plySteps k % 2 ^ 64
  else if o = 0xC010 then s.plySteps k / 2 ^ 64
  else if 0x10000 ≤ o ∧ o < 0x20000 then probeBlock z.probes z.trace 0x10000 o
  else 0

/-- HOME_STATUS (R266). -/
def State.homeStatus (s : State) (h : Nat) : Nat :=
  let x := s.homeOf h
  let mine := s.home.txns.filter fun t => homeSlice t.line == h
  let hub := min 32 (s.home.hubReqs.filter fun p => homeSlice p.line == h && topAge p).length
  pack [(0, mine.length), (12, x.topq.length + (mine.filter fun t => t.top).length + hub), (20, maskOf 12 fun k => (s.sk k).lost),
        (32, b2n x.sweep), (33, b2n x.recallOn)]

/-- HOME_ERR_LOG (R266). -/
def HomeLog.errLog (x : HomeLog) : Nat := pack [(0, x.set), (18, x.way), (23, b2n x.uncorr), (63, b2n x.valid)]

/-- FW_STATUS (R295). -/
def Site.status (x : Site) : Nat := pack [(0, x.state), (2, x.rate), (8, b2n x.x32), (32, x.viol)]

/-- MEM_CH_STATUS (R329). -/
def MemCh.status (m : MemCh) : Nat :=
  pack [(0, m.state), (3, b2n m.mirrored), (4, b2n m.partnerLost), (5, m.rate), (7, m.dimms), (9, b2n m.x8), (10, m.capacity)]

/-- MEM_SCRUB_STATUS (R329). -/
def State.scrubStatus (s : State) (c : Nat) : Nat :=
  let m := s.mch c
  pack [(0, satBits 32 m.lapS), (32, min 10000 (m.scrubAt * 10000 / max 1 (s.channelLines c))), (46, b2n m.late)]

/-- A register of channel c's block (R329). -/
def State.memReg (s : State) (c o : Nat) : Nat :=
  let m := s.mch c
  match o with
  | 0x00 => m.status | 0x08 => m.errLog.toNat | 0x10 => s.scrubStatus c | 0x20 => m.flipCtl.toNat | 0x28 => m.flip0.toNat
  | 0x30 => m.flip1.toNat | 0x38 => m.flipAddr.toNat | 0x40 => m.flipLast.toNat | _ => 0

/-- The ledger's entries that hold an operation. -/
def State.ledgerUsed (s : State) : List (Nat × Entry) := s.chan.ledger.filter fun e => e.2.st != .free
/-- LEDGER_STATUS (R365). -/
def State.ledgerStatus (s : State) : Nat :=
  pack [(0, s.ledgerUsed.length), (17, (s.ledgerUsed.filter fun e => e.2.st == .terminal).length), (34, b2n s.chan.accepting),
        (35, ((List.range 128).filter fun n => (s.engine n).state == 0).length)]
/-- CE_STATUS (R365). -/
def State.engineStatus (s : State) (n : Nat) : Nat :=
  let e := s.engine n
  pack [(0, e.state), (2, s.engineLoad n), (16, e.fw % 2 ^ 32), (48, satBits 16 e.resets)]

/-- FLEX_PORT_STATUS (R389). -/
def Flex.status (x : Flex) : Nat :=
  pack [(0, x.state), (3, x.rate), (6, x.width), (11, b2n x.cxl), (12, x.busFirst), (20, x.busLast), (28, satBits 20 x.refused),
        (48, satBits 16 x.contains)]
/-- RACK_PORT_STATUS (R389). -/
def Rack.status (x : Rack) : Nat := pack [(0, x.state), (3, x.width), (6, x.peer), (18, satBits 32 x.replays)]

/-- FAULT_STATUS (R447). -/
def State.faultStatus (s : State) : Nat :=
  let f := s.faults
  pack [(0, f.active.length), (11, b2n s.pins.errLow), (12, b2n s.pins.fatalLow), (13, b2n f.overflow), (14, f.deferred),
        (32, f.seq)]
/-- SNAP_STATUS (R447). -/
def State.snapStatus (s : State) : Nat :=
  let f := s.faults
  pack [(0, f.lastSlot), (2, b2n f.draining.isSome), (3, b2n f.pendSnap.isSome), (4, f.merged)]

/-- The sum of all keepers' granted totals, in thirty-seconds (R475). -/
def State.grantedTotal (s : State) : Nat := (allSkeins.map fun k => (s.sk k).granted).sum + s.power.hubGranted
/-- POWER_HUB_STATUS (R503). -/
def State.hubPower (s : State) : Nat :=
  let p := s.power
  pack [(0, p.hubAllow), (12, satBits 16 p.hubGranted), (28, satBits 7 p.reserve), (35, satBits 8 p.hubTemp), (43, b2n p.hubSoft),
        (44, b2n p.hubHard), (45, satBits 11 (s.grantedTotal / 32))]
/-- CLOCK_STATUS (R503). -/
def State.clockStatus (s : State) : Nat :=
  let p := s.power
  pack [(0, b2n p.refA), (1, b2n p.refB), (2, p.refSel), (4, s.param 0x1020 0), (6, b2n p.tally.locked),
        (32, wrapOf 32 p.tally.offset)]

/-- A register of the hub's blocks, by its offset from 0x2_0000_0000 (R39). -/
def State.hubReg (s : State) (o : Nat) : Nat :=
  let n := o % 0x1000000 / 0x1000
  let q := o % 0x1000
  match o / 0x1000000 with
  | 0x00 =>
    let h := o / 0x100000
    if 4 ≤ h then 0 else match o % 0x100000 with
      | 0 => s.homeStatus h | 8 => (s.homeOf h).errLog | _ => 0
  | 0x01 => if 2 ≤ n then 0 else match q with
    | 0 => (s.site n).status | 8 => (s.site n).log.toNat | 0x10 => (s.site n).addr.toNat | _ => 0
  | 0x02 => probeBlock s.fab.hubProbes s.fab.hubTrace 0x10000 (o - 0x2000000)
  | 0x04 => if 16 ≤ n then 0 else s.memReg n q
  | 0x05 =>
    let r := o - 0x5000000
    if r = 0 then s.ledgerStatus else if r = 8 then s.chan.ledgerLog.toNat
    else if 0x1000 ≤ r ∧ r < 0x1400 then s.engineStatus ((r - 0x1000) / 8) else 0
  | 0x06 => if n < 24 ∧ q = 0 then (s.flexP n).status else 0
  | 0x07 => if n < 12 ∧ q = 0 then (s.rack n).status else 0
  | 0x08 => (match o - 0x8000000 with
    | 0 => s.faultStatus | 0x10 => s.faults.suppressed | _ => 0)
  | 0x09 => (match o - 0x9000000 with
    | 0 => b2n s.faults.ctlBusy | 8 => s.snapStatus | _ => 0)
  | 0x0A => (match o - 0xA000000 with
    | 0 => s.hubPower | 0x10 => s.time | 0x18 => s.clockStatus | _ => 0)
  | _ => 0

/-- Word j of a response (R454): the header, then each field of RESULT in whole words (DESIGN CHOICE, log 32). -/
def Resp.word (r : Resp) (j : Nat) : Nat :=
  if j = 0 then pack [(0, r.code), (16, r.status), (32, r.seq % 2 ^ 32)] else ((r.res[j - 1]?).getD 0) % 2 ^ 64

/-- Word j of a notice (R458): TYPE and its number, the timebase, then each argument in a whole word (DESIGN CHOICE, log 32). -/
def Notice.word (n : Notice) (j : Nat) : Nat :=
  match j with
  | 0 => pack [(0, n.ty), (32, n.num)]
  | 1 => n.time
  | _ => ((n.args[j - 2]?).getD 0) % 2 ^ 64

/-- A register of a mailbox page (R451). -/
def Mbox.reg (m : Mbox) (o : Nat) : Nat :=
  if o < 0x200 then
    let k := o / 0x80
    if o % 0x80 < 0x40 then
      let g := (tget Cap.zero m.req (4 * k + o % 0x40 / 16)).bits.toNat
      if o % 16 = 0 then g % 2 ^ 64 else g / 2 ^ 64
    else (tget {} m.resp k).word (o % 0x40 / 8)
  else if o = 0x220 then
    pack [(0, m.busy.toNat), (4, m.respValid.toNat), (8, m.dropped), (24, satBits 16 m.held.length), (40, m.lost)]
  else if o = 0x228 then m.prod
  else if o = 0x230 then m.cons
  else if 0x400 ≤ o ∧ o < 0xC00 then (tget {} m.ring ((o - 0x400) / 0x40)).word (o % 0x40 / 8)
  else 0

/-- A register of a submission page (R334). -/
def Tenant.submitReg (t : Tenant) (o : Nat) : Nat :=
  match o with
  | 0x200 => maskOf 16 fun k => (tget Cap.zero t.slots k).tag
  | 0x208 => t.accepted | 0x210 => t.rejected | 0x218 => t.lastReject | 0x220 => t.unposted | _ => 0

/-- A register of a completion page (R356). -/
def State.ringReg (s : State) (pg o : Nat) : Nat :=
  match o with
  | 0x000 => (s.tenant pg).prod
  | 0x008 => (s.tenant pg).ringState
  | 0x010 => (s.pageSlots pg).length
  | 0x018 => ((s.pageSlots pg).filter fun e => e.2.st == .terminal).length
  | _ => 0

/-- PAGE_STATUS (R394). -/
def State.pageStatus (s : State) (pg : Nat) : Nat :=
  let t := s.tenant pg
  pack [(0, s.param 0x0D10 pg), (6, b2n t.frozen), (7, b2n (t.pHolder.isSome || t.cHolder.isSome)), (8, t.gen), (40, t.press.st),
        (42, t.cipher.st)]
/-- KEY_STATUS (R394, R397). -/
def Tenant.keyStatus (t : Tenant) : Nat :=
  let k0 := t.keySlot 0
  let k1 := t.keySlot 1
  let kcv (k : KeySlot) : Nat := if k.loaded then kcvOf k.bytes else 0
  pack [(0, b2n k0.loaded), (1, k0.len), (3, b2n k1.loaded), (4, k1.len), (8, kcv k0), (32, kcv k1)]
/-- A register of a press and cipher page (R394, R395): those from 0x180 as of the last completed fasten. -/
def State.pcReg (s : State) (pg o : Nat) : Nat :=
  let t := s.tenant pg
  match o with
  | 0x000 => s.pageStatus pg | 0x008 => t.pressCfg.toNat | 0x010 => t.cipherCfg.toNat
  | 0x018 => t.iv.toNat % 2 ^ 64 | 0x020 => t.iv.toNat / 2 ^ 64 | 0x050 => b2n t.hist.isSome | 0x148 => t.keyStatus
  | 0x180 => t.shP.inTot | 0x188 => t.shP.outTot | 0x190 => t.shP.check | 0x198 => t.shC.total
  | 0x1A0 => pack [(0, t.shP.code), (8, t.shC.code)]
  | _ => 0

/-- The 8-byte word at an aligned offset of reel register space, apart from configuration space (R39, R41). -/
def State.regWord (s : State) (o : Nat) : Nat :=
  if o = 0 then s.reelStatus
  else if between 0x10000 0x40FFF o then (s.mbox ((o - 0x10000) / 0x1000)).reg (o % 0x1000)
  else if between 0x1000000 0x1FFFFFF o then (s.tenant (o % 0x1000000 / 0x1000)).submitReg (o % 0x1000)
  else if between 0x2000000 0x2FFFFFF o then s.ringReg (o % 0x1000000 / 0x1000) (o % 0x1000)
  else if between 0x3000000 0x3FFFFFF o then s.pcReg (o % 0x1000000 / 0x1000) (o % 0x1000)
  else if between 0x100000000 0x1BFFFFFFF o then s.skeinReg ((o - 0x100000000) / 0x10000000) (o % 0x10000000)
  else if between 0x200000000 0x2FFFFFFFF o then s.hubReg (o - 0x200000000)
  else 0

/-- The n bytes at an offset of reel register space (R40): 4 bytes take their half of the word. -/
def State.regBytes (s : State) (o n : Nat) : Nat := s.regWord (o / 8 * 8) / 2 ^ (8 * (o % 8)) % 2 ^ (8 * n)

/-- The skein whose register block an offset lies in (R39). -/
def skeinBlock (o : Nat) : Option Nat :=
  if between 0x100000000 0x1BFFFFFFF o then some ((o - 0x100000000) / 0x10000000) else none

/-- An offset lies in PCIe configuration space (R39, R371). -/
def inConfigSpace (o : Nat) : Bool := between 0x300000000 0x30FFFFFFF o

end Sys2Proof.Machine
end

