-- ==== Sys2Proof/Machine/Mailboxes.lean ====
section
/-!
DEFINITION. How a mailbox request reaches Jalif (R451 to R456, R459): doorbells, the checks that every command shares, the
buffers that commands name, and NOTICE_CONS.
-/

namespace Sys2Proof.Machine

/-- The first word of MB_REQ k: CODE, FLAGS and SEQ (R454). -/
def Mbox.header (m : Mbox) (k : Nat) : Nat := (tget Cap.zero m.req (4 * k)).bits.toNat % 2 ^ 64

/-- The commands of the tables (R456). -/
def commandKnown (code : Nat) : Bool :=
  [0x01, 0x02, 0x10, 0x11, 0x12, 0x13, 0x14, 0x15, 0x18, 0x20, 0x21, 0x22, 0x23, 0x24, 0x25, 0x26, 0x27, 0x28, 0x29, 0x2A, 0x2B,
   0x30, 0x31, 0x32, 0x33, 0x40, 0x41, 0x42, 0x43, 0x44, 0x45, 0x48, 0x49, 0x50, 0x51, 0x52, 0x60, 0x61, 0x62, 0x63, 0x70,
   0x71].contains code

/-- Which mailbox may send a command (R456): any page's, partition 0's, or the BMC mailbox's alone. -/
inductive Who where
  | any | zero | bmc
deriving DecidableEq, Repr

/-- The mailbox that the table of a command names: the BMC mailbox acts with partition 0's authority (R456, R459). -/
def Who.admits (w : Who) (page : Nat) : Bool :=
  match w with
  | .any => true
  | .zero => page == 0 || page == 49
  | .bmc => page == 49

/-- The partition for which a mailbox acts (R456, R459). -/
def mbPart (mb : Mb) : Nat := if mb.page = 49 then 0 else mb.page

/-- Jalif answers the mailbox (R37, R459): in ROM, FILL and HALT only the BMC mailbox, and none after the loss of the hub die. -/
def State.mailboxLive (s : State) (page : Nat) : Bool :=
  if s.power.hubLost then false
  else match s.life with
  | .off => false
  | .rom | .fill | .halt => page == 49
  | _ => true

/-- The last response of a slot is written again, and nothing is performed (R452). -/
def State.repeatResp (s : State) (page k : Nat) : State :=
  let s1 := s.modMbox page fun m => { m with respValid := m.respValid ||| BitVec.ofNat 4 (2 ^ k) }
  if page = 49 then s1 else s1.notifyIntr 0x0F00 page 248

/-- The slot takes the request: RESP_VALID clears and BUSY is set (R452). -/
def State.ring1 (s : State) (page k seq : Nat) : State :=
  let bit : BitVec 4 := BitVec.ofNat 4 (2 ^ k)
  s.modMbox page fun m => { m with
    busy := m.busy ||| bit, respValid := m.respValid &&& ~~~bit, taken := m.taken &&& ~~~bit, bell := tset 0 m.bell k seq }

/-- A doorbell for a busy slot (R452): dropped and counted, with its fault. -/
def State.dropBell (s : State) (page : Nat) : State :=
  (s.modMbox page fun m => { m with dropped := satBits 16 (m.dropped + 1) }).raise 0x0B00 page

/-- A store to MB_DOORBELL k of a page (R452). -/
def State.doorbell (s : State) (page k : Nat) (w : Word) : State :=
  let m := s.mbox page
  let seq := bits w.toNat 0 32
  let h := m.header k
  if !s.mailboxLive page then s
  else if m.busy.getLsbD k then s.dropBell page
  else if bits h 32 32 ≠ seq then s.respond ⟨page, k, bits h 32 32⟩ (bits h 0 16) 4 []
  else if tget 0 m.lastSeq k = seq + 1 then s.repeatResp page k
  else
    let s1 := s.ring1 page k seq
    if commandKnown (bits h 0 16) then s1 else s1.respond ⟨page, k, seq⟩ (bits h 0 16) 1 []

/-- A command performed: the checks that every command shares (R454, R456), then its own work. -/
def State.perform1 (s : State) (mb : Mb) (code : Nat) (who : Who) (f : State → State) : State :=
  if !who.admits mb.page then s.respond mb code 2 []
  else if s.life = .halt ∧ code ≠ 0x45 ∧ code ≠ 0x02 ∧ code ≠ 0x60 then s.respond mb code 6 []
  else if mb.page ≠ 49 ∧ bits ((s.mbox mb.page).header mb.slot) 16 16 ≠ 0 then s.respond mb code 3 []
  else f s

/-- The command of a request (R452, R453): on a page, that of a slot whose doorbell was accepted with this SEQ and CODE and
that Jalif does not work on yet; on the BMC mailbox the message itself, which R452 treats as a doorbell. -/
def State.request (s : State) (mb : Mb) (code : Nat) (who : Who) (f : State → State) : State :=
  let m := s.mbox mb.page
  let mine := m.busy.getLsbD mb.slot && !m.taken.getLsbD mb.slot && tget 0 m.bell mb.slot == mb.seq
  if 49 < mb.page ∨ 4 ≤ mb.slot ∨ 2 ^ 32 ≤ mb.seq ∨ !s.mailboxLive mb.page then s
  else if mine && (mb.page == 49 || bits (m.header mb.slot) 0 16 == code) then s.perform1 mb code who f
  else if mb.page ≠ 49 then s
  else if m.busy.getLsbD mb.slot then s.dropBell 49
  else if tget 0 m.lastSeq mb.slot = mb.seq + 1 then s.repeatResp 49 mb.slot
  else (s.ring1 49 mb.slot mb.seq).perform1 mb code who f

/-- Jalif works on a long command, which is answered when its work completes (R453). -/
def State.taken (s : State) (mb : Mb) : State :=
  s.modMbox mb.page fun m => { m with taken := m.taken ||| BitVec.ofNat 4 (2 ^ mb.slot) }

/-- The buffer of a command lies in the committed local memory of the partition for which it acts; a payload needs none
(R454, R456, R459). -/
def State.bufOk (s : State) (mb : Mb) (b : Buf) : Bool :=
  mb.page == 49 || (decide (0 < b.len) && inRanges (s.partRanges (mbPart mb)) b.addr b.len && s.localRange b.addr b.len)

/-- Bytes written to a command's buffer, by a hub agent; false while a line waits (R186, R454). A payload carries them
instead on the BMC mailbox (R459). -/
def State.bufOut (s : State) (mb : Mb) (b : Buf) (xs : List Nat) : Bool × State :=
  if mb.page = 49 then (true, s) else s.hubWrite b.addr xs

/-- The bytes of a command's buffer as a hub agent reads them, with their poison; none while a line waits. -/
def State.bufIn (s : State) (mb : Mb) (b : Buf) (n : Nat) : Option (List Nat × Bool) × State :=
  if mb.page = 49 then (some ((ofBytes b.payload ++ List.replicate n 0).take n, false), s) else s.hubBytes b.addr n

/-- Bytes of a command's buffer, at most. -/
def bufSize (mb : Mb) (b : Buf) : Nat := if mb.page = 49 then b.payload.length else b.len

/-- The answer OK with bytes for the buffer; the command goes on while the write waits. -/
def State.answerOut (s : State) (mb : Mb) (code : Nat) (b : Buf) (xs : List Nat) (res : List Nat) : State :=
  match s.bufOut mb b xs with
  | (false, t) => t
  | (true, t) => t.respond mb code 0 res (if mb.page = 49 then toBytes xs else [])

/-- As many whole records of n bytes as a buffer holds (R456); a payload holds all of them. -/
def fitRecords (mb : Mb) (b : Buf) (n : Nat) (xs : List (List Nat)) : List (List Nat) :=
  if mb.page = 49 then xs else xs.take (b.len / n)

/-- Held notices are posted as room appears in the ring (R458). -/
def pumpNotices (page : Nat) : Nat → State → State
  | 0, s => s
  | n + 1, s =>
    let m := s.mbox page
    match m.held with
    | [] => s
    | x :: rest =>
      if m.room then
        pumpNotices page n ((s.modMbox page fun m => { m.push x with held := rest }).notifyIntr 0x0F00 page 248)
      else s

/-- A write of NOTICE_CONS (R458). -/
def State.noticeCons (s : State) (page : Nat) (w : Word) : State :=
  pumpNotices page 1024 (s.modMbox page fun m => { m with cons := w.toNat })

/-- NOTICE_CONS (R458). -/
def execNoticeCons (p : PartId) (w : Word) (s : State) : Host.Outcome State Fault Refusal := done (s.noticeCons p w)

end Sys2Proof.Machine
end

