-- ==== Sys2Proof/Machine/Snapshot.lean ====
section
/-!
DEFINITION. Snapshots (R440, R441, R445): what a tally pulse latches, and the bytes of a snapshot slot; and the configuration
digests (R467), which a snapshot and a census show.
-/

namespace Sys2Proof.Machine

/-- One bit shifted into a CRC-64 of the ECMA-182 polynomial. -/
def crc64Bit (c : Nat) : Nat := if c < 2 ^ 63 then 2 * c else (2 * c) % 2 ^ 64 ^^^ 0x42F0E1EBA9EA3693
/-- One byte taken into the CRC, the highest bit first (DEDUCED, log 36). -/
def crc64Byte (c b : Nat) : Nat := (List.range 8).foldl (fun c _ => crc64Bit c) (c ^^^ b * 2 ^ 56)
/-- CRC-64 with initial value and final XOR all ones (R467). -/
def crc64 (xs : List Nat) : Nat := xs.foldl crc64Byte (2 ^ 64 - 1) ^^^ (2 ^ 64 - 1)

/-- The staged parameters indexed by skein, and by ply of a skein (R210, R239, R419, R502). -/
def skeinIds : List (Nat × Bool) :=
  [(0x0600, false), (0x0601, false), (0x0605, false), (0x0700, true), (0x0702, false), (0x0705, true), (0x0706, false),
   (0x0707, true), (0x0708, false), (0x0D00, false), (0x0D01, false), (0x1001, false), (0x1002, false)]

/-- One committed value as a digest covers it (R467): ID in 2 bytes, index in 4, the value in whole bytes. -/
def digestBytes (params : Tbl Nat) (r : ParamRow) (idx : Nat) : List Nat :=
  leBytes 2 r.id ++ leBytes 4 idx ++ leBytes ((r.width + 7) / 8) (tget (paramDefault r.id idx) params (paramKey r.id idx))

/-- The digest of skein k (R467): its own parameters and those of its plies, then the draft VERSION and CRC of each ply
(log 36). -/
def skeinDigest (params : Tbl Nat) (drafts : List Nat) (crc k : Nat) : Nat :=
  let vals := skeinIds.flatMap fun e => match paramRow e.1 with
    | some r => (if e.2 then natsFrom (20 * k) 20 else [k]).flatMap (digestBytes params r)
    | none => []
  crc64 (vals ++ drafts.flatMap fun v => leBytes 4 v ++ leBytes 4 (if v = 0 then 0 else crc))

/-- The index names something: of the fault parameters, an assigned source, a block with sources, or a rung (R446, R460). -/
def paramIndexOk (r : ParamRow) (idx : Nat) : Bool :=
  decide (idx < r.count) && (match r.id with
    | 0x0E00 | 0x0E10 => sourceKnown idx
    | 0x0E01 | 0x0E02 => decide (0 < blockSources idx)
    | 0x0E03 => decide (0 < idx)
    | _ => true)

/-- The digest of the hub (R467): every other staged parameter. -/
def hubDigest (params : Tbl Nat) : Nat :=
  let mine := paramRows.filter fun r => r.staged && !(skeinIds.any fun e => e.1 == r.id)
  crc64 (mine.flatMap fun r => ((List.range r.count).filter (paramIndexOk r)).flatMap (digestBytes params r))

/-- The draft VERSION of each ply of skein k. -/
def State.drafts (s : State) (k : Nat) : List Nat := (List.range 20).map fun p => (s.ply k p).draftVersion

/-- The register-space offsets that a skein's section holds (R441). -/
def skeinSnapRegs (k : Nat) : List Nat :=
  [0x2000, 0x4000, 0x6000, 0xA000, 0xC000].map (0x100000000 + 0x10000000 * k + ·) ++
    (List.range 20).map (fun n => 0x100000000 + 0x10000000 * k + 0x4100 + 8 * n) ++
    (List.range 32).map (fun n => 0x100000000 + 0x10000000 * k + 0x8028 + 0x40 * n)

/-- The register-space offsets that the hub's section holds (R441). -/
def hubSnapRegs : List Nat :=
  [0] ++ (List.range 4).map (fun h => 0x200000000 + 0x100000 * h) ++ [0x205000000] ++
    (List.range 128).map (fun n => 0x205001000 + 8 * n) ++
    (List.range 16).flatMap (fun n => [0x204000000 + 0x1000 * n, 0x204000010 + 0x1000 * n]) ++
    (List.range 24).map (fun n => 0x206000000 + 0x1000 * n) ++ (List.range 12).map (fun n => 0x207000000 + 0x1000 * n) ++
    [0x201000000, 0x201001000, 0x208000000, 0x20A000000] ++ (List.range 32).map (fun n => 0x202000028 + 0x40 * n)

/-- What the pulse latches of a ply (R441). -/
def State.snapPly (s : State) (k p : Nat) : SnapPly :=
  { ply := 20 * k + p, state := (s.ply k p).state, draft := (s.ply k p).draftVersion,
    spins := (s.spindlesOn k p).map fun i =>
      let x := s.sp i
      { sp := i, ba := x.ba, mode := s.modeWord x, imask := x.arch.imask, depth := x.arch.loopDepth } }

/-- What the pulse latches (R440, R441): every status register of the admitted dies, before the commit takes effect (R25). -/
def State.latchSnap (s : State) (r : SnapReq) : Snap :=
  let ks := allSkeins.filter s.skeinUp
  { time := s.time, trigger := r.trigger, many := r.many, service := s.faults.service, source := r.source, seq := r.seq,
    dieMask := BitVec.ofNat 13 (maskOf 12 s.skeinUp + 2 ^ 12), life := s.life.code, gen := s.jalif.gen,
    regs := foldS (ks.flatMap skeinSnapRegs ++ hubSnapRegs) (fun o t => tset 0 t o (BitVec.ofNat 64 (s.regWord o))) [],
    epochs := allSkeins.map fun k => (s.sk k).committed,
    plies := ks.flatMap fun k => (List.range 20).map (s.snapPly k),
    groups := s.faults.groups, current := s.power.current, params := s.params, crc := s.jalif.draftCrc }

/-- The pulse of a scheduled snapshot (R440, R441): slots 0 to 2 in turn, slot 3 for a reel-fatal event, whose drain replaces
the ordinary one. -/
def State.snapPulse (s : State) : State :=
  match s.faults.pulseReq with
  | none => s
  | some r =>
    let f := s.faults
    let slot := if r.fatal then 3 else f.nextSlot
    let snap := s.latchSnap r
    s.modFaults fun f => { f with
      snaps := tins f.snaps slot snap, nextSlot := if r.fatal then f.nextSlot else (f.nextSlot + 1) % 3,
      draining := some slot, pulseReq := none }

/-- SNAPSHOT_DRAIN_COMPLETE (R441): the slot is complete, and the merged snapshot's pulse is scheduled. -/
def State.snapDrained (s : State) : State :=
  match s.faults.draining with
  | none => s
  | some slot => s.modFaults fun f => { f with
      snaps := tmod {} f.snaps slot fun x => { x with complete := true }, lastSlot := slot, draining := none,
      pulseReq := f.pulseReq <|> f.pendSnap, pendSnap := none,
      ctlBusy := match f.pulseReq <|> f.pendSnap with | some p => p.ctl | none => false }

/-- The skein to which a counting group belongs; none for the hub's (R441). -/
def groupDie (key : Nat) : Option Nat :=
  (skeinOfInstance (key / 65536 * 256) (key % 65536)).filter (· < 12)

/-- A counting group in a section: its key, COUNT and CARRY, START, and LAST (log 35). -/
def groupWords (key : Nat) (g : Group) : List Nat :=
  [pack [(0, key), (32, g.count), (48, b2n g.carry)], g.start, g.last]

/-- A per-ply record in a section (log 35): ply.state and the number of spindles, then two spindles with their registers; zero
outside Service mode when it is read (R445). -/
def SnapPly.words (x : SnapPly) (show_ : Bool) : List Nat :=
  let one (n : Nat) : List Nat := match x.spins[n]? with
    | some i => [i.sp, i.ba.toNat, i.mode.toNat, i.imask.toNat, i.depth]
    | none => [0, 0, 0, 0, 0]
  if show_ then [pack [(0, x.state), (8, x.spins.length)]] ++ one 0 ++ one 1 else List.replicate 11 0

/-- The words of a skein's section but for its digest, in the order of R441's table (log 35). -/
def Snap.skeinWords (x : Snap) (k : Nat) (show_ : Bool) : List Nat :=
  let base := 0x100000000 + 0x10000000 * k
  let reg (o : Nat) : Nat := (tget 0 x.regs (base + o)).toNat
  [reg 0x2000, (x.epochs[k]?).getD 0, reg 0x4000] ++ (List.range 20).map (fun n => reg (0x4100 + 8 * n)) ++
    [reg 0x6000, reg 0xA000] ++ (x.plies.filter fun p => p.ply / 20 == k).flatMap (fun p => p.words show_) ++ [reg 0xC000] ++
    (List.range 32).map (fun n => reg (0x8028 + 0x40 * n)) ++
    (x.groups.filter fun e => groupDie e.1 == some k).flatMap (fun e => groupWords e.1 e.2)

/-- The words of the hub's section but for the digests (log 35). -/
def Snap.hubWords (x : Snap) : List Nat :=
  hubSnapRegs.map (fun o => (tget 0 x.regs o).toNat) ++ (List.range 13).map (fun d => tget 0 x.current d) ++
    (x.groups.filter fun e => groupDie e.1 == none).flatMap (fun e => groupWords e.1 e.2)

/-- The digest of die d as the snapshot holds it (R441, R467). -/
def Snap.digest (x : Snap) (d : Nat) : Nat :=
  if d = 12 then hubDigest x.params
  else skeinDigest x.params ((x.plies.filter fun p => p.ply / 20 == d).map fun p => p.draft) x.crc d

/-- Word j of section d of a slot; an absent section reads as zero. -/
def Snap.sectionWord (x : Snap) (d j : Nat) (show_ : Bool) : Nat :=
  if !x.dieMask.getLsbD d then 0
  else
    let ws := if d = 12 then x.hubWords else x.skeinWords d show_
    if j < ws.length then (ws[j]?).getD 0
    else if d < 12 then (if j = ws.length then x.digest d else 0)
    else if j < ws.length + 13 then x.digest (j - ws.length) else 0

/-- The byte of a snapshot slot at an offset (R441), as a read with or without Service mode returns it (R445). -/
def Snap.byte (x : Snap) (show_ : Bool) (o : Nat) : Nat :=
  let w := if o < 0x40 then
      (match o / 8 with
      | 0 => x.time
      | 1 => pack [(0, x.trigger), (8, b2n x.complete + 2 * b2n x.many + 4 * b2n x.service), (16, x.source), (32, x.seq)]
      | 2 => pack [(0, x.dieMask.toNat), (16, x.life)]
      | 4 => x.gen
      | _ => 0)
    else if o < 0xD0040 then x.sectionWord ((o - 0x40) / 0x10000) ((o - 0x40) % 0x10000 / 8) show_
    else 0
  w / 2 ^ (8 * (o % 8)) % 256

end Sys2Proof.Machine
end

