-- ==== Sys2Proof/Machine/FaultCmd.lean ====
section
/-!
DEFINITION. The commands of the fault collector (R424 to R447): events, countdowns, acknowledgements, forced events,
snapshots, Service mode, and the reading of the logs.
-/

namespace Sys2Proof.Machine

/-- A corrected chunk or tag copy of an L2 or L3, at the line that DETAIL holds (log 94): noted in CACHE_ERR_LOG, a chunk counted
as well (R222, R239). -/
def State.cacheCorrected (s : State) (e : EventIn) : State :=
  let l := bits e.detail.toNat 7 45
  let l3 := decide (240 ≤ e.inst)
  let k := if l3 then e.inst - 240 else e.inst / 20
  let p := if l3 then 0 else e.inst % 20
  if 252 ≤ e.inst ∨ !s.skeinUp k then s
  else
    let s1 := s.logCache k p l (if l3 then 5 else 4) (s.skl k l).dirty false false
    if e.src ≠ 0x0301 then s1
    else if l3 then s1.modSk k fun z => { z with l3Corrected := satBits 32 (z.l3Corrected + 1) }
    else s1.modPly k p fun y => { y with corrected := satBits 28 (y.corrected + 1) }

/-- A corrected directory entry, at the line that DETAIL holds (log 94), written back and noted in HOME_ERR_LOG (R264, R266). -/
def State.homeCorrected (s : State) (e : EventIn) : State :=
  let l := bits e.detail.toNat 7 45
  if 4 ≤ e.inst then s
  else s.modHome e.inst fun x => { x with set := dirSet l, way := (s.dirOf l).way, uncorr := false, valid := true }

/-- The MRAM offset of a fault log record (R442, R443; DEDUCED, log 99: the ring is filled in order of SEQ). -/
def LogRec.place (r : LogRec) : Nat := 0x200000 + 32 * ((r.seq + 65535) % 65536)
/-- The MRAM offset of record n of the memory log, counted from 0 (R322, R442; log 99). -/
def memRecPlace (n : Nat) : Nat := 0x100000 + 16 * (n % 4096)
/-- The MRAM offset of record n of the reset log (R362, R442; log 99). -/
def resetRecPlace (n : Nat) : Nat := 0x800000 + 24 * n
/-- The MRAM word of 8 bytes at an offset touches the n bytes from a. -/
def wordIn (off a n : Nat) : Bool := decide (a < off / 8 * 8 + 8 ∧ off / 8 * 8 < a + n)

/-- An MRAM word that cannot be corrected marks the record or the slot in which it lies (R444); the next record or snapshot
written there is readable again. -/
def State.mramBad (s : State) (off : Nat) : State :=
  let mem := (s.mcs.memLog.zip (List.range 4096)).map fun (r, j) =>
    if wordIn off (memRecPlace (s.mcs.memCount - 1 - j)) 16 then { r with bad := true } else r
  let reset := (s.jalif.resetLog.zip (List.range s.jalif.resetLog.length)).map fun (r, j) =>
    if wordIn off (resetRecPlace j) 24 then { r with bad := true } else r
  let s1 := { s with mcs := { s.mcs with memLog := mem } }.modJalif fun j => { j with resetLog := reset }
  s1.modFaults fun f => { f with
    log := f.log.map fun r => if wordIn off r.place 32 then { r with bad := true } else r,
    snaps := f.snaps.map fun e => if wordIn off (0x400000 + 0x100000 * e.1) 0x100000 then (e.1, { e.2 with bad := true }) else e }

/-- What the block that corrected an error, or could not, does with it. -/
def State.corrected (s : State) (e : EventIn) : State :=
  if e.src = 0x0301 ∨ e.src = 0x0302 then s.cacheCorrected e else if e.src = 0x0400 then s.homeCorrected e
  else if e.src = 0x0708 then
    { s with chan := { s.chan with ledgerLog := BitVec.ofNat 64 (e.detail.toNat % 2 ^ 24 + 2 ^ 63) } }
  else if e.src = 0x0C04 then s.mramBad e.detail.toNat
  else s

/-- FAULT_EVENT (R426 to R430): an event of a numbered source, with what the block that raises it does of its own. -/
def execFaultEvent (e : EventIn) (s : State) : Host.Outcome State Fault Refusal :=
  done (if s.life = .off ∨ !sourceKnown e.src then s else (s.corrected e).collect e false 0)

/-- The active record of SEQ seq changed by f. -/
def State.modActive (s : State) (seq : Nat) (f : ActRec → ActRec) : State :=
  s.modFaults fun x => { x with active := x.active.map fun r => if r.seq = seq then f r else r }

/-- A countdown expires (R433): the next rung is applied, or the ladder is exhausted; an acknowledgement that came too late
for this countdown stops the one that follows (R435). -/
def State.countdown (s : State) (seq : Nat) : State :=
  match s.faults.active.find? fun r => r.seq == seq with
  | none => s
  | some r =>
    if r.next = 0 ∨ s.time < r.due then s
    else if r.next = 5 then (s.modActive seq fun r => { r with next := 0, due := 0 }).raise 0x0C08 0 r.spindle
    else
      let k := r.next
      let (n, due) := if r.acked then (0, 0) else s.nextCountdown r k
      let s1 := s.modActive seq fun r => { r with
        rung := k, next := n, due := due, cut := r.cut || k == 2,
        skein := if k = 3 then s.skeinTarget r.src r.inst r.spindle else r.skein }
      s1.applyRung r k

/-- COUNTDOWN_EXPIRE (R433). -/
def execCountdownExpire (seq : Nat) (s : State) : Host.Outcome State Fault Refusal := done (s.countdown seq)

/-- The active record that a partition may name by its SEQ (R435). -/
def State.recordFor (s : State) (part seq : Nat) : Option ActRec :=
  s.faults.active.find? fun r => r.seq == seq && (part == 0 || r.owner == part)

/-- An acknowledgement reaches the countdown hardware (R435): before the expiry it stops the countdown. -/
def State.ackRecord (s : State) (r : ActRec) : State :=
  s.modActive r.seq fun r => if s.time < r.due then { r with acked := true, next := 0, due := 0 } else { r with acked := true }

/-- FAULT_ACK (R435). -/
def execFaultAck (mb : Mb) (seq : Nat) (s : State) : Host.Outcome State Fault Refusal :=
  done (s.request mb 0x50 .any fun t => match t.recordFor (mbPart mb) seq with
    | none => t.respond mb 0x50 0x11 []
    | some r => (t.ackRecord r).respond mb 0x50 0 [])

/-- A record is cleared (R432, R435, R437, R443): its repeats are written to its log record, and ERR_N follows. -/
def State.clearRecord (s : State) (r : ActRec) : State :=
  (s.modFaults fun f => { f with
    active := f.active.filter fun x => x.seq != r.seq,
    log := f.log.map fun l => if l.seq = r.seq then { l with repeats := r.repeats } else l }).setErr

/-- FAULT_CLEAR (R435): its owner clears an urgent record, partition 0 a spindle-fatal or skein-fatal one, and only a reel
reset a reel-fatal one. -/
def execFaultClear (mb : Mb) (seq : Nat) (s : State) : Host.Outcome State Fault Refusal :=
  done (s.request mb 0x51 .any fun t => match t.recordFor (mbPart mb) seq with
    | none => t.respond mb 0x51 0x11 []
    | some r => if r.sev = 6 ∨ (4 ≤ r.sev ∧ mbPart mb ≠ 0) then t.respond mb 0x51 2 [] else (t.clearRecord r).respond mb 0x51 0 [])

/-- The n bytes of an entry at an MRAM offset that is marked unreadable (R444): free values. -/
def unreadable (off n : Nat) : List Nat := (List.range n).map fun j => (Config.unreadable off j).toNat

/-- A fault log record as it is read (R443 to R445): outside Service mode a ply record that names a spindle hides its ply. -/
def LogRec.bytes (r : LogRec) (service : Bool) : List Nat :=
  if r.bad then unreadable r.place 32 else
  let inst := if !service && r.src / 256 == 1 && r.spindle.isSome then 0xFFFF else r.inst
  leBytes 32 (pack [(0, r.time), (64, r.seq), (96, r.src), (112, inst % 2 ^ 16), (128, r.sev), (131, r.base), (134, b2n r.carry),
    (135, b2n r.forced), (136, r.owner), (142, r.spindle.getD 0), (151, b2n r.spindle.isSome),
    (152, if r.src = 0x0C07 then r.rung else 0), (155, b2n (r.sev == 2)), (156, b2n r.overflow), (157, r.repeats),
    (192, r.detail.toNat)])

/-- The fault log from a SEQ on, the oldest first. -/
def State.logFrom (s : State) (first : Nat) : List LogRec := s.faults.log.reverse.filter fun r => decide (first ≤ r.seq)

/-- FAULT_READ (R444, R445, R456): the records that the partition owns, from a SEQ on, into its buffer. -/
def execFaultRead (mb : Mb) (buf : Buf) (first count : Nat) (s : State) : Host.Outcome State Fault Refusal :=
  done (s.request mb 0x52 .any fun t =>
    if !t.bufOk mb buf then t.respond mb 0x52 0x19 []
    else
      let mine := ((t.logFrom first).filter fun r => r.owner == mbPart mb).take count
      let recs := fitRecords mb buf 32 (mine.map fun r => r.bytes t.faults.service)
      let next := if recs.length = 0 then first else ((mine[recs.length - 1]?).map fun r => r.seq + 1).getD first
      t.answerOut mb 0x52 buf recs.flatten [recs.length, next])

/-- A memory log record at an MRAM offset, 16 bytes (R322, R444). -/
def MemRec.bytes (r : MemRec) (off : Nat) : List Nat :=
  if r.bad then unreadable off 16 else leBytes 16 (pack [(0, r.time), (64, r.line), (109, r.ch), (113, r.pos), (118, r.kind), (122, b2n r.reserve), (123, r.dimm)])

/-- A reset log record at an MRAM offset, 24 bytes (R362, R444). -/
def ResetRec.bytes (r : ResetRec) (off : Nat) : List Nat := if r.bad then unreadable off 24 else leBytes 24 (pack [(0, r.tag), (48, r.st.code), (64, r.token.toNat), (128, r.tenant)])

/-- The entries of a log from start on, at most count of them, each marked unreadable or not and as bytes (R444): start is a SEQ of
the fault log, else a position from the oldest entry, and a snapshot slot's entries are its bytes (DESIGN CHOICE, log 33). -/
def State.logEntries (s : State) (log slot start count : Nat) : List (Bool × List Nat) :=
  let first := s.mcs.memCount - s.mcs.memLog.length + start
  match log with
  | 0 => ((s.logFrom start).take count).map fun r => (r.bad, r.bytes s.faults.service)
  | 1 => (((s.mcs.memLog.reverse.drop start).take count).zip (natsFrom first count)).map fun (r, n) => (r.bad, r.bytes (memRecPlace n))
  | 2 => (((s.jalif.resetLog.drop start).take count).zip (natsFrom start count)).map fun (r, n) => (r.bad, r.bytes (resetRecPlace n))
  | _ => match s.faults.snaps.find? fun e => e.1 == slot with
    | some e => (natsFrom start (min count (2 ^ 20 - start))).map fun o =>
        (e.2.bad, [if e.2.bad then (Config.unreadable (0x400000 + 0x100000 * slot) o).toNat else e.2.byte s.faults.service o])
    | none => []

/-- The bytes of one entry of a log. -/
def logEntrySize (log : Nat) : Nat := match log with | 0 => 32 | 1 => 16 | 2 => 24 | _ => 1

/-- LOG_READ (R37, R444, R445, R456). -/
def execLogRead (mb : Mb) (log slot start count : Nat) (buf : Buf) (s : State) : Host.Outcome State Fault Refusal :=
  done (s.request mb 0x45 .zero fun t =>
    if 3 < log ∨ (log = 3 ∧ 3 < slot) then t.respond mb 0x45 3 []
    else if !t.bufOk mb buf then t.respond mb 0x45 0x19 []
    else
      let es := t.logEntries log slot start count
      let recs := fitRecords mb buf (logEntrySize log) (es.map fun e => e.2)
      t.answerOut mb 0x45 buf recs.flatten [recs.length, ((es.take recs.length).filter fun e => e.1).length])

/-- FAULT_FORCE (R439, R447): in Service mode, REPEAT events of an assigned source, all with one stamp, each FORCED. -/
def State.faultForce (s : State) (w : Word) : State :=
  let n := w.toNat
  let e : EventIn := { src := bits n 0 16, inst := bits n 16 16,
                       spindle := if bitAt n 41 ∧ bits n 32 9 < 480 then some (bits n 32 9) else none, detail := 0 }
  if !s.faults.service ∨ !sourceKnown e.src then s
  else foldS (List.range (max 1 (bits n 48 16))) (fun _ t =>
    { t with freeCtr := t.freeCtr + 1 }.collect { e with detail := Config.faultDetail e.src t.freeCtr } true 0) s

/-- FAULT_FORCE (R439). -/
def execFaultForce (w : Word) (s : State) : Host.Outcome State Fault Refusal := done (s.faultForce w)

/-- FAULT_CARRY_CLR (R431, R447): the carry of a group, or of every instance of a block. -/
def State.carryClear (s : State) (w : Word) : State :=
  let n := w.toNat
  let block := bits n 0 8
  let inst := bits n 8 16
  let quiet (g : Tbl Group) (k : Nat) : Tbl Group := tmod {} g k fun x => { x with carry := false }
  let keys (g : Tbl Group) : List Nat := (g.filter fun e => e.1 / 65536 == block).map fun e => e.1
  s.modFaults fun f =>
    let g := if bitAt n 24 then (keys f.groups).foldl quiet f.groups else quiet f.groups (65536 * block + inst)
    { f with groups := g }

/-- FAULT_CARRY_CLR (R431). -/
def execFaultCarryClr (w : Word) (s : State) : Host.Outcome State Fault Refusal := done (s.carryClear w)

/-- A write of SNAP_CTL (R440, R447). -/
def State.snapCtl (s : State) (w : Word) : State :=
  if w.getLsbD 0 then (s.requestSnap 1 0 0).modFaults fun f => { f with ctlBusy := true } else s

/-- SNAP_TRIGGER (R440). -/
def execSnapTrigger (w : Word) (s : State) : Host.Outcome State Fault Refusal := done (s.snapCtl w)

/-- The slot that a snapshot asked for now will take (R441). -/
def State.nextSnapSlot (s : State) : Nat :=
  match s.faults.pulseReq with
  | some r => if r.fatal then 3 else s.faults.nextSlot
  | none => s.faults.nextSlot

/-- SNAPSHOT (R440, R456): the answer names the slot. -/
def execSnapshot (mb : Mb) (s : State) : Host.Outcome State Fault Refusal :=
  done (s.request mb 0x44 .zero fun t => (t.requestSnap 0 0 0).respond mb 0x44 0 [t.nextSnapSlot])

/-- SNAPSHOT_DRAIN_COMPLETE (R441). -/
def execSnapshotDrainComplete (s : State) : Host.Outcome State Fault Refusal := done s.snapDrained

/-- LOG_SECOND_BOUNDARY (R443). -/
def execLogSecondBoundary (s : State) : Host.Outcome State Fault Refusal := done s.rollSecond

/-- SERVICE_ENTER (R438): the mode lasts from the answer. -/
def execServiceEnter (mb : Mb) (s : State) : Host.Outcome State Fault Refusal :=
  done (s.request mb 0x40 .zero fun t =>
    (t.modFaults fun f => { f with service := true, serviceAt := if f.service then f.serviceAt else t.time }).respond mb 0x40 0 [])

/-- The data entries of a trace buffer are zeroed (R286, R438). -/
def Trace.blank (t : Trace) : Trace :=
  { t with buf := t.buf.filter fun e => !tget false t.isData e.1, isData := [] }

/-- Service mode ends (R318, R438): every flip-mask is disarmed, the trace data is zeroed, injections still to make are
rejected. -/
def State.serviceEnd (s : State) : State :=
  let s1 := foldS (List.range 16) (fun c t => t.modMch c fun m => { m with flipCtl := m.flipCtl &&& ~~~(1 : Word) }) s
  let s2 := foldS (List.range 13) (fun d t => t.modTrace d Trace.blank) s1
  let s3 := foldS (List.range 240) (fun n t => t.modPly (n / 20) (n % 20) fun y => { y with inject := 0 }) s2
  s3.modFaults fun f => { f with service := false }

/-- SERVICE_EXIT (R438). -/
def execServiceExit (mb : Mb) (s : State) : Host.Outcome State Fault Refusal :=
  done (s.request mb 0x41 .zero fun t => t.serviceEnd.respond mb 0x41 0 [])

/-- SERVICE_LIMIT_EXPIRE (R438). -/
def execServiceLimitExpire (s : State) : Host.Outcome State Fault Refusal :=
  done (if s.faults.service ∧ s.faults.serviceAt + s.param 0x0E06 0 * 1000000000 ≤ s.time then s.serviceEnd else s)

/-- JALIF_MISMATCH (R425): a third within 1 ms is reel-fatal. -/
def execJalifMismatch (s : State) : Host.Outcome State Fault Refusal :=
  done (if s.life = .off then s
    else
      let recent := (s.jalif.mism.filter fun t => decide (s.time < t + 1000000)) ++ [s.time]
      (s.modJalif fun j => { j with mism := recent }).raise (if recent.length < 3 then 0x0C01 else 0x0C02) 0)

/-- JALIF_WATCHDOG_EXPIRE (R425). -/
def execJalifWatchdogExpire (s : State) : Host.Outcome State Fault Refusal :=
  done (if s.life = .off then s else s.raise 0x0C02 0)

/-- HUB_COMPARE_MISMATCH (R425): reel-fatal whichever control block disagrees. -/
def execHubCompareMismatch (_block : Nat) (s : State) : Host.Outcome State Fault Refusal :=
  done (if s.life = .off then s else s.raise 0x0C00 0)

end Sys2Proof.Machine
end

