-- ==== Sys2Proof/Machine/ParamCmd.lean ====
section
/-!
DEFINITION. Reading parameters (R456, R460, R461): the effective value of every parameter of the reel, PARAM_READ and
REEL_INFO.
-/

namespace Sys2Proof.Machine

/-- The operation block that an entry copies (R331, R341). -/
def Entry.block (e : Entry) : Nat :=
  pack [(0, 1), (16, e.tenant), (32, e.part), (40, e.segs.length), (48, e.device), (64, e.op), (72, e.flags), (96, e.timeoutMs),
        (128, e.devaddr.toNat), (256, e.devcmd.toNat)]
/-- A segment in an entry (R341). -/
def Seg.word (g : Seg) : Nat :=
  pack [(0, g.off), (44, g.base), (96, g.len)]
/-- The 2,048 bits of a ledger entry (R341); bits [95:44] of a segment hold its resolved base, so SLOT, SKIP and LANE are not in
the copy. -/
def Entry.image (e : Entry) : Nat :=
  pack ([(0, e.tag), (48, e.st.code), (52, b2n e.idem), (53, b2n e.cancel), (54, e.redrives), (64, e.token.toNat),
    (128, e.tenant), (140, e.part), (146, e.device), (158, e.engine), (165, e.path), (167, e.tried.toNat), (192, e.issueTime),
    (256, e.done), (320, e.detail), (336, e.cls), (352, e.residual), (384, e.devstatus.toNat), (512, e.block)] ++
    (List.range 8).map fun k => (1024 + 128 * k, match e.segs[k]? with | some g => g.word | none => 0))

/-- A directory entry's two words (R244). -/
def State.dirImage (s : State) (l : Nat) : Nat :=
  let d := s.dirOf l
  pack [(0, l), (45, d.state), (48, d.owner), (52, d.sharers.toNat), (64, b2n (s.home.txns.any fun t => t.line == l)),
        (65, b2n d.journaled), (66, b2n d.resv), (67, d.way)]

/-- mem.locate of a physical address (R328): channel and DIMM, the rest of the place being free; 0 outside local memory. -/
def State.locateParam (s : State) (a : Nat) : Nat :=
  if s.installed ≤ a then 0
  else
    let (cs, off) := s.locate a
    let c := cs.headD 0
    pack [(0, c), (4, s.dimmOf c (off / 128)), (5, Config.locate c off % 2 ^ 38), (63, 1)]

/-- ply.host of a spindle (R174). -/
def State.hostParam (s : State) (i : Nat) : Nat :=
  match (s.sp i).host with
  | some h => pack [(0, h.skein), (4, h.ply), (9, h.fibre), (10, b2n (s.sk h.skein).split), (15, 1)]
  | none => 0

/-- The check value of a migration key (R397, R461). -/
def KeySlot.kcvParam (k : KeySlot) : Nat := if k.loaded then pack [(0, kcvOf k.bytes), (31, 1)] else 0

/-- reel.boot_record_version, and the numbers that the boot record gives. -/
def State.bootParam (s : State) (id idx : Nat) : Nat :=
  match id with
  | 0x0002 => s.jalif.boot.number
  | 0x0005 => s.jalif.boot.version
  | 0x0A00 => s.mcs.interleave
  | 0x0A01 => b2n (s.mch (4 * idx)).mirrored
  | 0x0C00 => tget 0 s.jalif.boot.flex idx
  | _ => 0

/-- power.domain_state: 0 off, 1 on, 2 waiting for beads, 3 draining, 4 fenced, 5 failed (R477, R502). -/
def State.domainCode (s : State) (n : Nat) : Nat :=
  let k := n / 26
  let j := n % 26
  let shown (key on : Nat) : Nat := match (s.fence key).st with | 0 => on | 1 => 3 | _ => 4
  if 312 ≤ n then
    let v := s.domainState n
    if v ≠ 1 then v
    else if between 320 335 n then shown (256 + (n - 320)) v
    else if between 358 359 n then shown (16 + (n - 358)) v
    else v
  else if j < 20 then
    let y := s.ply k j
    if y.step < 9 then shown (plyKey k j) (shown k 1)
    else if y.wantStep < 9 ∨ (s.sk k).waiting.any (fun r => r.what == .ply k j) then 2
    else if y.state = 3 then 5 else 0
  else if j < 24 then shown (sliceKey k (j - 20)) (shown k (b2n (s.skeinUp k)))
  else shown k (b2n (s.skeinUp k))

/-- The effective value of a parameter that STAGE does not change; the committed value of any other (R461). -/
def State.paramValue (s : State) (id idx : Nat) : Nat :=
  match id with
  | 0x0001 => s.life.code
  | 0x0002 | 0x0005 | 0x0A00 | 0x0A01 | 0x0C00 => s.bootParam id idx
  | 0x0003 => s.jalif.gen
  | 0x0004 => s.jalif.fwRun
  | 0x0104 => tget 0 s.jalif.partState idx
  | 0x0510 => s.hostParam idx
  | 0x0511 => (s.ply (idx / 20) (idx % 20)).state
  | 0x0512 => (s.ply (idx / 20) (idx % 20)).retryTotal
  | 0x0513 => (s.ply (idx / 20) (idx % 20)).cmpMask.toNat
  | 0x0514 => (s.ply (idx / 20) (idx % 20)).draftVersion
  | 0x0515 => s.jalif.draftVer
  | 0x0610 => (s.sk idx).committed
  | 0x0611 => (s.sk idx).fastens
  | 0x0612 => (s.sk idx).forced
  | 0x0613 => (s.sk idx).spills
  | 0x0614 => (s.sk idx).pair
  | 0x0615 => b2n (s.sp idx).suspended
  | 0x0710 => (s.ply (idx / 20) (idx % 20)).corrected
  | 0x0711 => (s.sk idx).l3Corrected
  | 0x0810 => (s.homeOf idx).nacks
  | 0x0811 => (s.homeOf idx).recalls
  | 0x0812 => (s.homeOf idx).tops
  | 0x0813 => s.dirImage (idx % 2 ^ 45)
  | 0x0910 => (s.sk idx).hubMask.toNat
  | 0x0911 => (s.sk idx).hubWidth
  | 0x0912 => (s.sk idx).buddyWidth
  | 0x0914 => (s.sk idx).replayTot
  | 0x0948 => (s.site idx).late
  | 0x0A02 => s.installed
  | 0x0A10 => (s.mch idx).corrected
  | 0x0A11 => (s.mch idx).lapS
  | 0x0A12 => s.locateParam idx
  | 0x0A13 => s.mcs.retired.length
  | 0x0B10 => (s.tenant idx).accepted
  | 0x0B11 => (s.device idx).redrives
  | 0x0B12 => (s.device idx).unknown
  | 0x0B13 => (s.engine idx).state
  | 0x0B14 => (s.entry idx).image
  | 0x0B15 => (s.device idx).late
  | 0x0B16 => (s.tenant idx).cancelIgn
  | 0x0C45 => s.jalif.incarnation
  | 0x0C46 => s.links.dedup.length
  | 0x0D11 => (s.tenant idx).gen
  | 0x0D13 => s.jalif.restored.length
  | 0x0E10 => tget 0 s.faults.counts idx
  | 0x0E11 =>
    let g := tget {} s.faults.groups idx
    pack [(0, g.count), (16, b2n g.carry), (32, g.start / 1000 % 2 ^ 32)]
  | 0x0F02 => (tget {} s.jalif.keys idx).kcvParam
  | 0x1010 => s.domainCode idx
  | 0x1011 => if idx = 13 then 0 else s.grantedAt idx
  | 0x1012 => if idx < 12 then (s.sk idx).lent else if idx = 12 then s.power.hubLent else 0
  | 0x1013 => if idx < 12 then (s.sk idx).temp else s.power.hubTemp
  | 0x1014 => tget 0 s.power.current idx
  | 0x1023 => wrapOf 32 s.power.tally.offset
  | 0x1024 => if idx < 12 then (s.sk idx).resetLast else s.power.hubResetLast
  | _ => s.param id idx

/-- The value that waits for the next reset (R461). -/
def State.pendingParam (s : State) (id idx : Nat) : Option Nat :=
  (s.jalif.pendReset.find? fun v => v.id == id && v.idx == idx).map fun v => v.val

/-- A partition other than 0 may read the parameter (R456): the reel group, and what is indexed by itself, its spindles, its
tenant pages and its devices. -/
def State.mayRead (s : State) (part id idx : Nat) : Bool :=
  part == 0 || decide (id < 0x100) ||
  ([0x0100, 0x0102, 0x0104, 0x0105, 0x0B01, 0x0B02, 0x0946, 0x0E04, 0x0F00].contains id && idx == part) ||
  ((id == 0x0101 || id == 0x0945) && idx / 16 == part) ||
  ([0x0103, 0x0510, 0x0615].contains id && s.param 0x0103 idx == part) ||
  ([0x0B00, 0x0B05, 0x0B06, 0x0B07, 0x0B10, 0x0B16, 0x0D10, 0x0D11].contains id && s.param 0x0D10 idx == part) ||
  ([0x0B03, 0x0B11, 0x0B12, 0x0B15].contains id && bits (s.param 0x0B03 idx) 2 6 == part) ||
  (id == 0x0B04 && bits (s.param 0x0B03 (idx / 4)) 2 6 == part)

/-- PARAM_READ (R456, R460, R461): WIDTH, 32 value bytes from OFFSET, PENDING and the value that waits. -/
def execParamRead (mb : Mb) (id idx off : Nat) (s : State) : Host.Outcome State Fault Refusal :=
  done (s.request mb 0x01 .any fun t => match paramRow id with
    | none => t.respond mb 0x01 7 []
    | some r =>
      if !paramIndexOk r idx then t.respond mb 0x01 7 []
      else if !t.mayRead (mbPart mb) id idx then t.respond mb 0x01 2 []
      else if r.service && !t.faults.service then t.respond mb 0x01 5 []
      else if off ≠ 0 ∧ r.width ≤ 8 * off then t.respond mb 0x01 3 []
      else
        let v := t.paramValue id idx / 2 ^ (8 * off)
        let p := t.pendingParam id idx
        t.respond mb 0x01 0 [r.width, v % 2 ^ 64, v / 2 ^ 64 % 2 ^ 64, v / 2 ^ 128 % 2 ^ 64, v / 2 ^ 192 % 2 ^ 64,
          b2n p.isSome, p.getD 0])

/-- REEL_INFO (R456). -/
def execReelInfo (mb : Mb) (s : State) : Host.Outcome State Fault Refusal :=
  done (s.request mb 0x02 .any fun t =>
    t.respond mb 0x02 0 [t.jalif.boot.number, t.life.code, t.jalif.fwRun, t.jalif.draftVer, t.jalif.gen])

end Sys2Proof.Machine
end

