-- ==== Sys2Proof/Machine/Check.lean ====
section
/-!
DEFINITION. The rules of CHECK (R464) and those that the owning chapters add (R28, R235, R236, R290, R323, R343, R364, R368,
R386, R387, R446, R486). A rule is the list of the parameters at fault, each as ID and index.
-/

namespace Sys2Proof.Machine

/-- The listed values of a parameter: index and value. -/
def State.listed (s : State) (id : Nat) : List (Nat × Nat) :=
  s.params.filterMap fun e => if e.1 / 2 ^ 64 = id then some (e.1 % 2 ^ 64, e.2) else none

/-- The indices of a parameter whose listed value satisfies bad, each with the ID. -/
def State.faultsOf (s : State) (id : Nat) (bad : Nat → Nat → Bool) : List (Nat × Nat) :=
  ((s.listed id).filter fun e => bad e.1 e.2).map fun e => (id, e.1)

/-- A copy of the configuration with the staged values applied (R464). -/
def State.withStaged (s : State) (vs : List Staged) : State := foldS vs (fun v t => t.setParam v.id v.idx v.val) s

/-- The partition exists in the configuration (R461). -/
def State.partExists (c : State) (p : Nat) : Bool := c.param 0x0100 p != 0

/-- Rule 1: partition 0 exists, with a spindle and a memory range. -/
def State.checkZero (c : State) : List (Nat × Nat) :=
  (if c.partExists 0 then [] else [(0x0100, 0)]) ++ (if (c.partRanges 0).isEmpty then [(0x0101, 0)] else []) ++
    (if (c.listed 0x0103).any (fun e => e.2 == 0) then [] else [(0x0103, 0)])

/-- The partition by which a parameter is indexed. -/
def paramPart (id idx : Nat) : Option Nat :=
  if [0x0100, 0x0102, 0x0105, 0x0B01, 0x0B02, 0x0946, 0x0E04, 0x0F00].contains id then some idx
  else if id = 0x0101 ∨ id = 0x0945 then some (idx / 16) else none
/-- The tenant page by which a parameter is indexed. -/
def paramPage (id idx : Nat) : Option Nat := if [0x0B00, 0x0B05, 0x0B06, 0x0B07, 0x0D10].contains id then some idx else none

/-- Rule 2: what is indexed by a frozen partition or tenant page is unchanged, unless the set deletes the partition. -/
def State.checkFrozen (s c : State) (vs : List Staged) : List (Nat × Nat) :=
  (vs.filter fun v =>
    let part := match paramPart v.id v.idx with
      | some p => tget 0 s.jalif.partState p == 3 && c.partExists p
      | none => false
    let page := match paramPage v.id v.idx with
      | some g => (s.tenant g).frozen && c.partExists (s.pagePart g)
      | none => false
    (part || page) && s.param v.id v.idx != v.val).map fun v => (v.id, v.idx)

/-- The seal types of two partitions meet. -/
def sealsMeet (v w : Nat) : Bool :=
  decide (bits v 0 12 < bits w 0 12 + bits w 12 12) && decide (bits w 0 12 < bits v 0 12 + bits v 12 12)

/-- Rule 3: a spindle, tenant page, device and seal type belongs to at most one partition, which exists. -/
def State.checkOwners (c : State) : List (Nat × Nat) :=
  let seals := (c.listed 0x0105).filter fun e => c.partExists e.1 && bits e.2 12 12 != 0
  (c.faultsOf 0x0103 fun _ v => v != 63 && !c.partExists v) ++
  (seals.filter fun e => seals.any fun f => decide (f.1 < e.1) && sealsMeet e.2 f.2).map (fun e => (0x0105, e.1)) ++
  (c.faultsOf 0x0B03 fun _ v => bits v 0 2 != 0 && !c.partExists (bits v 2 6)) ++
  (c.faultsOf 0x0D10 fun _ v => v != 0 && !c.partExists v)

/-- A range of memory of the configuration: installed local memory, or committed CXL ranges (R464). -/
def State.rangeInstalled (c : State) (a n : Nat) : Bool := n == 0 || decide (a + n ≤ c.installed) || decide (a + n ≤ c.cxlReach 16 a)

/-- Two memory ranges overlap. -/
def rangesMeet (v w : Nat) : Bool :=
  decide (bits v 0 31 < bits w 0 31 + bits w 31 31) && decide (bits w 0 31 < bits v 0 31 + bits v 31 31)

/-- Rule 4: memory ranges are installed; those of different partitions overlap only where both are SHARED or one belongs to
partition 0. -/
def State.checkRanges (c : State) : List (Nat × Nat) :=
  let rs := (c.listed 0x0101).filter fun e => bitAt e.2 63 && c.partExists (e.1 / 16)
  (rs.filter fun e => !c.rangeInstalled (bits e.2 0 31 * 2 ^ 21) (bits e.2 31 31 * 2 ^ 21) ||
    (16 ≤ e.1 && rs.any fun f => decide (f.1 / 16 < e.1 / 16) && decide (16 ≤ f.1) && rangesMeet e.2 f.2 &&
      !(bitAt e.2 62 && bitAt f.2 62))).map fun e => (0x0101, e.1)

/-- The paths of a rack endpoint name one remote reel and endpoint (R343). -/
def State.rackPathsDiffer (c : State) (d : Nat) : Bool :=
  let ps := (List.range 4).filterMap fun p =>
    let v := c.param 0x0B04 (4 * d + p)
    if bitAt v 63 then some (bits v 8 12, bits v 24 16) else none
  match ps with
  | [] => false
  | x :: rest => rest.any fun y => y != x

/-- Rule 5: the modes of R28, R235 and R236, and the paths of rack endpoints (R343). -/
def State.checkModes (c : State) : List (Nat × Nat) :=
  let loose (k : Nat) : Bool := c.param 0x0601 k == 1
  ((List.range 6).filter fun n => loose (2 * n) != loose (2 * n + 1)).map (fun n => (0x0601, 2 * n)) ++
  (allSkeins.filter fun k => c.param 0x0706 k == 0 && !loose k).map (fun k => (0x0706, k)) ++
  (c.faultsOf 0x0707 fun _ v => decide (popCount 16 v < 4)) ++
  (allSkeins.filter fun k =>
    let v := c.param 0x0708 k
    if loose k then decide (popCount 16 v < 4) else decide (popCount 12 v < 4) || bits v 12 4 != 15).map (fun k => (0x0708, k)) ++
  (c.faultsOf 0x0B03 fun d v => bits v 0 2 == 3 && c.rackPathsDiffer d).map fun e => (0x0B04, 4 * e.2)

/-- A range lies in a partition's committed memory. -/
def State.partHolds (c : State) (p a n : Nat) : Bool := c.partExists p && inRanges (c.partRanges p) a n
/-- A range lies in a partition's committed local memory (R364, R387). -/
def State.partHoldsLocal (c : State) (p a n : Nat) : Bool := c.partHolds p a n && decide (a + n ≤ c.installed)

/-- A notification names a spindle of the partition, where it names one (R364, R387). -/
def State.notifyOk (c : State) (p v : Nat) : Bool := bits v 0 2 != 1 || c.param 0x0103 (bits v 10 9) == p

/-- A range lies in the committed local memory of the partition of endpoint n (R387). -/
def State.endpointHolds (c : State) (n a b : Nat) : Bool := (c.endpointCfg n).any fun e => c.partHoldsLocal e.part a b

/-- Two CXL ranges overlap (R323). -/
def cxlMeet (v w : Nat) : Bool :=
  decide (bits v 0 14 < bits w 0 14 + bits w 14 15) && decide (bits w 0 14 < bits v 0 14 + bits v 14 15)

/-- Rule 6, for rings, doorbells and notify spindles of tenant pages, paths and partitions (R364, R368, R446). -/
def State.checkChannel (c : State) : List (Nat × Nat) :=
  (c.faultsOf 0x0B04 fun _ v => bitAt v 63 && decide (bits v 0 8 < 32) && !c.flexExists (bits v 0 8)) ++
  (c.faultsOf 0x0B05 fun g v => bitAt v 63 && !(c.pagePart g != 0 &&
    c.partHoldsLocal (c.pagePart g) (bits v 12 40 * 4096) (128 + 32 * 2 ^ bits v 52 5))) ++
  (c.faultsOf 0x0B06 fun g v => !c.notifyOk (c.pagePart g) v) ++
  (c.faultsOf 0x0B07 fun g v => bitAt v 63 && !(c.pagePart g != 0 && c.partHoldsLocal (c.pagePart g) (bits v 3 49 * 8) 8)) ++
  (c.faultsOf 0x0E04 fun p v => bitAt v 15 && c.partExists p && c.param 0x0103 (bits v 0 9) != p) ++
  (c.faultsOf 0x0F00 fun p v => bitAt v 15 && c.partExists p && c.param 0x0103 (bits v 0 9) != p)

/-- Rule 6, for guest slots and windows, CXL ranges, flex windows and served endpoints (R290, R323, R368, R386, R387). -/
def State.checkPorts (c : State) : List (Nat × Nat) :=
  let cxl := (c.listed 0x0A20).filter fun e => bitAt e.2 63
  (c.faultsOf 0x0943 fun _ v => bitAt v 127 && !c.partHolds (bits v 98 6) (bits v 0 52) (bits v 52 44)) ++
  (c.faultsOf 0x0944 fun _ v => bitAt v 95 && decide (2 ^ 43 < bits v 0 43 + bits v 43 43)) ++
  (cxl.filter fun e => decide (16384 < bits e.2 0 14 + bits e.2 14 15) || !c.flexExists (bits e.2 29 8) ||
    cxl.any fun f => decide (f.1 < e.1) && cxlMeet e.2 f.2).map (fun e => (0x0A20, e.1)) ++
  (c.faultsOf 0x0C01 fun _ v => bitAt v 127 && (decide (2 ^ 28 < bits v 0 28 + bits v 28 28) || !c.flexExists (bits v 56 8) ||
    !c.partExists (bits v 114 6))) ++
  (c.faultsOf 0x0C02 fun _ v => bitAt v 191 && !c.partHolds (bits v 90 6) (bits v 16 36 * 65536) (bits v 52 36 * 65536)) ++
  (c.faultsOf 0x0C03 fun _ v => bitAt v 63 && c.param 0x0103 (bits v 22 9) != bits v 16 6) ++
  (c.faultsOf 0x0C43 fun _ v => bitAt v 127 && !c.partHoldsLocal (bits v 82 6) (bits v 0 40 * 4096) (bits v 40 40 * 4096)) ++
  (c.faultsOf 0x0C44 fun n v => bitAt v 63 && !c.endpointHolds n (bits v 12 40 * 4096) (128 + 64 * 2 ^ bits v 52 5)) ++
  (c.faultsOf 0x0C47 fun n v => bits v 0 2 == 1 && !(c.endpointCfg n).any (fun e => c.param 0x0103 (bits v 10 9) == e.part)) ++
  (c.faultsOf 0x0C48 fun n v => bitAt v 63 && !c.endpointHolds n (bits v 3 49 * 8) 8)

/-- Rule 7: the partitions' quotas sum to at most 65,536 (R336), and a partition with a quota has two engines (R364). -/
def State.checkLimits (c : State) : List (Nat × Nat) :=
  let qs := c.listed 0x0B01
  (if 65536 < (qs.map (·.2)).sum then (qs.reverse.take 1).map (fun e => (0x0B01, e.1)) else []) ++
  (qs.filter fun e => e.2 != 0 && decide (popCount 128 (c.param 0x0B02 e.1) < 2)).map (fun e => (0x0B02, e.1))

/-- The floor of a skein's keeper in thirty-seconds of a bead (R476, R486): its hosting plies and warm spares at step 0, its L3,
the fabric, and the edge with 96 lanes. A skein that is not admitted keeps nothing powered. -/
def State.skeinFloor (s c : State) (k : Nat) : Nat :=
  let ply (p : Nat) : Nat :=
    if 2 ≤ (s.ply k p).state then 0
    else 32 - 2 * (16 - (if c.param 0x0705 (20 * k + p) = 0 then 0 else popCount 16 (c.param 0x0707 (20 * k + p))))
  if !s.skeinUp k then 0
  else ((List.range 20).map ply).sum + 4 * 64 + 32 * (if c.param 0x0706 k = 0 then 0 else popCount 16 (c.param 0x0708 k)) +
    4 * 32 + 4 * 32

/-- The floor of the hub's keeper (R477, R486): what the configuration switches on. -/
def State.hubFloor (s c : State) : Nat :=
  let chans := ((List.range 16).filter fun n => decide (0 < (s.mch n).capacity)).length
  let engines := ((List.range 8).filter fun g => (List.range 16).any fun e => (s.engine (16 * g + e)).state == 0).length
  let flex := ((List.range 6).filter fun g => s.flexRole g != 0).length
  let racks := ((List.range 4).filter fun g => (List.range 3).any fun k => bitAt (c.param 0x0C40 (3 * g + k)) 0).length
  let guests := ((List.range 2).filter fun g => c.param 0x0940 g == 1).length
  32 * (6 + 1 + 1 + 4 * 8 + 6 * chans + 3 * engines + 5 * flex + 4 * racks + 2 * guests + (allSkeins.filter s.skeinUp).length)

/-- Rule 8: every allowance covers its floor, and the allowances with the reserve sum to at most 1,900 beads (R486). -/
def State.checkBeads (s c : State) : List (Nat × Nat) :=
  (allSkeins.filter fun k => decide (32 * c.param 0x1000 k < s.skeinFloor c k)).map (fun k => (0x1000, k)) ++
  (if 32 * c.param 0x1000 12 < s.hubFloor c then [(0x1000, 12)] else []) ++
  (if 1900 < ((List.range 14).map (c.param 0x1000)).sum then [(0x1000, 13)] else [])

/-- The first fault of a rule, by ID and then index. -/
def firstFault (xs : List (Nat × Nat)) : Option (Nat × Nat) :=
  xs.foldl (fun m x => match m with
    | none => some x
    | some y => if x.1 < y.1 ∨ (x.1 = y.1 ∧ x.2 < y.2) then some x else m) none

/-- The outcome of CHECK: the rule, its status, and the ID and index at fault; none when every rule holds (R464). -/
def State.checkSet (s : State) (vs : List Staged) : Option (Nat × Nat × Nat × Nat) :=
  let c := s.withStaged vs
  let rules : List (Nat × Nat × List (Nat × Nat)) :=
    [(1, 0x0A, c.checkZero), (2, 0x0F, s.checkFrozen c vs), (3, 0x0C, c.checkOwners), (4, 0x0B, c.checkRanges),
     (5, 0x0A, c.checkModes), (6, 0x0B, c.checkChannel ++ c.checkPorts), (7, 0x0D, c.checkLimits), (8, 0x0E, s.checkBeads c)]
  rules.findSome? fun r => (firstFault r.2.2).map fun e => (r.1, r.2.1, e.1, e.2)

end Sys2Proof.Machine
end

