-- ==== Sys2Proof/Machine/Apply.lean ====
section
/-!
DEFINITION. What a committed value does at its tally pulse (R465, R466): partitions and spindles, modes, caches, channels,
links, tenant pages and beads.
-/

namespace Sys2Proof.Machine

/-- A long operation of a unit that the spindle has open no longer runs on its tenant page (R408). -/
def State.leaveUnits (s : State) (i : Nat) : State :=
  let p := (s.sp i).arch.progress
  match (s.sp i).host with
  | some h =>
    if (p.unit == 18 || p.unit == 19) && pcOpen p then
      (s.pcRelease h.skein p.unit (ctxPage p.ctx)).modProgress i fun q => { q with ustate := pcState (pcOut q) false }
    else s
  | none => s

/-- The state of a spindle is discarded (R466, R469): its registers, its images and the interrupts kept for it. -/
def State.discardSpindle (s : State) (i : Nat) : State :=
  let s1 := (s.leaveUnits i).modSp i Spindle.discard
  let s2 := s1.modJalif fun j => { j with heldImg := terase j.heldImg i }
  { s2 with home := { s2.home with router := s2.home.router.filter fun r => r.1 != i } }

/-- The FREEZE commands of a freeze in progress are answered, and the freeze ends (R470). -/
def State.endFreeze (s : State) (scope target status : Nat) : State :=
  let mine (f : Freeze) : Bool := f.scope == scope && f.target == target
  let mbs := (s.jalif.freezes.filter mine).flatMap fun f => f.mbs
  foldS mbs (fun mb t => t.respond mb 0x20 status []) (s.modJalif fun j => { j with freezes := j.freezes.filter fun f => !mine f })

/-- A freeze of the target is in progress. -/
def State.freezing (s : State) (scope target : Nat) : Bool := s.jalif.freezes.any fun f => f.scope == scope && f.target == target

/-- Entries of a device that is removed, or of a deleted partition (R359, R466). -/
def State.removeEntries (s : State) (c : Entry → Bool) : State :=
  foldS ((s.chan.ledger.filter fun e => c e.2).map (·.1)) (fun k t =>
    let e := t.entry k
    match e.st with
    | .queued | .frozen => t.terminate k 1 0x0118 e.left
    | .redrive => t.endEither k 0x0118 0x0120
    | .active | .issuing | .issued => t.modEntry k fun e => { e with removed := true }
    | _ => t) s

/-- A release of a tenant page (R335, R393): its configuration, keys, history capability, streams and channel slots are
cleared; the generation moves on apart. -/
def State.releasePage (s : State) (pg : Nat) : State :=
  let t := s.tenant pg
  let s1 := s.modTenant pg fun t => { ({} : Tenant) with
    accepted := t.accepted, rejected := t.rejected, lastReject := t.lastReject, unposted := t.unposted, cancelIgn := t.cancelIgn,
    prod := t.prod, ringState := t.ringState, clearing := t.clearing, consumed := t.consumed, unnotified := t.unnotified,
    oldest := t.oldest, gen := t.gen }
  let give (k : Option Nat) (u : State) : State := match k with
    | some k => u.modSk k fun z => { z with
        pCache := z.pCache.filter (· != pg), cCache := z.cCache.filter (· != pg), ctxDirty := z.ctxDirty.filter (· != pg) }
    | none => u
  (give t.cHolder (give t.pHolder s1)).endFreeze 1 pg 0x17

/-- A page's generation moves on (R393). -/
def State.nextGen (s : State) (pg : Nat) : State := s.modTenant pg fun t => { t with gen := (t.gen + 1) % 2 ^ 32 }

/-- tenant.partition changes (R393): a page that leaves a partition is released; one that joins a frozen partition is frozen
(log 38). -/
def State.applyPage (s o : State) (pg v : Nat) : State :=
  let s1 := if o.pagePart pg = 0 then s else s.releasePage pg
  (s1.nextGen pg).modTenant pg fun t => { t with frozen := v != 0 && tget 0 s.jalif.partState v == 3 }

/-- Every lock that a partition holds ends (R234). -/
def State.dropLocks (s : State) (p : Nat) : State :=
  let keep (t : Tbl Nat) : Tbl Nat := t.filter fun e => e.2 != p + 1
  { s with cores := { s.cores with
      skeins := s.cores.skeins.map (fun e => (e.1, { e.2 with l3Lock := keep e.2.l3Lock })),
      plies := s.cores.plies.map (fun e => (e.1, { e.2 with l2Lock := keep e.2.l2Lock })) } }

/-- A partition is deleted (R466, R470). -/
def State.deletePart (s : State) (p : Nat) : State :=
  let s1 := ((s.removeEntries fun e => e.part == p).endFreeze 0 p 0x17).dropLocks p
  s1.modJalif fun j => { j with
    partState := tset 0 j.partState p 0, startFail := terase j.startFail p, toRelease := j.toRelease.filter (· != p) }

/-- A partition is created (R452, R466, R468): released at its commit, or created frozen. -/
def State.createPart (s : State) (p v : Nat) : State :=
  let s1 := s.modMbox p fun m => { m with lastSeq := [] }
  s1.modJalif fun j => { j with
    partState := tset 0 j.partState p (if v = 2 then 3 else 1),
    toRelease := if v = 1 then (if j.toRelease.contains p then j.toRelease else j.toRelease ++ [p]) else j.toRelease }

/-- part.create changes. -/
def State.applyPart (s o : State) (p v : Nat) : State :=
  if v = 0 then s.deletePart p else if o.param 0x0100 p = 0 then s.createPart p v else s

/-- spindle.partition changes (R466): the spindle's state is discarded; it is released again from its new partition's start
record, or frozen with no saved state where that is frozen. -/
def State.applySpindle (s o : State) (i v : Nat) : State :=
  let frozen := v ≤ 48 ∧ 2 ≤ tget 0 s.jalif.partState v
  let gone := o.param 0x0103 i ≤ 48 ∧ s.param 0x0100 (o.param 0x0103 i) = 0
  let s1 := (s.discardSpindle i).modSp i fun x => { x with frozen := frozen, noSave := frozen }
  if v ≤ 48 ∧ !frozen ∧ !gone ∧ s.jalif.cfgDone then
    s1.modJalif fun j => { j with toRelease := if j.toRelease.contains v then j.toRelease else j.toRelease ++ [v] }
  else s1

/-- fasten.loose changes (R28, R208). -/
def State.applyLoose (s : State) (k v : Nat) : State :=
  let z := s.sk k
  if v = 1 then
    (if z.loose then s else if s.skeinUp k then (s.modSk k fun z => { z with looseAt := some z.openEpoch }).requestFasten k
      else s.modSk k fun z => { z with loose := true })
  else if !z.loose then s.modSk k fun z => { z with looseAt := none }
  else if !s.skeinUp k then s.modSk k fun z => { z with loose := false }
  else
    let solo := !s.skeinUp (buddyOf k)
    s.modSk k fun z => { z with
      loose := false, pair := if solo then 1 else 2, toHub := solo, fromLoose := true, resvClean := true, pairFirst := false,
      dbl := [], imgC := [], imgP := [] }

/-- A commit ends the locks of the ways of a mask of a ply's L2, or of the L3 (none), and each ending is logged (R234 to
R236). -/
def State.endLocks (s : State) (k : Nat) (pl : Option Nat) (m : BitVec 16) : State :=
  let locks := match pl with
    | some p => (s.ply k p).l2Lock
    | none => (s.sk k).l3Lock
  let ended := (List.range 16).filter fun w => m.getLsbD w && tget 0 locks w != 0
  let left := ended.foldl (fun t w => tset 0 t w 0) locks
  let s1 := match pl with
    | some p => s.modPly k p fun y => { y with l2Lock := left }
    | none => s.modSk k fun z => { z with l3Lock := left }
  foldS ended (fun _ t => t.raise 0x0308 (match pl with | some p => 20 * k + p | none => 240 + k)) s1

/-- A cleaning begins, unless one runs already (R235 to R237). -/
def State.startClean (s : State) (k : Nat) (pl : Option Nat) : State :=
  match pl with
  | some p => s.modPly k p fun y => if y.cleaning then y else { y with cleaning := true, cleanAt := s.time }
  | none => s.modSk k fun z => if z.cleaning then z else { z with cleaning := true, cleanAt := s.time }

/-- A ply's L1s and side buffer are disabled with its L2 (R235). -/
def State.dropNear (s : State) (k p : Nat) : State := foldS (s.ply k p).sb (fun l t => t.sbLeave k p l) (s.clearL1 k p)

/-- cache.l2_enable changes (R235): draining, or a request for the beads of the arrays; way 16 stands for the whole cache. -/
def State.applyL2 (s : State) (k p v : Nat) : State :=
  let y := s.ply k p
  if v = 0 then
    let s1 := s.withdrawBeads k (.l2Way k p 16)
    if y.l2State = 0 then (((s1.endLocks k (some p) (BitVec.allOnes 16)).dropNear k p).startClean k (some p)).modPly k p fun y =>
      { y with l2State := 1 } else s1
  else if y.l2State = 1 then s.modPly k p fun y => { y with l2State := 0, cleaning := y.l2Off != 0 }
  else if y.l2State = 2 then
    (if y.step < 9 then s.askBeads k 3 (2 * popCount 16 y.l2On.toNat) (.l2Way k p 16)
      else s.modPly k p fun y => { y with l2State := 0 })
  else s

/-- cache.l3_enable changes (R235). -/
def State.applyL3 (s : State) (k v : Nat) : State :=
  let z := s.sk k
  if !s.skeinUp k then s
  else if v = 0 then
    let s1 := s.withdrawBeads k (.l3Way k 16)
    if z.l3State = 0 then ((s1.endLocks k none (BitVec.allOnes 16)).startClean k none).modSk k fun z => { z with l3State := 1 } else s1
  else if z.l3State = 1 then s.modSk k fun z => { z with l3State := 0, cleaning := z.l3Off != 0 }
  else if z.l3State = 2 then s.askBeads k 3 (32 * popCount 16 z.l3On.toNat) (.l3Way k 16)
  else s

/-- One bit of a way mask. -/
def wayBit (w : Nat) : BitVec 16 := BitVec.ofNat 16 (2 ^ w)

/-- cache.l2_ways_on changes (R236): each way that leaves the mask is cleaned, its lock ended; each that joins it asks for its
beads. -/
def State.applyL2Ways (s : State) (k p v : Nat) : State :=
  let m : BitVec 16 := BitVec.ofNat 16 v
  let y := s.ply k p
  let off := y.l2On &&& ~~~m
  let s := s.endLocks k (some p) off
  if 9 ≤ y.step then s.modPly k p fun y => { y with l2On := m, l2Off := 0 }
  else
    let s0 := if off = 0 then s else s.startClean k (some p)
    let s1 := s0.modPly k p fun y => { y with l2Off := off, cleaning := off != 0 || y.l2State == 1 }
    foldS (List.range 16) (fun w t =>
      if m.getLsbD w && !y.l2On.getLsbD w then t.askBeads k 3 (if y.l2State = 2 then 0 else 2) (.l2Way k p w)
      else if !m.getLsbD w then t.withdrawBeads k (.l2Way k p w) else t) s1

/-- cache.l3_ways_on changes (R236). -/
def State.applyL3Ways (s : State) (k v : Nat) : State :=
  let m : BitVec 16 := BitVec.ofNat 16 v
  let z := s.sk k
  if !s.skeinUp k then s
  else
    let off := z.l3On &&& ~~~m
    let s := s.endLocks k none off
    let s0 := if off = 0 then s else s.startClean k none
    let s1 := s0.modSk k fun z => { z with l3Off := off, cleaning := off != 0 || z.l3State == 1 }
    foldS (List.range 16) (fun w t =>
      if m.getLsbD w && !z.l3On.getLsbD w then t.askBeads k 3 (if z.l3State = 2 then 0 else 32) (.l3Way k w)
      else if !m.getLsbD w then t.withdrawBeads k (.l3Way k w) else t) s1

/-- guest.enable changes (R288): the PHY is powered and the link trains, or the site drains. -/
def State.applyGuest (s : State) (g : SiteId) (v : Nat) : State :=
  if v = 0 then
    (if (s.site g).state = 0 ∨ (s.site g).state = 3 then s.dropDomain (358 + g) 0 else s.drainDomain (.guest g))
  else if s.domainState (358 + g) = 1 then s.modSite g fun x => { x with state := 1 }
  else s.wantDomain (358 + g)

/-- rack.port changes (R359, R378): a port that is enabled trains once its group is powered; one that is disabled drains, its
attempts fail, and the reel counts it as removed. -/
def State.applyRack (s o : State) (k : RackId) (v : Nat) : State :=
  let on := bitAt v 0
  let was := bitAt (o.param 0x0C40 k) 0
  if on ∧ !was then
    (if s.domainState (354 + k / 3) = 1 then s.modRack k fun x => { x with state := 1 } else s.wantDomain (354 + k / 3))
  else if was ∧ !on then
    (((s.modRack k fun x => { x.stop s.time with state := 0, lost := false, width := 0 }).portFails (32 + k)).drainDomain (.rack k)).relife
  else s

/-- chan.device changes (R359). -/
def State.applyDevice (s o : State) (d v : Nat) : State :=
  if bits v 0 2 = 0 ∨ bits v 2 6 ≠ o.devPart d then s.removeEntries fun e => e.device == d else s

/-- rack.endpoint_ring binds a message ring (R353, R387). -/
def State.applyMsgRing (s : State) (n v : Nat) : State :=
  s.modEndpoint n fun x => { x with
    prod := 0, consumed := 0, clearing := bitAt v 63, suspended := false, unnotified := 0, oldest := none }

/-- power.allowance changes (R475, R485); beads withdrawn for heat stay withdrawn. -/
def State.applyAllowance (s o : State) (d v : Nat) : State :=
  if d < 12 then
    let z := s.sk d
    if z.lost ∧ z.allowance = 0 then s.modPower fun p => { p with reserve := p.reserve + v - o.param 0x1000 d }
    else s.modSk d fun z => { z with allowance := v - z.heat }
  else if d = 12 then s.modPower fun p => { p with hubAllow := v - p.hubHeat }
  else s.modPower fun p => { p with reserve := p.reserve + v - o.param 0x1000 13 }

/-- Every hosting ply of a skein aims at its step (R482, R488). -/
def State.aimSkein (s : State) (k : Nat) : State :=
  foldS (List.range 20) (fun p t => t.aimPly k p (s.stepGoal k)) s

/-- The effect of one value at its pulse, o being the state before it (R465, R466). -/
def State.applyValue (s o : State) (v : Staged) : State :=
  if o.param v.id v.idx = v.val then (if v.id = 0x0B05 then s.bindRing v.idx else if v.id = 0x0C44 then s.applyMsgRing v.idx v.val else s)
  else match v.id with
    | 0x0103 => s.applySpindle o v.idx v.val
    | 0x0601 => s.applyLoose v.idx v.val
    | 0x0705 => s.applyL2 (v.idx / 20) (v.idx % 20) v.val
    | 0x0706 => s.applyL3 v.idx v.val
    | 0x0707 => s.applyL2Ways (v.idx / 20) (v.idx % 20) v.val
    | 0x0708 => s.applyL3Ways v.idx v.val
    | 0x0940 => s.applyGuest (Fin.ofNat 2 v.idx) v.val
    | 0x0B03 => s.applyDevice o v.idx v.val
    | 0x0B05 => s.bindRing v.idx
    | 0x0C40 => s.applyRack o (Fin.ofNat 12 v.idx) v.val
    | 0x0C44 => s.applyMsgRing v.idx v.val
    | 0x0D10 => s.applyPage o v.idx v.val
    | 0x1000 => s.applyAllowance o v.idx v.val
    | 0x1001 | 0x1002 => s.aimSkein v.idx
    | _ => s

/-- A value that waits for the next reel reset (R174, R461). -/
def atReset (id : Nat) : Bool := id == 0x0502 || id == 0x0504

/-- A value that waits for the reset, kept in MRAM; one equal to the value in effect waits no longer (R461). -/
def State.keepForReset (s : State) (v : Staged) : State :=
  s.modJalif fun j =>
    let rest := j.pendReset.filter fun w => w.id != v.id || w.idx != v.idx
    { j with pendReset := if s.param v.id v.idx = v.val then rest else rest ++ [v] }

/-- The values of a set applied at its pulse: the parameters, then what they do, partitions first (R465, R466). -/
def State.applySet (s : State) (vs : List Staged) : State :=
  let now := vs.filter fun v => !atReset v.id
  let s1 := s.withStaged now
  let s2 := foldS (now.filter fun v => v.id == 0x0100 && s.param v.id v.idx != v.val) (fun v t => t.applyPart s v.idx v.val) s1
  let s3 := foldS now (fun v t => t.applyValue s v) s2
  foldS (vs.filter fun v => atReset v.id) (fun v t => t.keepForReset v) s3

end Sys2Proof.Machine
end

