-- ==== Sys2Proof/Machine/Change.lean ====
section
/-!
DEFINITION. The change set (R462 to R466), the tally pulse that applies it, RETIRE_PAGE (R320), which takes its pulses in the
same order, and the census (R467).
-/

namespace Sys2Proof.Machine

/-- The change set changed by f. -/
def State.modChange (s : State) (f : Change → Change) : State := s.modJalif fun j => { j with change := f j.change }

/-- FILL becomes STAGED when FILL is complete and the set has passed CHECK (R33, R34). -/
def State.stagedNow (s : State) : State :=
  if s.life = .fill ∧ s.jalif.fillDone ∧ 2 ≤ s.jalif.change.st then { s with life := .staged } else s

/-- A command on the change set by its opener (R462); another mailbox is not permitted, and no command works in the states
that st does not name. -/
def State.onChange (s : State) (mb : Mb) (code : Nat) (st : List Nat) (f : State → State) : State :=
  s.request mb code .zero fun t =>
    let c := t.jalif.change
    if c.st ≠ 0 ∧ c.opener ≠ mb.page then t.respond mb code 2 []
    else if !st.contains c.st then t.respond mb code 9 []
    else f (t.modChange fun c => { c with last := t.time })

/-- OPEN_CHANGE (R462). -/
def execOpenChange (mb : Mb) (s : State) : Host.Outcome State Fault Refusal :=
  done (s.request mb 0x10 .zero fun t =>
    if t.jalif.change.st ≠ 0 then t.respond mb 0x10 9 []
    else (t.modChange fun _ => { st := 1, opener := mb.page, last := t.time }).respond mb 0x10 0 [t.jalif.gen + 1])

/-- The status of a value that STAGE would take into a set (R14, R460, R463): the width, the range and the reserved encodings of
its parameter, and what its Range column asks of other parameters (R419, R502). -/
def State.stageStatus (s : State) (vs : List Staged) (id idx val : Nat) : Nat :=
  match paramRow id with
  | none => 7
  | some r =>
    if !paramIndexOk r idx then 7
    else if !r.staged then 8
    else if 2 ^ r.width ≤ val ∨ !paramRangeOk id idx val then 3
    else if id = 0x0D02 ∧ !(tget {} s.jalif.keys val).loaded then 3
    else if id = 0x1002 ∧ val < (s.withStaged vs).param 0x1001 idx then 3
    else if 16384 ≤ vs.length ∧ !(vs.any fun v => v.id == id && v.idx == idx) then 0x0D
    else 0

/-- A staged value replaces an earlier one of the same ID and index (R463). -/
def stagePut (vs : List Staged) (v : Staged) : List Staged :=
  if vs.any fun w => w.id == v.id && w.idx == v.idx then vs.map fun w => if w.id = v.id ∧ w.idx = v.idx then v else w else vs ++ [v]

/-- STAGE (R463): a set that was CHECKED is OPEN again, whatever the value's status (log 39). -/
def execStage (mb : Mb) (id idx val : Nat) (s : State) : Host.Outcome State Fault Refusal :=
  done (s.onChange mb 0x11 [1, 2] fun t =>
    let vs := t.jalif.change.vals
    let st := t.stageStatus vs id idx val
    let ws := if st = 0 then stagePut vs { id := id, idx := idx, val := val } else vs
    (t.modChange fun c => { c with st := 1, vals := ws }).respond mb 0x11 st [ws.length])

/-- CHECK (R462, R464): the response names the rule and the first ID and index at fault. -/
def execCheck (mb : Mb) (s : State) : Host.Outcome State Fault Refusal :=
  done (s.onChange mb 0x12 [1, 2] fun t => match t.checkSet t.jalif.change.vals with
    | none => ((t.modChange fun c => { c with st := 2 }).stagedNow).respond mb 0x12 0 [0, 0, 0]
    | some (rule, status, id, idx) => (t.modChange fun c => { c with st := 1 }).respond mb 0x12 status [id, idx, rule])

/-- The die that holds a parameter (R467). -/
def paramDie (id idx : Nat) : Nat :=
  match skeinIds.find? fun e => e.1 == id with
  | some (_, true) => idx / 20
  | some (_, false) => idx
  | none => 12

/-- Die d is admitted; the hub always is. -/
def State.dieUp (s : State) (d : Nat) : Bool := d == 12 || s.skeinUp d

/-- The staging load begins (R465 steps 2 and 3): the admitted dies that hold a staged value are to acknowledge. -/
def State.startCommit (s : State) (mb : Option Mb) : State :=
  let dies := s.jalif.change.vals.map fun v => paramDie v.id v.idx
  let ahead := s.jalif.retireq.length
  s.modChange fun c => { c with
    st := 3, mb := mb, last := s.time, ahead := ahead,
    acks := BitVec.ofNat 13 (maskOf 13 fun d => dies.contains d && s.dieUp d) }

/-- COMMIT (R465 step 1). -/
def execCommit (mb : Mb) (s : State) : Host.Outcome State Fault Refusal :=
  done (s.onChange mb 0x13 [2] fun t => match t.checkSet t.jalif.change.vals with
    | none => (t.startCommit (some mb)).taken mb
    | some (_, status, _, _) => (t.modChange fun c => { c with st := 1 }).respond mb 0x13 status [])

/-- The dies still to acknowledge: a die lost before the pulse is left out (R465). -/
def State.acksLeft (s : State) : Bool := (List.range 13).any fun d => s.jalif.change.acks.getLsbD d && s.dieUp d

/-- COMMIT_STAGING_ACK (R465 step 3). -/
def execCommitStagingAck (die : DieId) (s : State) : Host.Outcome State Fault Refusal :=
  done (if s.jalif.change.st ≠ 3 then s
    else s.modChange fun c => { c with acks := c.acks &&& ~~~(BitVec.ofNat 13 (2 ^ die.val)) })

/-- COMMIT_ACK_TIMEOUT (R465): a die that does not acknowledge within 1 ms ends the commit; the set returns to OPEN. -/
def execCommitAckTimeout (s : State) : Host.Outcome State Fault Refusal :=
  done (
    let c := s.jalif.change
    if c.st ≠ 3 ∨ !s.acksLeft ∨ s.time < c.last + 1000000 then s
    else
      let s1 := (s.modChange fun c => { c with st := 1, mb := none, acks := 0, ahead := 0, last := s.time }).raise 0x0B02 c.opener
      match c.mb with
      | some mb => s1.respond mb 0x13 0x16 []
      | none => s1)

/-- ABORT_CHANGE (R462). -/
def execAbortChange (mb : Mb) (s : State) : Host.Outcome State Fault Refusal :=
  done (s.onChange mb 0x14 [1, 2] fun t => (t.modChange fun _ => {}).respond mb 0x14 0 [])

/-- The set is aborted by the reel (R463): notice 2 to its opener, with reason 1 idle or 2 reset. -/
def State.abortSet (s : State) (reason : Nat) : State :=
  let c := s.jalif.change
  ((s.modChange fun _ => {}).postNotice c.opener 2 [s.jalif.gen + 1, reason]).raise 0x0B01 c.opener

/-- CHANGE_IDLE_EXPIRE (R463): no command for cfg.change_idle_s. -/
def execChangeIdleExpire (s : State) : Host.Outcome State Fault Refusal :=
  done (
    let c := s.jalif.change
    if (c.st = 1 ∨ c.st = 2) ∧ c.last + s.param 0x0F01 0 * 1000000000 ≤ s.time then s.abortSet 1 else s)

/-- CHANGE_STATUS (R456). -/
def execChangeStatus (mb : Mb) (s : State) : Host.Outcome State Fault Refusal :=
  done (s.request mb 0x15 .zero fun t =>
    let c := t.jalif.change
    t.respond mb 0x15 0 [c.st, c.vals.length, c.opener])

/-- The skeins whose Fastened or Loose setting the set changes. -/
def State.looseChanges (s : State) : List Nat :=
  allSkeins.filter fun k => s.jalif.change.vals.any fun v => v.id == 0x0601 && v.idx == k && v.val != s.param 0x0601 k

/-- The pulse is deferred (R32): a freeze in progress covers a spindle of a skein whose setting the set changes. -/
def State.pulseDeferred (s : State) : Bool :=
  s.jalif.freezes.any fun f => f.scope == 0 && s.looseChanges.any fun k => (s.hosted k).any fun i => s.param 0x0103 i == f.target

/-- The set applies at this pulse (R33, R465, R466). -/
def State.commitDue (s : State) : Bool :=
  s.jalif.change.st == 3 && s.jalif.change.ahead == 0 && !s.acksLeft && (s.running || s.life == .staged) && !s.pulseDeferred

/-- The dies take the generation of the commit (R467). -/
def State.setGen (s : State) (g : Nat) : State :=
  let s1 := foldS (allSkeins.filter s.skeinUp) (fun k t => t.modSk k fun z => { z with dieGen := g }) s
  { s1 with hubGen := g }.modJalif fun j => { j with gen := g }

/-- A commit's pulse (R33, R35, R465, R466): the values apply, the set is IDLE, STAGED becomes RUN at the first, and partition
0 awaits its release. -/
def State.commitPulse (s : State) : State :=
  let c := s.jalif.change
  let g := (s.jalif.gen + 1) % 2 ^ 64
  let s1 := if s.jalif.cfgDone then s
    else s.modJalif fun j => { j with toRelease := 0 :: j.toRelease.filter (· != 0), partState := tset 0 j.partState 0 1 }
  let s2 := ((s1.applySet c.vals).setGen g).modJalif fun j => { j with change := {}, cfgDone := true }
  let s3 := (if s2.life = .staged then { s2 with life := .run, chan := { s2.chan with accepting := true } } else s2).relife
  match c.mb with
  | some mb => s3.respond mb 0x13 0 [g, s.time]
  | none => s3

/-- A retirement's pulse (R320, R466): a commit of its own. -/
def State.retirePulse (s : State) : State :=
  match s.jalif.retireq with
  | [] => s
  | pg :: rest =>
    let s1 := (s.setGen ((s.jalif.gen + 1) % 2 ^ 64)).modJalif fun j => { j with
      retireq := rest, change := { j.change with ahead := j.change.ahead - 1 } }
    let mark (e : Retired) : Retired := if e.page = pg ∧ !e.applied then { e with pulsed := true } else e
    { s1 with mcs := { s1.mcs with retired := s1.mcs.retired.map mark } }.retireFlush

/-- A mark of a source or a follower lies within 1 µs of this tick and is not at it: a pulse takes the mark's tick instead
(R494). -/
def State.nearMark (s : State) : Bool :=
  let p := s.param 0x1021 0 * 1000
  s.param 0x1020 0 != 0 && s.time % p != 0 && (decide (s.time % p < 1000) || decide (p < s.time % p + 1000))

/-- The tally pulse (R25, R440, R465, R466, R493): at least 1 µs after the one before, the snapshot latches first, then one
commit or retirement applies, in the order of their doorbells; one within 1 µs of a mark waits for the mark's tick, or until it is
1 µs past (R494). -/
def State.tallyPulse (s : State) : State :=
  let due := s.commitDue
  let retire := !s.jalif.retireq.isEmpty && (s.jalif.change.st != 3 || decide (0 < s.jalif.change.ahead))
  if s.life = .off ∨ s.time < s.jalif.nextPulse ∨ s.nearMark ∨ !(s.faults.pulseReq.isSome || due || retire) then s
  else
    let s1 := s.snapPulse.modJalif fun j => { j with nextPulse := s.time + 1000 }
    if due then s1.commitPulse else if retire then s1.retirePulse else s1

/-- TALLY_PULSE (R493). -/
def execTallyPulse (s : State) : Host.Outcome State Fault Refusal := done s.tallyPulse

/-- PARTITION_RELEASE (R35, R468). -/
def execPartitionRelease (p : PartId) (s : State) : Host.Outcome State Fault Refusal := done (s.releasePartition p)

/-- RETIRE_PAGE (R320): the page joins the retire list, and its retirement waits for its pulse. -/
def execRetirePage (mb : Mb) (addr : Nat) (s : State) : Host.Outcome State Fault Refusal :=
  done (s.request mb 0x48 .zero fun t =>
    let pg := addr / 4096
    let (cs, off) := t.locate (4096 * pg)
    let c := cs.headD 0
    if t.installed ≤ addr ∨ !t.noRetired (4096 * pg) 4096 then t.respond mb 0x48 0x0B []
    else if t.mcs.retired.any fun e => e.page == pg then t
    else if 16384 ≤ t.mcs.retired.length then t.respond mb 0x48 0x0D []
    else
      let e : Retired := { ch := c, frame := off / 4096, page := pg, mb := some (mbIndex mb),
                           serial := ((t.mch c).serials[t.dimmOf c (off / 128)]?).getD 0 }
      ({ t with mcs := { t.mcs with retired := t.mcs.retired ++ [e] } }.modJalif fun j =>
        { j with retireq := j.retireq ++ [pg] }).taken mb)

/-- The digest that die d must hold, from Jalif's own record (R467). -/
def State.digestOf (s : State) (d : Nat) : Nat :=
  if d = 12 then hubDigest s.params else skeinDigest s.params (s.drafts d) s.jalif.draftCrc d

/-- A ply of skein k reports another draft version than that of the held image (R170). -/
def State.draftDiffers (s : State) (k : Nat) : Bool :=
  (List.range 20).any fun p =>
    let y := s.ply k p
    decide (y.step < 9) && !y.draft.isEmpty && y.draftVersion != s.jalif.draftVer

/-- The census (R170, R467): the dies whose generation differs from Jalif's, and the skeins whose plies' draft versions differ. -/
def State.censusDiff (s : State) : Nat :=
  maskOf 13 fun d => s.dieUp d && ((if d = 12 then s.hubGen else (s.sk d).dieGen) != s.jalif.gen || decide (d < 12) && s.draftDiffers d)
/-- REEL_DIGEST (R467). -/
def State.reelDigest (s : State) : Nat := crc64 ((List.range 13).flatMap fun d => leBytes 8 (s.digestOf d))
/-- RACK_DIGEST (R467). -/
def State.rackDigest (s : State) : Nat :=
  crc64 (leBytes 4 s.jalif.fwRun ++ leBytes 4 s.jalif.draftVer ++ leBytes 4 s.jalif.draftCrc ++
    (List.range 8).flatMap fun k => leBytes 4 (s.paramValue 0x0F02 k))

/-- CENSUS (R467): it waits for a commit in progress to apply. -/
def execCensus (mb : Mb) (s : State) : Host.Outcome State Fault Refusal :=
  done (s.request mb 0x18 .zero fun t =>
    if t.jalif.change.st = 3 then t
    else
      let diff := t.censusDiff
      let t1 := if diff = 0 then t else (t.postNotice 0 3 [diff, t.jalif.gen]).raise 0x0B03 mb.page
      t1.respond mb 0x18 0 [t.reelDigest, t.rackDigest, t.jalif.gen, diff])

end Sys2Proof.Machine
end

