-- ==== Sys2Proof/Machine/Freeze.lean ====
section
/-!
DEFINITION. FREEZE and THAW (R31, R360, R415, R470).
-/

namespace Sys2Proof.Machine

/-- The tenant pages of a partition (R393). -/
def State.pagesOf (s : State) (p : Nat) : List Nat := ((s.listed 0x0D10).filter fun e => e.2 == p).map fun e => e.1

/-- The ledger entries of a page. -/
def State.pageEntries (s : State) (pg : Nat) (c : Entry → Bool) : List Nat :=
  (s.chan.ledger.filter fun e => e.2.tenant == pg && c e.2).map fun e => e.1

/-- A page begins to freeze (R360): submissions are rejected, and QUEUED entries enter FROZEN. -/
def State.freezePage (s : State) (pg : Nat) : State :=
  if (s.tenant pg).frozen then s
  else foldS (s.pageEntries pg fun e => e.st == .queued) (fun k t => t.modEntry k fun e => { e with st := .frozen })
    (s.modTenant pg fun t => { t with freezing := true })

/-- A page is thawed (R360, R415): FROZEN entries return to QUEUED. -/
def State.thawPage (s : State) (pg : Nat) : State :=
  foldS (s.pageEntries pg fun e => e.st == .frozen) (fun k t => t.modEntry k fun e => { e with st := .queued })
    (s.modTenant pg fun t => { t with freezing := false, frozen := false })

/-- A freeze reaches a spindle (R31, R470): one that runs nowhere is at its freeze point at once. -/
def State.freezeSpindle (s : State) (i : Nat) : State :=
  let x := s.sp i
  if !x.released ∨ x.host.isNone ∨ x.suspended then s.modSp i fun x => { x with frozen := true }
  else (s.modSp i fun x => { x with freezeReq := true }).park i

/-- A spindle resumes at a thaw (R470); a stop that it has taken holds on. -/
def State.thawSpindle (s : State) (i : Nat) : State :=
  s.modSp i fun x => { x with frozen := false, freezeReq := false, noSave := false }

/-- The freeze target exists: a partition, or a tenant page that is assigned (R470). -/
def State.freezeTarget (s : State) (scope target : Nat) : Bool :=
  if scope = 0 then s.partExists target else s.pagePart target != 0
/-- The freeze target is frozen. -/
def State.targetFrozen (s : State) (scope target : Nat) : Bool :=
  if scope = 0 then tget 0 s.jalif.partState target == 3 else (s.tenant target).frozen
/-- SCOPE and TARGET lie in their ranges (R456). -/
def scopeOk (scope target : Nat) : Bool := (scope == 0 && decide (target ≤ 48)) || (scope == 1 && decide (target < 4096))

/-- The partition's state in part.state (R461). -/
def State.setPartState (s : State) (p v : Nat) : State := s.modJalif fun j => { j with partState := tset 0 j.partState p v }

/-- FREEZE (R470). -/
def execFreeze (mb : Mb) (scope target : Nat) (s : State) : Host.Outcome State Fault Refusal :=
  done (s.request mb 0x20 .zero fun t =>
    if !scopeOk scope target then t.respond mb 0x20 3 []
    else if !t.freezeTarget scope target then t.respond mb 0x20 0x11 []
    else if t.targetFrozen scope target then t.respond mb 0x20 0 []
    else if t.freezing scope target then
      (t.modJalif fun j => { j with freezes := j.freezes.map fun f =>
        if f.scope = scope ∧ f.target = target then { f with mbs := f.mbs ++ [mb] } else f }).taken mb
    else
      let t1 := (t.modJalif fun j => { j with freezes := j.freezes ++ [{ scope := scope, target := target, mbs := [mb] }] }).taken mb
      if scope = 1 then t1.freezePage target
      else
        let t2 := foldS (t1.pagesOf target) (fun pg u => u.freezePage pg) (t1.setPartState target 2)
        foldS (t2.spindlesOf target) (fun i u => u.freezeSpindle i) t2)

/-- The page is at its ledger-stable point, and no operation runs on its contexts but one that a frozen spindle holds (R360,
R415). -/
def State.pageStable (s : State) (pg : Nat) : Bool :=
  let t := s.tenant pg
  let idle (b : Option Nat) : Bool := match b with
    | some i => (s.sp i).frozen
    | none => true
  (s.pageEntries pg fun e => e.attempting || e.st == .redrive).isEmpty && idle t.busyP && idle t.busyC

/-- Every spindle and page that the freeze covers has stopped (R31). -/
def State.freezeReady (s : State) (scope target : Nat) : Bool :=
  if scope = 1 then s.pageStable target
  else ((s.spindlesOf target).all fun i => (s.sp i).frozen) && (s.pagesOf target).all s.pageStable

/-- A page is frozen: operations that frozen spindles hold have left it (R415). -/
def State.pageFrozen (s : State) (pg : Nat) : State :=
  let t := s.tenant pg
  foldS (t.busyP.toList ++ t.busyC.toList) (fun i u => u.leaveUnits i)
    (s.modTenant pg fun t => { t with freezing := false, frozen := true })

/-- FREEZE_COMPLETE (R31, R470). -/
def State.freezeDone (s : State) (scope target : Nat) : State :=
  if !s.freezing scope target then s
  else
    let s1 := if scope = 0 then foldS (s.spindlesOf target) (fun i t => t.park i) s else s
    if !s1.freezeReady scope target then s1
    else if scope = 1 then (s1.pageFrozen target).endFreeze 1 target 0
    else (foldS (s1.pagesOf target) (fun pg t => t.pageFrozen pg) (s1.setPartState target 3)).endFreeze 0 target 0

/-- FREEZE_COMPLETE (R31, R470). -/
def execFreezeComplete (scope target : Nat) (s : State) : Host.Outcome State Fault Refusal := done (s.freezeDone scope target)

/-- The target runs again (R360, R415, R470). -/
def State.resume (s : State) (scope target : Nat) : State :=
  if scope = 1 then s.thawPage target
  else
    let s1 := foldS (s.pagesOf target) (fun pg t => t.thawPage pg) (s.setPartState target 1)
    foldS (s1.spindlesOf target) (fun i t => t.thawSpindle i) s1

/-- THAW (R470): a freeze in progress is abandoned, and its FREEZE is answered ABORTED. -/
def execThaw (mb : Mb) (scope target : Nat) (s : State) : Host.Outcome State Fault Refusal :=
  done (s.request mb 0x21 .zero fun t =>
    if !scopeOk scope target then t.respond mb 0x21 3 []
    else if t.freezing scope target then
      ((((t.endFreeze scope target 0x16).resume scope target).raise 0x0B09 mb.page)).respond mb 0x21 0 []
    else if t.targetFrozen scope target then (t.resume scope target).respond mb 0x21 0 []
    else t.respond mb 0x21 0x10 [])

end Sys2Proof.Machine
end

