-- ==== Sys2Proof/Machine/SpindleCmd.lean ====
section
/-!
DEFINITION. The mailbox commands on spindles and channels (R165, R166, R317, R469).
-/

namespace Sys2Proof.Machine

/-- Jalif has assigned the spindle (R15): it has a place, or has lost one. -/
def State.spindleKnown (s : State) (i : Nat) : Bool :=
  let x := s.sp i
  decide (i < 480) && (x.host.isSome || x.suspended || x.released || x.lostFrom.isSome)

/-- The spindle keeps the state with which it stopped: no ply, skein or checkpoint was lost with it (R154, R172, R201, R207). -/
def Spindle.retained (x : Spindle) : Bool := x.released && (x.stopped == 5 || x.stopped == 6)

/-- SPINDLE_RESTART (R143, R434, R469). -/
def execSpindleRestart (mb : Mb) (sp : Nat) (fromSlot : Bool) (s : State) : Host.Outcome State Fault Refusal :=
  done (s.request mb 0x30 .zero fun t =>
    let x := t.sp sp
    if !t.spindleKnown sp then t.respond mb 0x30 0x11 []
    else if !x.retained ∨ (fromSlot ∧ !slotBusy x) then t.respond mb 0x30 0x0A []
    else
      let t1 := if fromSlot then t.eret2 sp else t
      (t1.modSp sp fun x => { x with stopped := 0 }).respond mb 0x30 0 [])

/-- A suspended spindle, and one whose ply or skein is lost, gives up what is left of its place: it starts afresh where Jalif
places it (R162, R203, R469). -/
def State.releaseLater (s : State) (i : Nat) : State :=
  let x := s.sp i
  let s1 := (s.unreserve i).discardSpindle i
  let s2 := s1.modSp i fun y => { y with
    host := none, moving := false, moveEpoch := 0, moveMb := none, released := true, suspended := true, frozen := x.frozen }
  match x.host with
  | some h => if (s2.spindlesOn h.skein h.ply).isEmpty then ((s2.cleanL2 h.skein h.ply).getD s2).plyOff h.skein h.ply 3 else s2
  | none => s2

/-- SPINDLE_RELEASE (R469): the state is discarded, and the spindle starts afresh from its partition's start record; a stop that
it had taken ends, and a freeze holds on. -/
def execSpindleRelease (mb : Mb) (sp : Nat) (s : State) : Host.Outcome State Fault Refusal :=
  done (s.request mb 0x31 .zero fun t =>
    let x := t.sp sp
    match t.partOf sp, t.spindleKnown sp with
    | some p, true =>
      let gone := match x.host with
        | some h => (t.ply h.skein h.ply).state == 3
        | none => true
      if x.suspended || gone then (t.releaseLater sp).respond mb 0x31 0 []
      else match t.readStart p with
        | (none, u) => u
        | (some none, u) => u.respond mb 0x31 0x0B []
        | (some (some r), u) =>
          (((u.discardSpindle sp).releaseWith sp r).modSp sp fun y => { y with frozen := x.frozen }).respond mb 0x31 0 []
    | _, _ => t.respond mb 0x31 0x11 [])

/-- The bytes of a saved state in the TSB layout (R122). -/
def Saved.bytes (v : Saved) (mode : Word) : List Nat :=
  (List.range 352).flatMap fun g => leBytes 16 (v.granule mode g).bits.toNat

/-- SPINDLE_SLOT_READ (R142, R143): the state in the save slot in the TSB layout, as far as the buffer holds it. -/
def execSpindleSlotRead (mb : Mb) (sp : Nat) (buf : Buf) (s : State) : Host.Outcome State Fault Refusal :=
  done (s.request mb 0x32 .zero fun t =>
    if !t.spindleKnown sp then t.respond mb 0x32 0x11 []
    else if !t.bufOk mb buf then t.respond mb 0x32 0x19 []
    else match (t.sp sp).slot with
      | none => t.respond mb 0x32 0 [0]
      | some v =>
        let bs := v.bytes (t.savedMode (t.sp sp) v)
        t.answerOut mb 0x32 buf (if mb.page = 49 then bs else bs.take buf.len) [1])

/-- The place that a SPINDLE_MOVE takes on a skein (R469): the named ply and fibre, or by the order of R159 within the skein. -/
def State.movePlace (s : State) (k : Nat) (dest : Option (Nat × Nat)) : Option Place :=
  match dest with
  | none => (s.spareOf 1 k) <|> (s.spareOf 2 k) <|> (s.fibreOf k)
  | some (p, f) =>
    let y := s.ply k p
    let d : Place := ⟨k, p, f⟩
    let spare := (y.state == 1 || y.state == 2) && s.plyFree k p
    let fibre := y.state == 0 && (s.spindleAt k p f).isNone && !(s.targets.any fun q => q == d)
    if 20 ≤ p ∨ 2 ≤ f then none
    else if (s.sk k).split then (if spare || fibre then some d else none)
    else if spare && f == 0 then some d else none

/-- SPINDLE_MOVE (R160, R191, R469): answered when the spindle issues at its new place. -/
def execSpindleMove (mb : Mb) (sp sk : Nat) (dest : Option (Nat × Nat)) (s : State) : Host.Outcome State Fault Refusal :=
  done (s.request mb 0x33 .zero fun t =>
    let x := t.sp sp
    let full := 40 ≤ (t.hosted sk).length + (t.targets.filter fun d => d.skein == sk).length
    if 12 ≤ sk then t.respond mb 0x33 3 []
    else if dest.isSome ∧ !t.faults.service then t.respond mb 0x33 5 []
    else if x.host.isNone ∨ x.moving ∨ x.suspended ∨ !t.skeinUp sk then t.respond mb 0x33 0x0A []
    else if full then t.respond mb 0x33 0x0D []
    else match t.movePlace sk dest with
      | none => t.respond mb 0x33 0x0A []
      | some d => ((t.moveTo sp d).modSp sp fun x => { x with moveMb := some (mbIndex mb) }).taken mb)

/-- CMP_TEST (R165). -/
def execCmpTest (mb : Mb) (sp : Nat) (s : State) : Host.Outcome State Fault Refusal :=
  done (s.request mb 0x42 .zero fun t =>
    if !t.faults.service then t.respond mb 0x42 5 []
    else match (t.sp sp).host with
      | none => t.respond mb 0x42 0x0A []
      | some h =>
        if (t.sk h.skein).split ∨ (t.ply h.skein h.ply).state ≠ 0 then t.respond mb 0x42 0x0A []
        else if (t.ply h.skein h.ply).testPend then t
        else (t.modPly h.skein h.ply fun y => { y with testPend := true, testFor := some sp, testMb := some (mbIndex mb) }).taken mb)

/-- CMP_INJECT (R30, R166). -/
def execCmpInject (mb : Mb) (sp group bit count : Nat) (s : State) : Host.Outcome State Fault Refusal :=
  done (s.request mb 0x43 .zero fun t =>
    if 63 < group ∨ 256 ≤ bit ∨ !between 1 15 count then t.respond mb 0x43 3 []
    else if !t.faults.service then t.respond mb 0x43 5 []
    else match (t.sp sp).host with
      | none => t.respond mb 0x43 0x0A []
      | some h =>
        if (t.sk h.skein).split ∨ (t.ply h.skein h.ply).state ≠ 0 then t.respond mb 0x43 0x0A []
        else (t.modPly h.skein h.ply fun y => { y with inject := count, injectGroup := group, injectBit := bit }).respond mb 0x43 0 [])

/-- MEM_CHANNEL_RETRAIN (R317): a lost channel's PHY asks for its beads before it trains. -/
def execMemChannelRetrain (mb : Mb) (ch : Nat) (s : State) : Host.Outcome State Fault Refusal :=
  done (s.request mb 0x49 .zero fun t =>
    if 16 ≤ ch then t.respond mb 0x49 3 []
    else if (t.mch ch).state ≠ 2 then t.respond mb 0x49 0x0A []
    else if (t.mch ch).retrain.isSome then t
    else ((t.modMch ch fun m => { m with retrain := some (mbIndex mb) }).wantDomain (320 + ch)).taken mb)

end Sys2Proof.Machine
end

