-- ==== Sys2Proof/Machine/Images.lean ====
section
/-!
DEFINITION. Migration (R361, R416 to R418, R471): the keys, the images of spindles, tenant pages, channel contexts and
tags, and their restoration.
-/

namespace Sys2Proof.Machine

/-- MIGRATION_KEY_SET (R417, R456): a 256-bit key. -/
def execMigrationKeySet (mb : Mb) (key : Nat) (val : BitVec 256) (s : State) : Host.Outcome State Fault Refusal :=
  done (s.request mb 0x2A .zero fun t =>
    if 7 < key then t.respond mb 0x2A 3 []
    else
      let k : KeySlot := { loaded := true, len := 2, words := (List.range 4).map fun j => (val >>> (64 * j)).setWidth 64 }
      (t.modJalif fun j => { j with keys := tset {} j.keys key k }).respond mb 0x2A 0 [kcvOf k.bytes])

/-- MIGRATION_KEY_CLEAR (R456). -/
def execMigrationKeyClear (mb : Mb) (key : Nat) (s : State) : Host.Outcome State Fault Refusal :=
  done (s.request mb 0x2B .zero fun t =>
    if 7 < key then t.respond mb 0x2B 3 []
    else (t.modJalif fun j => { j with keys := tset {} j.keys key {} }).respond mb 0x2B 0 [])

/-- A migration key (R417). -/
def State.migKey (s : State) (k : Nat) : KeySlot := tget {} s.jalif.keys k

/-- The fields of an image's header (R416). -/
structure ImgHead where
  magic : Nat := 0
  page : Nat := 0
  gen : Nat := 0
  reel : Nat := 0
  key : Nat := 0
  flags : Nat := 0
  counter : Nat := 0
  count : Nat := 0
deriving DecidableEq, Repr

/-- The 64 bytes of a header (R416, R471). -/
def ImgHead.bytes (h : ImgHead) : List Nat :=
  leBytes 4 h.magic ++ leBytes 2 1 ++ leBytes 2 h.page ++ leBytes 4 h.gen ++ leBytes 2 h.reel ++ leBytes 1 h.key ++ leBytes 1 h.flags ++
    leBytes 8 h.counter ++ leBytes 4 h.count ++ List.replicate 36 0

/-- The header that 64 bytes spell. -/
def imgHead (xs : List Nat) : ImgHead :=
  { magic := fieldAt xs 0 4, page := fieldAt xs 6 2, gen := fieldAt xs 8 4, reel := fieldAt xs 12 2 % 4096, key := fieldAt xs 14 1,
    flags := fieldAt xs 15 1, counter := fieldAt xs 16 8, count := fieldAt xs 24 4 }

/-- The IV of an image: SOURCE_REEL in [11:0], COUNTER in [75:12] (R417). -/
def imgIv (reel counter : Nat) : List Nat := leBytes 12 (reel + counter * 4096)

/-- An image: its header, its encrypted body and its tag (R417). -/
def State.seal (s : State) (h : ImgHead) (body : List Nat) : List Nat :=
  let (ct, tag) := gcmSeal (s.migKey h.key).bytes (imgIv h.reel h.counter) h.bytes body
  h.bytes ++ ct ++ tag

/-- The header of this reel's next image. -/
def State.nextHead (s : State) (magic page gen key flags count : Nat) : ImgHead :=
  { magic := magic, page := page, gen := gen, reel := s.jalif.boot.number % 4096, key := key, flags := flags,
    counter := s.jalif.imgCount % 2 ^ 64, count := count }

/-- The image counter moves on (R417). -/
def State.imgTaken (s : State) : State := s.modJalif fun j => { j with imgCount := j.imgCount + 1 }

/-- Free bytes, where the spec states no layout of a body (log 9). -/
def State.freeBytes (s : State) (n : Nat) : List Nat × State :=
  ((List.range n).map fun k => (Config.freeByte (s.freeCtr + k)).toNat, { s with freeCtr := s.freeCtr + n })

/-- What an image's checks find: a status of R455, or the header and the decrypted body (R417, R418). -/
inductive Opened where
  | bad (status : Nat)
  | good (h : ImgHead) (body : List Nat)
deriving DecidableEq, Repr

/-- An image checked: its MAGIC, VERSION and tag, its key, and that it has not been restored before (R418). -/
def State.openImage (s : State) (xs : List Nat) (magic : Option Nat) (noKey : Nat) (replay : Bool) : Opened :=
  let h := imgHead xs
  let badHead : Bool := match magic with | some m => h.magic != m | none => false
  if xs.length < 80 ∨ badHead ∨ fieldAt xs 4 2 ≠ 1 then .bad 0x12
  else if 7 < h.key ∨ !(s.migKey h.key).loaded then .bad noKey
  else match gcmOpen (s.migKey h.key).bytes (imgIv h.reel h.counter) (xs.take 64) ((xs.drop 64).take (xs.length - 80))
      (xs.drop (xs.length - 16)) with
    | none => .bad 0x12
    | some body => if replay && s.jalif.restored.contains (h.reel, h.counter) then .bad 0x13 else .good h body

/-- The image joins the list of the last 65,536 restored (R418). -/
def State.noteImage (s : State) (h : ImgHead) : State :=
  s.modJalif fun j => { j with restored := ((h.reel, h.counter) :: j.restored).take 65536 }

/-- The image is one of this reel's own. -/
def State.ownImage (s : State) (h : ImgHead) : Bool := h.reel == s.jalif.boot.number % 4096

/-- Where an image goes: n bytes in the command's buffer, or the payload (R454, R459). -/
def roomFor (mb : Mb) (b : Buf) (n : Nat) : Bool := mb.page == 49 || decide (n ≤ b.len)

/-! ### Spindles (R471) -/

/-- Bit n of the tag map: granule n of the two parts is tagged. -/
def tagMap (f : Nat → Bool) : List Nat :=
  (List.range 88).map fun j => maskOf 8 fun b => f (8 * j + b)

/-- The body of a spindle image (R471); the bytes of the 512 carried ones are free, their content is kept by COUNTER. -/
def spindleBody (v : Saved) (mode : Saved → Word) (slot : Option Saved) (carried : List Nat) : List Nat :=
  let g (n : Nat) : Cap := if n < 352 then v.granule (mode v) n else match slot with
    | some w => w.granule (mode w) (n - 352)
    | none => Cap.zero
  let at_ (n : Nat) : List Nat := leBytes 16 (g n).bits.toNat
  let a := (List.range 352).flatMap at_ ++ carried ++ (List.range 352).flatMap fun n => at_ (352 + n)
  let b := a ++ List.replicate (0x3000 - a.length) 0 ++ tagMap fun n => (g n).tag
  b ++ List.replicate (16304 - b.length) 0

/-- SPINDLE_SAVE (R471). -/
def execSpindleSave (mb : Mb) (sp key : Nat) (buf : Buf) (rel : Bool) (s : State) : Host.Outcome State Fault Refusal :=
  done (s.request mb 0x22 .zero fun t =>
    let x := t.sp sp
    if 480 ≤ sp ∨ 7 < key then t.respond mb 0x22 3 []
    else if !x.frozen ∨ x.noSave then t.respond mb 0x22 0x10 []
    else if !(t.migKey key).loaded then t.respond mb 0x22 0x14 []
    else if !t.bufOk mb buf ∨ !roomFor mb buf 16384 then t.respond mb 0x22 0x19 []
    else
      let (free, t1) := t.freeBytes 512
      let h := t1.nextHead 0x54505350 sp 0 key (b2n rel) 0
      let v := x.image 0 { ba := x.ba, resume := x.longOn || x.resume }
      match t1.bufOut mb buf (t1.seal h (spindleBody v (t.savedMode x) x.slot free)) with
      | (false, u) => u
      | (true, u) =>
        let u1 := (u.modJalif fun j => { j with imgS := tset {} j.imgS h.counter x }).imgTaken
        let u2 := if rel then (u1.discardSpindle sp).modSp sp fun y => { y with frozen := true, noSave := true, released := x.released } else u1
        u2.respond mb 0x22 0 [16384] (if mb.page = 49 then toBytes (t1.seal h (spindleBody v (t.savedMode x) x.slot free)) else []))

/-- A capability of an image as a partition may have it: tagged only when a start record could grant it (R468, R471). -/
def State.grants (s : State) (p : Nat) (c : Cap) : Bool := capWf c && (capKind c == 0 || capKind c == 3) && s.descrOk p c
/-- The capability as it is restored. -/
def State.granted (s : State) (p : Nat) (c : Cap) : Cap := if c.tag && !s.grants p c then ⟨c.bits, false⟩ else c

/-- An operation in flight without the authority that the partition does not have (R471). -/
def State.grantOp (s : State) (p : Nat) (r : OpRec) : OpRec :=
  { r with res := s.granted p r.res, kind := match r.kind with
    | .finish page gen a b => .finish page gen (s.granted p a) (s.granted p b)
    | k => k }

/-- The spindle state that an image from elsewhere carries beside its TSB parts: read from its body where the spec states no
layout (log 9). -/
def foreignSpindle (body : List Nat) : Spindle :=
  let w := Config.bodyWord body
  let cap (k : Nat) : Cap := ⟨w (k + 1) ++ w k, (w (k + 2)).getLsbD 0⟩
  { arch := { imask := w 0 }, intPending := w 4 ++ w 3 ++ w 2 ++ w 1, serialSeq := (w 5).setWidth 48,
    precPend := if (w 6).getLsbD 0 then some (w 7, w 8) else none,
    tsb := cap 9, tdt := cap 12, eventBase := cap 15 }

/-- A frozen spindle loaded from an image: the TSB parts from the body, what they do not hold from r (R471). -/
def State.loadSpindle (s : State) (sp p : Nat) (body : List Nat) (r : Spindle) : Nat × State :=
  let cur := s.sp sp
  let raw (n : Nat) : Cap :=
    let o := if n < 352 then 16 * n else 0x1800 + 16 * (n - 352)
    ⟨BitVec.ofNat 128 (fieldAt body o 16), (fieldAt body (0x3000 + n / 8) 1).testBit (n % 8)⟩
  let g (n : Nat) : Cap := s.granted p (raw n)
  let tsbB := r.arch.imask.getLsbD 16
  let slotB := r.arch.imask.getLsbD 17
  let others := [r.tsb, r.tdt, r.eventBase] ++ r.ops.map fun o => o.res
  let lost := ((List.range 704).filter fun n => (raw n).tag && !(g n).tag).length +
    (others.filter fun c => c.tag && !(s.granted p c).tag).length
  let x0 := cur.discard.restore (imageSaved g {}) tsbB slotB
  let e := match cur.host with
    | some h => (s.sk h.skein).openEpoch
    | none => 0
  let x := { x0 with
    tsb := s.granted p r.tsb, tdt := s.granted p r.tdt, eventBase := s.granted p r.eventBase, precPend := r.precPend,
    intPending := r.intPending, notice1 := r.notice1, notice2 := r.notice2, notice5 := r.notice5, exhausted := r.exhausted,
    ops := r.ops.map (fun o => (s.grantOp p o).reissued (fun _ => false) (cur.host.getD {})), memSeq := r.memSeq, serial := r.serial,
    serialNext := r.serialNext, serialSeq := r.serialSeq, waitUntil := r.waitUntil, waitFrom := r.waitFrom, trapPend := r.trapPend,
    slot := if slotB then some (imageSaved (fun n => g (352 + n)) {}) else none,
    released := true, stopped := 0, frozen := true, noSave := false, firstEpoch := e }
  -- the gate goes on from the image's sequence number (R188)
  let last := r.serialSeq - BitVec.ofNat 48 r.serials.length
  (lost, { s with home := { s.home with gate := tset {} s.home.gate sp { seq := last } } }.setSp sp x)

/-- SPINDLE_RESTORE (R471). -/
def execSpindleRestore (mb : Mb) (sp : Nat) (buf : Buf) (s : State) : Host.Outcome State Fault Refusal :=
  done (s.request mb 0x23 .zero fun t =>
    let x := t.sp sp
    let p := (t.partOf sp).getD 63
    if 480 ≤ sp then t.respond mb 0x23 3 []
    else if !x.frozen ∨ (!x.noSave ∧ bits (t.param 0x0100 p) 0 2 ≠ 2) then t.respond mb 0x23 0x10 []
    else if !t.bufOk mb buf ∨ bufSize mb buf < 16384 then t.respond mb 0x23 0x19 []
    else match t.bufIn mb buf 16384 with
      | (none, u) => u
      | (some (_, true), u) => u.respond mb 0x23 0x12 []
      | (some (xs, false), u) => match u.openImage xs (some 0x54505350) 0x14 true with
        | .bad st => u.respond mb 0x23 st []
        | .good h body =>
          let r := if u.ownImage h then tget {} u.jalif.imgS h.counter else foreignSpindle body
          let (lost, v) := u.loadSpindle sp p body r
          (v.noteImage h).respond mb 0x23 0 [lost])

/-! ### Tenant pages (R416 to R418) -/

/-- The page's contexts leave the skeins' units for the hub's store (R409, R415). -/
def State.pageHome (s : State) (pg : Nat) : State :=
  let t := s.tenant pg
  let s1 := match t.pHolder with | some k => s.pcGive k .press pg | none => s
  match t.cHolder with | some k => s1.pcGive k .cipher pg | none => s1

/-- A context of the page is modified and not fastened; its skein then fastens early (R409, R410). -/
def State.pageUnfastened (s : State) (pg : Nat) : Option State :=
  let t := s.tenant pg
  let ks := (t.pHolder.toList ++ t.cHolder.toList).filter fun k => s.pcUnfastened k pg
  if ks.isEmpty then none else some (foldS ks (fun k u => u.requestFasten k) s)

/-- The capability that TENANT_SAVE and TENANT_RESTORE carry names the page, with FREEZE (R416). -/
def freezeCap (c : Cap) : Bool := c.tag && capKind c == 3 && capHas c pFREEZE

/-- TENANT_SAVE (R416, R417). -/
def execTenantSave (mb : Mb) (c : Cap) (buf : Buf) (rel : Bool) (s : State) : Host.Outcome State Fault Refusal :=
  done (s.request mb 0x24 .zero fun t =>
    let pg := capOtype c
    let x := t.tenant pg
    let key := t.param 0x0D02 0
    if !freezeCap c then t.respond mb 0x24 0x18 []
    else if !x.frozen then t.respond mb 0x24 0x10 []
    else if !(t.migKey key).loaded then t.respond mb 0x24 0x14 []
    else if !t.bufOk mb buf ∨ !roomFor mb buf 2048 then t.respond mb 0x24 0x19 []
    else match t.pageUnfastened pg with
      | some u => u
      | none =>
        let (free, t1) := t.freeBytes 1968
        let fl := b2n rel + 2 * b2n (x.press.st == 1 || x.press.st == 2) + 4 * b2n (x.cipher.st != 0) + 8 * b2n x.hist.isSome
        let h := t1.nextHead 0x54504358 pg x.gen key fl 0
        match t1.bufOut mb buf (t1.seal h free) with
        | (false, u) => u
        | (true, u) =>
          let u1 := (u.modJalif fun j => { j with imgT := tset {} j.imgT h.counter x }).imgTaken
          let u2 := if rel then ((u1.releasePage pg).nextGen pg).modTenant pg fun y => { y with frozen := true } else u1
          u2.respond mb 0x24 0 [] (if mb.page = 49 then toBytes (t1.seal h free) else []))

/-- A key slot that a body from elsewhere gives (log 9). -/
def foreignKey (body : List Nat) (k : Nat) : KeySlot :=
  let w := Config.bodyWord body
  if (w k).getLsbD 0 then { loaded := true, len := bits (w k).toNat 1 2, words := (List.range 8).map fun j => w (k + 1 + j) } else {}

/-- The page state that a body from elsewhere gives: its fields are what that body says, whose layout the spec does not state
(log 9); FLAGS says which streams are open (R416). -/
def foreignTenant (h : ImgHead) (body : List Nat) : Tenant :=
  let w := Config.bodyWord body
  { pressCfg := w 0, cipherCfg := w 1, iv := w 3 ++ w 2, keys := [(0, foreignKey body 4), (1, foreignKey body 16)],
    press := { st := if bitAt h.flags 1 then (if (w 32).getLsbD 0 then 2 else 1) else if (w 32).getLsbD 1 then 3 else 0,
               cfg := w 33, input := Config.bodyBytes body 0, inTot := (w 34).toNat, outTot := (w 35).toNat, check := bits (w 36).toNat 0 32,
               carry := ((Config.bodyBytes body 1).take 7).map fun b => b.getLsbD 0, blk := Config.bodyBytes body 2, code := bits (w 37).toNat 0 8 },
    cipher := { st := if bitAt h.flags 2 then (if (w 38).getLsbD 0 then 2 else 1) else 0, cfg := w 39, iv := w 41 ++ w 40,
                key := (Config.bodyBytes body 3).take 64, chain := w 43 ++ w 42, hash := w 45 ++ w 44,
                part := (Config.bodyBytes body 4).take 15, total := (w 46).toNat, code := bits (w 47).toNat 0 8 } }

/-- A context loaded into a page: its generation is the image's, and no history capability comes with it (R418). -/
def State.loadTenant (s : State) (pg : Nat) (h : ImgHead) (r : Tenant) : State :=
  let p := { r.press with hist := none }
  (s.pageHome pg).modTenant pg fun t => { t with
    pressCfg := r.pressCfg, cipherCfg := r.cipherCfg, iv := r.iv, keys := r.keys, press := p, cipher := r.cipher, hist := none,
    gen := h.gen, poisoned := false, bP := none, bC := none, shP := p, shC := r.cipher, frozen := true }

/-- TENANT_RESTORE (R418). -/
def execTenantRestore (mb : Mb) (c : Cap) (buf : Buf) (s : State) : Host.Outcome State Fault Refusal :=
  done (s.request mb 0x25 .zero fun t =>
    let pg := capOtype c
    let x := t.tenant pg
    let idle := x.press.st ≠ 1 ∧ x.press.st ≠ 2 ∧ x.cipher.st = 0 ∧ t.pagePart pg ≠ 0
    if !freezeCap c then t.respond mb 0x25 0x18 []
    else if !x.frozen ∨ !idle then t.respond mb 0x25 0x10 []
    else if !t.bufOk mb buf ∨ bufSize mb buf < 2048 then t.respond mb 0x25 0x19 []
    else match t.bufIn mb buf 2048 with
      | (none, u) => u
      | (some (_, true), u) => u.respond mb 0x25 0x12 []
      | (some (xs, false), u) => match u.openImage xs (some 0x54504358) 0x14 true with
        | .bad st => u.respond mb 0x25 st []
        | .good h body =>
          let r := if u.ownImage h then tget {} u.jalif.imgT h.counter else foreignTenant h body
          ((u.loadTenant pg h r).noteImage h).respond mb 0x25 0 [])

/-! ### Channel contexts (R361, R471) -/

/-- The FROZEN and TERMINAL entries of a page in acceptance order (R361). -/
def State.exported (s : State) (pg : Nat) : List (Nat × Entry) :=
  let es := s.chan.ledger.filter fun e => e.2.tenant == pg && (e.2.st == .frozen || e.2.st == .terminal)
  (es.foldl (fun (t : Tbl (Nat × Entry)) e => tset (0, {}) t e.2.order e) []).map fun e => e.2

/-- An entry with its resolved bases cleared (R361). -/
def Entry.unresolved (e : Entry) : Entry := { e with segs := e.segs.map fun g => { g with base := 0 } }

/-- CHANNEL_EXPORT (R361, R471), under the key of param 0x0D02. -/
def execChannelExport (mb : Mb) (pg : Nat) (buf : Buf) (s : State) : Host.Outcome State Fault Refusal :=
  done (s.request mb 0x26 .zero fun t =>
    let key := t.param 0x0D02 0
    let es := t.exported pg
    let out := es.map fun e => e.2.unresolved
    let h := t.nextHead 0x54504C47 pg 0 key 0 es.length
    let img := t.seal h (out.flatMap fun e => leBytes 256 e.image)
    if 4096 ≤ pg then t.respond mb 0x26 3 []
    else if !(t.tenant pg).frozen then t.respond mb 0x26 0x10 []
    else if !(t.migKey key).loaded then t.respond mb 0x26 0x14 []
    else if !t.bufOk mb buf ∨ !roomFor mb buf (80 + 256 * es.length) then t.respond mb 0x26 0x19 []
    else match t.bufOut mb buf img with
      | (false, u) => u
      | (true, u) =>
        let u1 := (u.modJalif fun j => { j with imgE := tset [] j.imgE h.counter out }).imgTaken
        (foldS (es.map fun e => e.1) (fun k v => v.freeEntry k) u1).respond mb 0x26 0 [es.length]
          (if mb.page = 49 then toBytes img else []))

/-- The state of a code of R342. -/
def stateOfCode (n : Nat) : LState := if n = 6 then .terminal else if n = 7 then .frozen else .free

/-- An entry that 256 bytes of an image from elsewhere give (R341); a segment's SLOT, SKIP and LANE, which the copy has no room
for, are what that body says (log 9). -/
def foreignEntry (body : List Nat) (i : Nat) : Entry :=
  let xs := (body.drop (256 * i)).take 256
  let f := fieldAt xs
  let b := fieldAt (xs.drop 64)
  let w0 := f 0 8
  let w2 := f 16 8
  let seg (k : Nat) : Seg :=
    let w := f (128 + 16 * k) 16
    let q := (Config.bodyWord body (8 * i + k)).toNat
    { slot := bits q 0 4, skip := bitAt q 4, lane := bits q 5 2, off := bits w 0 44, len := bits w 96 32 }
  { tag := bits w0 0 48, st := stateOfCode (bits w0 48 4), idem := bitAt w0 52, cancel := bitAt w0 53, redrives := bits w0 54 4,
    token := BitVec.ofNat 64 (f 8 8), tenant := bits w2 0 12, part := bits w2 12 6, device := bits w2 18 12, engine := bits w2 30 7,
    path := bits w2 37 2, tried := BitVec.ofNat 4 (bits w2 39 4), issueTime := f 24 8, done := f 32 8, detail := f 40 2,
    cls := bits (f 42 1) 0 2, residual := f 44 4, devstatus := BitVec.ofNat 64 (f 48 8), op := b 8 1, flags := b 9 1, timeoutMs := b 12 4,
    devaddr := BitVec.ofNat 64 (b 16 8), devcmd := BitVec.ofNat 256 (b 32 32), segs := (List.range (min 8 (b 5 1))).map seg }

/-- A segment's slot on the destination covers it (R336 check 7). -/
def Tenant.covers (t : Tenant) (op : Nat) (g : Seg) : Bool :=
  g.skip || (let c := tget Cap.zero t.slots g.slot
    c.tag && decide (g.off + g.len ≤ capLen c) && capHas c (if op = 1 ∨ op = 4 then pSTORE else pLOAD))

/-- The first of checks 3 to 8 of R336 that a FROZEN entry fails on its destination page, as a status; 0 when it fails none
(R361). -/
def State.importFails (s : State) (pg : Nat) (e : Entry) : Nat :=
  let t := s.tenant pg
  let p := s.pagePart pg
  if !(tget Cap.zero t.slots 0).tag ∨ !(tget Cap.zero t.slots 1).tag then 0x0133
  else if e.tenant ≠ pg ∨ e.part ≠ p ∨ s.devType e.device = 0 ∨ s.devPart e.device ≠ p then 0x0130
  else if !e.segs.all (t.covers e.op) then 0x0133
  else if s.param 0x0B00 pg ≤ (s.pageSlots pg).length ∨
      s.param 0x0B01 p ≤ (s.chan.ledger.filter fun e => e.2.st != .free && e.2.part == p).length then 0x0131
  else 0

/-- Where an import stands: entries entered, entries posted as failed, whether a posting waited. -/
structure Importing where
  s : State
  entered : Nat := 0
  failed : Nat := 0
  waits : Bool := false
deriving DecidableEq, Repr

/-- A result for which the ledger has no slot, posted at once; one that the ring cannot take is counted unposted. -/
def Importing.post (m : Importing) (pg : Nat) (e : Entry) (cls detail residual : Nat) : Importing :=
  match m.s.postEntry pg (fun ph => completionBytes e.token.toNat e.tag cls detail e.redrives ph residual e.devstatus) (bitAt e.flags 2) with
  | (.waits, u) => { m with s := u, waits := true }
  | (.yes, u) => { m with s := u }
  | (_, u) => { m with s := u.modTenant pg fun t => { t with unposted := satBits 64 (t.unposted + 1) } }

/-- An entry put into a free slot, its place in the order of acceptance and of results renewed. -/
def State.enterSlot (s : State) (slot : Nat) (e : Entry) : State :=
  let n := s.chan.ledgerCount + 1
  let s1 := { s with freeCtr := s.freeCtr + 1, chan := { s.chan with ledgerCount := n } }
  s1.modEntry slot fun _ => { e with order := n, termOrder := n }

/-- One entry re-entered (R361). -/
def Importing.one (m : Importing) (pg : Nat) (e : Entry) : Importing :=
  if m.waits then m
  else
    let s := m.s
    let t := s.tenant pg
    let tagAt (slot : Nat) : Nat := (s.jalif.boot.number % 4096) * 2 ^ 36 + slot * 2 ^ 20 + tget 0 s.chan.slotGen slot
    let fails := s.importFails pg e
    match e.st, s.freeSlot with
    | .terminal, some k => { m with s := s.enterSlot k e, entered := m.entered + 1 }
    | .terminal, none => { m.post pg e e.cls e.detail e.residual with entered := m.entered + 1 }
    | .frozen, some k =>
      let base (g : Seg) : Seg := { g with base := if g.skip then 0 else (capBase (tget Cap.zero t.slots g.slot) + g.off) % 2 ^ 52 }
      let e1 := { e with tag := tagAt k, segs := if fails = 0 then e.segs.map base else e.segs }
      let s1 := s.enterSlot k e1
      if fails = 0 then { m with s := s1, entered := m.entered + 1 }
      else { m with s := s1.terminate k 1 fails e.left, failed := m.failed + 1 }
    | .frozen, none => { m.post pg e 1 (if fails = 0 then 0x0135 else fails) e.left with failed := m.failed + 1 }
    | _, _ => m

/-- CHANNEL_IMPORT (R361, R471): the whole import waits where one of its postings would. -/
def execChannelImport (mb : Mb) (pg : Nat) (buf : Buf) (s : State) : Host.Outcome State Fault Refusal :=
  done (s.request mb 0x27 .zero fun t =>
    if 4096 ≤ pg then t.respond mb 0x27 3 []
    else if !(t.tenant pg).frozen then t.respond mb 0x27 0x10 []
    else if !t.bufOk mb buf ∨ bufSize mb buf < 80 then t.respond mb 0x27 0x19 []
    else match t.bufIn mb buf 64 with
      | (none, u) => u
      | (some (hd, _), u) =>
        let n := 80 + 256 * fieldAt hd 24 4
        if bufSize mb buf < n then u.respond mb 0x27 0x12 []
        else match u.bufIn mb buf n with
          | (none, v) => v
          | (some (_, true), v) => v.respond mb 0x27 0x12 []
          | (some (xs, false), v) => match v.openImage xs (some 0x54504C47) 0x12 false with
            | .bad st => v.respond mb 0x27 st []
            | .good h body =>
              let es := if v.ownImage h then tget [] v.jalif.imgE h.counter else (List.range h.count).map (foreignEntry body)
              let m := es.foldl (fun (m : Importing) e => m.one pg e) { s := v }
              if m.waits then
                match s.ring pg with
                | some (a, k) => (v.hubLines (linesOf a (64 * 2 ^ k))).2
                | none => v
              else m.s.respond mb 0x27 0 [m.entered, m.failed])

/-! ### Tags (R471) -/

/-- A range of a command lies within the committed ranges of one partition, on granules, and is at most 1 GiB (R471). -/
def State.tagRange (s : State) (a n : Nat) : Option Nat :=
  if a % 16 = 0 ∧ n % 16 = 0 ∧ between 1 (2 ^ 30) n then
    (List.range 49).find? fun p => inRanges (s.partRanges p) a n && s.localRange a n
  else none

/-- The lines of a range that can hold a tag, ascending. -/
def State.taggedLines (s : State) (a n : Nat) : List Nat :=
  let ls := s.mem.tags.map (fun e => e.1 / 8) ++ s.home.journal.map (fun j => j.line) ++
    allSkeins.flatMap fun k => (s.sk k).lines.map fun e => e.1
  ((ls.filter fun l => decide (a / 128 ≤ l ∧ l ≤ (a + n - 1) / 128)).foldl (fun (t : Tbl Bool) l => tset false t l true) []).map
    fun e => e.1

/-- The tagged granules of a range in the fastened values of its lines: address and capability; none while a line waits. -/
def State.tagged (s : State) (a n : Nat) : Option (List (Nat × Cap)) × State :=
  let ls := s.taggedLines a n
  match s.hubLines ls with
  | (none, t) => (none, t)
  | (some vs, t) =>
    (some ((ls.zip vs).flatMap fun (l, v) => (List.range 8).filterMap fun g =>
      let c := lineCap v g
      let x := 128 * l + 16 * g
      if c.tag ∧ a ≤ x ∧ x < a + n then some (x, c) else none), t)

/-- TAGS_SAVE (R471): the image has a header of R416 and 24 bytes for each tagged granule (log 41). -/
def execTagsSave (mb : Mb) (addr len key : Nat) (buf : Buf) (s : State) : Host.Outcome State Fault Refusal :=
  done (s.request mb 0x28 .zero fun t =>
    if 7 < key then t.respond mb 0x28 3 []
    else if (t.tagRange addr len).isNone then t.respond mb 0x28 0x0B []
    else if !(t.migKey key).loaded then t.respond mb 0x28 0x14 []
    else if !t.bufOk mb buf then t.respond mb 0x28 0x19 []
    else match t.tagged addr len with
      | (none, u) => u
      | (some gs, u) =>
        let n := 80 + 24 * gs.length
        let (magic, u1) := u.freeBytes 4
        let h := u1.nextHead (leNat magic) 0 0 key 0 gs.length
        let img := u1.seal h (gs.flatMap fun e => leBytes 8 e.1 ++ leBytes 16 e.2.bits.toNat)
        if !roomFor mb buf n then u.respond mb 0x28 0x19 []
        else match u1.bufOut mb buf img with
          | (false, v) => v
          | (true, v) => v.imgTaken.respond mb 0x28 0 [n] (if mb.page = 49 then toBytes img else []))

/-- One recorded granule: its tag is set where its bytes are as recorded and its capability could be granted (R468, R471). -/
def State.retag (s : State) (p addr len a : Nat) (c : Cap) : Bool × State :=
  let l := lineOf a
  let g := a % 128 / 16
  if a % 16 ≠ 0 ∨ a < addr ∨ addr + len ≤ a ∨ !s.grants p c then (false, s)
  else match s.hubLine l with
    | (none, t) => (false, t)
    | (some v, t) =>
      if (lineCap v g).bits = c.bits ∧ !v.poison then (true, t.hubPut l fun v => linePutCap v g ⟨c.bits, true⟩) else (false, t)

/-- TAGS_RESTORE (R471). -/
def execTagsRestore (mb : Mb) (addr len : Nat) (buf : Buf) (s : State) : Host.Outcome State Fault Refusal :=
  done (s.request mb 0x29 .zero fun t => match t.tagRange addr len with
    | none => t.respond mb 0x29 0x0B []
    | some p =>
      if !t.bufOk mb buf ∨ bufSize mb buf < 80 then t.respond mb 0x29 0x19 []
      else match t.bufIn mb buf 64 with
        | (none, u) => u
        | (some (hd, _), u) =>
          let n := 80 + 24 * fieldAt hd 24 4
          if bufSize mb buf < n then u.respond mb 0x29 0x12 []
          else match u.bufIn mb buf n with
            | (none, v) => v
            | (some (_, true), v) => v.respond mb 0x29 0x12 []
            | (some (xs, false), v) => match v.openImage xs none 0x12 true with
              | .bad st => v.respond mb 0x29 st []
              | .good h body =>
                let rec_ (k : Nat) : Nat × Cap := (fieldAt body (24 * k) 8, ⟨BitVec.ofNat 128 (fieldAt body (24 * k + 8) 16), true⟩)
                let rs := (List.range h.count).map rec_
                let inside := rs.filter fun e => decide (addr ≤ e.1 ∧ e.1 < addr + len)
                match v.hubLines ((inside.map fun e => lineOf e.1).eraseDups) with
                | (none, w) => w
                | (some _, w) =>
                  let (yes, z) := rs.foldl (fun (q : Nat × State) e =>
                    let (b, u) := q.2.retag p addr len e.1 e.2
                    (q.1 + b2n b, u)) (0, w)
                  (z.noteImage h).respond mb 0x29 0 [yes, rs.length - yes])

end Sys2Proof.Machine
end

