-- ==== Sys2Proof/Machine/Power.lean ====
section
/-!
DEFINITION. Beads (R475 to R489): grants, power domains, frequency steps, telemetry, lending, and heat.
-/

namespace Sys2Proof.Machine

/-- The allowance of keeper d, in beads (R475). -/
def State.allowanceAt (s : State) (d : Nat) : Nat := if d < 12 then (s.sk d).allowance else s.power.hubAllow
/-- The beads lent to keeper d (R484). -/
def State.lentAt (s : State) (d : Nat) : Nat := if d < 12 then (s.sk d).lent else s.power.hubLent
/-- The beads lent to keeper d become v. -/
def State.setLent (s : State) (d v : Nat) : State :=
  if d < 12 then s.modSk d fun z => { z with lent := v } else s.modPower fun p => { p with hubLent := v }
/-- The sum of all granted totals, in thirty-seconds (R475, R503). -/
def State.grantedSum (s : State) : Nat := ((List.range 13).map s.grantedAt).sum
/-- The most that keeper d may have granted, in thirty-seconds (R479). -/
def State.limitAt (s : State) (d : Nat) : Nat := 32 * (s.allowanceAt d + s.lentAt d)

/-- The power domain of a bead request (R477, R504). -/
def BeadFor.inst (w : BeadFor) : Nat :=
  match w with
  | .ply k p | .step k p _ | .l2Way k p _ => 26 * k + p
  | .domain n => n
  | .l3Way k _ => 26 * k + 20
  | .pcUnit k _ | .floor k => 26 * k + 24
  | .edge k => 26 * k + 25

/-- The step for which a ply that is off is woken: a place that is being prepared runs at the target step, a ply under test at
step 0 (R160, R163, R482). -/
def State.wakeGoal (s : State) (k p : Nat) : Nat := if (s.ply k p).state = 5 then s.stepGoal k else 0

/-- The ply as a grant leaves it (R480, R235, R236). -/
def State.plyGranted (s : State) (w : BeadFor) : Option (Nat × Nat × Ply) :=
  match w with
  | .ply k p => some (k, p, { s.ply k p with wantStep := s.wakeGoal k p })
  | .step k p goal => let y := s.ply k p; some (k, p, { y with wantStep := if y.step = goal then 15 else goal })
  | .l2Way k p n => let y := s.ply k p; some (k, p, { y with l2Wait := y.l2Wait ||| BitVec.ofNat 17 (2 ^ n) })
  | _ => none

/-- The beads that a request needs as its owner now stands, in thirty-seconds (R476, R479). -/
def State.reqNeed (s : State) (r : BeadReq) : Nat :=
  match s.plyGranted r.what with
  | some (k, p, y) => y.beads - (s.ply k p).beads
  | none => match r.what with
    | .domain n => s.domainHolds n
    | _ => r.beads

/-- No raise is granted while the die's hardware throttles (R488). -/
def State.throttled (s : State) (w : BeadFor) : Bool :=
  match w with
  | .step k _ goal => (s.sk k).hard && goal != 0
  | _ => false

/-- The owner of a grant goes on with it: a step is taken, a gate is switched on, or a re-admission begins (R23, R478 to R480,
R499). -/
def State.useGrant (s0 : State) (w : BeadFor) : State :=
  let s := s0.gateOn w.inst
  match s.plyGranted w with
  | some (k, p, y) => s.modPly k p fun _ => y
  | none => match w with
    | .l3Way k n => s.modSk k fun z => { z with l3Wait := z.l3Wait ||| BitVec.ofNat 17 (2 ^ n) }
    | .pcUnit k c => s.modSk k fun z => { z with pcGate := z.pcGate ||| (if c then 2 else 1) }
    | .floor k => s.modSk k fun z => { z with linkState := 1 }
    | .edge k => s.edgeGranted k
    | _ => s

/-- The keeper grants the request at the head of its queue when its limit allows it (R479); loans never carry the sum of the
totals past 1,900 beads (R484). -/
def State.beadGrant (s : State) (d : Nat) : State :=
  match s.waitingAt d with
  | [] => s
  | r :: rest =>
    let need := s.reqNeed r
    if s.throttled r.what ∨ s.limitAt d < s.grantedAt d + need ∨ 60800 < s.grantedSum + need then s
    else ((s.setWaiting d rest).modGranted d (· + need)).useGrant r.what

/-- BEAD_GRANT (R479). -/
def execBeadGrant (d : DieId) (s : State) : Host.Outcome State Fault Refusal := done (s.beadGrant d)

/-- GRANT_WAIT_TIMEOUT (R479): once for each request that has waited longer than power.grant_wait_us; it goes on waiting. -/
def execGrantWaitTimeout (d : DieId) (s : State) : Host.Outcome State Fault Refusal :=
  done (
    let lim := s.param 0x1004 0 * 1000
    let due (r : BeadReq) : Bool := !r.late && decide (r.since + lim < s.time)
    let q := s.waitingAt d
    foldS (q.filter due) (fun r t => t.raise 0x0A00 r.what.inst)
      (s.setWaiting d (q.map fun r => if due r then { r with late := true } else r)))

/-- The highest step of a skein's plies, which sets its rail voltage (R481). -/
def State.railOf (s : State) (k : Nat) : Nat :=
  (List.range 20).foldl (fun m p => let y := s.ply k p; if y.step < 9 then max m y.step else m) 0
/-- The rail follows the plies (R481). -/
def State.setRail (s : State) (k : Nat) : State := s.modSk k fun z => { z with railStep := s.railOf k }

/-- Loans of keeper d given back, n beads at most, the latest first (R484, R485). -/
def unloan (d : Nat) : Nat → List (Nat × Nat) → List (Nat × Nat)
  | _, [] => []
  | n, l :: rest =>
    if l.1 ≠ d then l :: unloan d n rest
    else if l.2 ≤ n then unloan d (n - l.2) rest
    else (l.1, l.2 - n) :: rest

/-- A loan is repaid as the keeper's granted total falls back to its allowance (R484). -/
def State.repay (s : State) (d : Nat) : State :=
  let above := (s.grantedAt d + 31) / 32 - s.allowanceAt d
  let back := s.lentAt d - min above (s.lentAt d)
  if back = 0 then s
  else (s.setLent d (s.lentAt d - back)).modPower fun p => { p with reserve := p.reserve + back, loans := unloan d back p.loans }

/-- STEP_CHANGE_COMPLETE (R480, R481): one step nearer to the granted one; a fall returns its beads. -/
def State.stepDone (s : State) (k p : Nat) : State :=
  let y := s.ply k p
  if 9 ≤ y.step ∨ 9 ≤ y.wantStep ∨ y.step = y.wantStep then s
  else
    let n := if y.step < y.wantStep then y.step + 1 else y.step - 1
    let z := { y with step := n, wantStep := if n = y.wantStep then 15 else y.wantStep }
    (((s.modPly k p fun _ => z).returnBeads k (y.beads - z.beads)).setRail k).repay k

/-- STEP_CHANGE_COMPLETE (R480). -/
def execStepChangeComplete (sk : SkId) (pl : PlId) (s : State) : Host.Outcome State Fault Refusal := done (s.stepDone sk pl)

/-- WAIT_DROP (R482): the spindles of a ply, both on a Split one, have been in WAIT for power.wait_drop_us. -/
def execWaitDrop (sk : SkId) (pl : PlId) (s : State) : Host.Outcome State Fault Refusal :=
  done (
    let on := s.spindlesOn sk pl
    if s.param 0x1003 0 ≠ 0 ∧ !on.isEmpty ∧ on.all (fun i => (s.sp i).waitUntil.isSome &&
        decide ((s.sp i).waitFrom + s.param 0x1003 0 * 1000 ≤ s.time)) then s.aimPly sk pl 0 else s)

/-! ### Power domains (R477, R478) -/

/-- What a hub domain that is on serves begins (R287, R317, R369, R378): the channel trains, ports and sites train. -/
def State.domainUp (s : State) (n : Nat) : State :=
  if between 320 335 n then
    (if (s.mch (n - 320)).state = 2 ∧ (s.mch (n - 320)).retrain.isSome then s.modMch (n - 320) fun m => { m with state := 3 } else s)
  else if between 348 353 n then
    foldS ((List.range 4).map fun j => 4 * (n - 348) + j) (fun q t =>
      if t.flexExists q ∧ (t.flexP q).state = 0 then t.modFlex q fun x => { x with state := 1 } else t) s
  else if between 354 357 n then
    foldS ((List.range 3).map fun j => 3 * (n - 354) + j) (fun k t =>
      if bitAt (t.param 0x0C40 k) 0 ∧ (t.rack k).state = 0 then t.modRack k fun x => { x with state := 1 } else t) s
  else if between 358 359 n ∧ s.param 0x0940 (n - 358) = 1 then s.modSite (n - 358) fun x => { x with state := 1 }
  else s

/-- The ways whose gates are on serve, empty (R235, R236). -/
def Ply.waysOn (y : Ply) : Ply :=
  { y with l2On := y.l2On ||| y.l2Wait.setWidth 16, l2State := if y.l2Wait.getLsbD 16 then 0 else y.l2State, l2Wait := 0 }
/-- The L3 ways whose gates are on serve, empty. -/
def Skein.waysOn (z : Skein) : Skein :=
  { z with l3On := z.l3On ||| z.l3Wait.setWidth 16, l3State := if z.l3Wait.getLsbD 16 then 0 else z.l3State, l3Wait := 0 }

/-- A ply that is powered begins at step 0 (R476, R480). -/
def Ply.wake (y : Ply) : Ply := { y with step := 0, wantStep := if y.wantStep = 0 then 15 else y.wantStep }
/-- The ply's gate is being switched on. -/
def Ply.waking (y : Ply) : Bool := decide (9 ≤ y.step ∧ y.wantStep < 9)

/-- DOMAIN_POWER_ON_COMPLETE (R236, R392, R478): the gate of a granted domain reports on. -/
def State.domainOn (s : State) (n : Nat) : State :=
  let k := n / 26
  let j := n % 26
  if 371 < n then s
  else if 312 ≤ n then (if s.domainState n = 2 && !s.domainWaits n then (s.setDomain n 1).domainUp n else s)
  else if j < 20 then
    (if (s.ply k j).waking then (s.modPly k j Ply.wake).setRail k else s.modPly k j Ply.waysOn)
  else if j < 24 then s.modSk k Skein.waysOn
  else if j = 24 then
    s.modSk k fun z => { z with
      press := if z.pcGate.getLsbD 0 then 1 else z.press, cipher := if z.pcGate.getLsbD 1 then 1 else z.cipher,
      pIdleAt := if z.pcGate.getLsbD 0 then s.time else z.pIdleAt, cIdleAt := if z.pcGate.getLsbD 1 then s.time else z.cIdleAt,
      pcGate := 0 }
  else s

/-- DOMAIN_POWER_ON_COMPLETE (R478). -/
def execDomainPowerOnComplete (d : Nat) (s : State) : Host.Outcome State Fault Refusal := done (s.domainOn d)

/-- A skein that fails to admit returns its beads, and its hub port is off again (R477, R485, R499). -/
def State.admitReturns (s : State) (k : Nat) : State :=
  let a := (s.sk k).allowance
  let s0 := if s.domainState (360 + k) = 5 then s else s.dropDomain (360 + k) 0
  (s0.modSk k fun z => { z with granted := 0, waiting := [], linkState := 0, allowance := 0 }).modPower fun p =>
    { p with reserve := p.reserve + a }
/-- It stays out until the next reel reset (R499). -/
def State.admitFails (s : State) (k : Nat) : State :=
  ((s.admitReturns k).modSk k fun z => { z with outForGood := true }).raise 0x0A0A k

/-- What a hub domain that does not power on serves is handled as lost (R478): a skein whose port is, stays out (R499). -/
def State.domainLost (s : State) (n : Nat) : State :=
  if between 320 335 n then s.retrainAnswer (n - 320) 0x15
  else if between 348 353 n then
    foldS (((List.range 4).map fun j => 4 * (n - 348) + j).filter s.flexExists) (fun q t => t.contain q) s
  else if between 354 357 n then
    foldS (((List.range 3).map fun j => 3 * (n - 354) + j).filter fun k => bitAt (s.param 0x0C40 k) 0) (fun k t => t.rackDown k) s
  else if between 360 371 n then (if (s.sk (n - 360)).lost then s.admitFails (n - 360) else s)
  else s

/-- DOMAIN_POWER_UP_TIMEOUT (R478): 100 µs after the switching of its gate the domain stays off, its beads return, and its owner
handles it as failed. -/
def State.domainTimeout (s : State) (n : Nat) : State :=
  let k := n / 26
  let j := n % 26
  let z := s.sk k
  if 371 < n ∨ !s.gateLate n then s
  else if 312 ≤ n then
    (if s.domainState n = 2 && !s.domainWaits n then ((s.dropDomain n 5).raise 0x0A01 n).domainLost n else s)
  else if j < 20 then
    let y := s.ply k j
    if y.waking then (s.raise 0x0A01 n).failPly k j none
    else if y.l2Wait = 0 then s
    else
      let off := { y with l2Wait := 0 }
      ((s.modPly k j fun _ => off).returnBeads k (y.beads - off.beads)).raise 0x0A01 n
  else if j < 24 then
    (if z.l3Wait = 0 then s
      else
        let whole := z.l3Wait.getLsbD 16
        let ways := if whole then popCount 16 (z.l3On ||| z.l3Wait.setWidth 16).toNat
          else if z.l3State = 2 then 0 else popCount 16 (z.l3Wait.setWidth 16).toNat
        ((s.modSk k fun z => { z with l3Wait := 0 }).returnBeads k (32 * ways)).raise 0x0A01 n)
  else if j = 24 ∧ z.pcGate ≠ 0 then
    let back := (if z.pcGate.getLsbD 0 then 96 else 0) + (if z.pcGate.getLsbD 1 then 128 else 0)
    ((s.modSk k fun z => { z with
      press := if z.pcGate.getLsbD 0 then 3 else z.press, cipher := if z.pcGate.getLsbD 1 then 3 else z.cipher,
      pcGate := 0 }).returnBeads k back).raise 0x0A01 n
  else s

/-- DOMAIN_POWER_UP_TIMEOUT (R478). -/
def execDomainPowerUpTimeout (d : Nat) (s : State) : Host.Outcome State Fault Refusal := done (s.domainTimeout d)

/-! ### Telemetry and lending (R483 to R486) -/

/-- One die's sample (R483, R486): the third in a row above the margin raises the rail-over-grant fault. -/
def State.dieSample (s : State) (d : Nat) (x : DieSample) : State :=
  let above := decide (s.grantedAt d + 32 * s.param 0x1008 0 < x.current)
  let n := if above then min 255 ((if d < 12 then (s.sk d).overGrant else s.power.hubOver) + 1) else 0
  let s1 := if d < 12 then s.modSk d fun z => { z with temp := min 127 x.temp, overGrant := n }
    else s.modPower fun p => { p with hubTemp := min 127 x.temp, hubOver := n }
  let s2 := s1.modPower fun p => { p with current := tset 0 p.current d (x.current % 65536) }
  if n = 3 then s2.raise 0x0A05 d else s2

/-- Rails whose regulators report a fault (R504, R512): each new one raises the regulator fault. -/
def State.regFaults (s : State) (rails : List Nat) : State :=
  foldS (rails.filter fun r => decide (r < 24)) (fun r t =>
    if t.power.regFault.getLsbD r then t
    else (t.modPower fun p => { p with regFault := p.regFault ||| BitVec.ofNat 24 (2 ^ r) }).raise 0x0A06 r) s

/-- TELEMETRY_SAMPLE (R483), every 100 µs: the dies' and regulators' reports; a regulator that reports no fault has none
uncleared. -/
def execTelemetrySample (t : Telemetry) (s : State) : Host.Outcome State Fault Refusal :=
  done (
    if s.life = .off ∨ s.life = .halt ∨ s.time < s.power.nextSample then s
    else
      let s0 := s.modPower fun p => { p with nextSample := s.time + 100000 }
      let s1 := foldS (List.range 13) (fun d u => match t.dies[d]? with
        | some x => u.dieSample d x
        | none => u) s0
      let s2 := s1.modPower fun p => { p with
        regFault := p.regFault &&& BitVec.ofNat 24 (((t.faults.filter fun r => decide (r < 24)).eraseDups.map fun r => 2 ^ r).sum) }
      s2.regFaults t.faults)

/-- The beads that keeper d lacks for its waiting requests. -/
def State.lacks (s : State) (d : Nat) : Nat :=
  ((((s.waitingAt d).map s.reqNeed).sum + s.grantedAt d) - s.limitAt d + 31) / 32

/-- Reserve beads lent to keeper d (R484). -/
def State.lendTo (s : State) (d : Nat) : State :=
  let room := (60800 - min 60800 s.grantedSum) / 32
  let n := min (min (s.lacks d) (s.param 0x1005 0 - s.lentAt d)) (min s.power.reserve room)
  if n = 0 then s
  else (s.setLent d (s.lentAt d + n)).modPower fun p => { p with reserve := p.reserve - n, loans := (d, n) :: p.loans }

/-- The keepers whose requests wait, by their oldest request. -/
def State.lendOrder (s : State) : List Nat :=
  let ds := (List.range 13).filterMap fun d => match s.waitingAt d with
    | [] => none
    | r :: rest => some (d, rest.foldl (fun m q => min m q.since) r.since)
  (ds.foldl (fun (t : Tbl Nat) e => tset 99 t (e.2 * 16 + e.1) e.1) []).map fun e => e.2

/-! ### Heat (R487 to R489) -/

/-- A skein's granted total once the falls under way have taken effect. -/
def State.projected (s : State) (k : Nat) : Nat :=
  (s.sk k).granted - ((List.range 20).map fun p =>
    let y := s.ply k p
    if y.wantStep < y.step ∧ y.step < 9 then y.beads - ({ y with step := y.wantStep, wantStep := 15 } : Ply).beads else 0).sum

/-- The hosting ply bound for the highest step, the lowest number among equals; none when all are bound for step 0. -/
def State.shedPly (s : State) (k : Nat) : Option Nat :=
  (List.range 20).foldl (fun (m : Option Nat) p =>
    let y := s.ply k p
    if y.state ≠ 0 ∨ 9 ≤ y.step ∨ y.aim = 0 then m
    else match m with
      | some q => if (s.ply k q).aim < y.aim then some p else m
      | none => some p) none

/-- A skein keeper above its limit sheds: hosting plies step down one step each, and their raises wait (R487). -/
def State.shedSkein (k : Nat) : Nat → State → State
  | 0, s => s
  | n + 1, s =>
    if s.projected k ≤ s.limitAt k then s
    else match s.shedPly k with
      | none => s
      | some p =>
        let a := (s.ply k p).aim
        let goal := s.stepGoal k
        let s1 := s.lowerPly k p (a - 1)
        State.shedSkein k n (if a - 1 < goal then s1.askBeads k 5 (32 * (stepBeads goal - stepBeads (a - 1))) (.step k p goal) else s1)

/-- What the lane pairs and engine groups that are on hold. -/
def State.rateBeads (s : State) : Nat :=
  ((natsFrom 336 12).map fun n => if s.domainState n = 1 then s.domainHolds n else 0).sum

/-- The hub's rates are halved once more, or once less: the total moves with what the groups hold (R487). -/
def State.setHubRate (s : State) (n : Nat) : State :=
  let s1 := s.modPower fun p => { p with hubRate := n }
  s1.modPower fun p => { p with hubGranted := p.hubGranted + s1.rateBeads - s.rateBeads }

/-- The hub keeper above its limit halves the dispatch rate of the lane pairs, then of the engine groups, and so on (R487). -/
def State.shedHub : Nat → State → State
  | 0, s => s
  | n + 1, s => if s.power.hubGranted ≤ s.limitAt 12 then s else State.shedHub n (s.setHubRate (s.power.hubRate + 1))

/-- Halvings end, the latest first, as the hub's limit allows (R487). -/
def State.unshedHub : Nat → State → State
  | 0, s => s
  | n + 1, s =>
    let t := s.setHubRate (s.power.hubRate - 1)
    if s.power.hubRate = 0 ∨ !s.power.hubWait.isEmpty ∨ t.limitAt 12 < t.power.hubGranted then s else State.unshedHub n t

/-- A keeper whose granted total exceeds its allowance and loans sheds (R487). -/
def State.shed (s : State) (d : Nat) : State :=
  if d < 12 then (if s.skeinUp d then State.shedSkein d 160 s else s) else State.shedHub 8 s

/-- The allowance of keeper d with n beads withdrawn for heat (R487). -/
def State.setHeat (s : State) (d heat : Nat) : State :=
  let h := if d < 12 then (s.sk d).heat else s.power.hubHeat
  let a := s.allowanceAt d + h - heat
  if d < 12 then s.modSk d fun z => { z with allowance := a, heat := heat, soft := heat != 0 }
  else s.modPower fun p => { p with hubAllow := a, hubHeat := heat, hubSoft := heat != 0 }

/-- Soft withdrawal and return for keeper d (R487). -/
def State.heatStep (s : State) (d : Nat) : State :=
  let temp := if d < 12 then (s.sk d).temp else s.power.hubTemp
  let heat := if d < 12 then (s.sk d).heat else s.power.hubHeat
  let floor := ((if d < 12 then s.skeinFloor s d else s.hubFloor s) + 31) / 32
  let soft := s.param 0x1006 0
  let n := s.param 0x1007 0
  if d < 12 ∧ !s.skeinUp d then s
  else if soft < temp then
    let m := min n (s.allowanceAt d - floor)
    let s1 := s.setHeat d (heat + m)
    if heat = 0 ∧ m ≠ 0 then s1.raise 0x0A02 d else s1
  else if temp + 2 ≤ soft ∧ heat ≠ 0 then s.setHeat d (heat - min n heat)
  else s

/-- REBALANCE (R483 to R487), every 1 ms: loans are repaid and made, then heat is answered, and keepers above their limits shed. -/
def State.rebalance (s : State) : State :=
  if s.life = .off ∨ s.life = .halt ∨ s.time < s.power.nextRebal then s
  else
    let s0 := s.modPower fun p => { p with nextRebal := s.time + 1000000 }
    let s1 := foldS (List.range 13) (fun d t => t.repay d) s0
    let s2 := foldS s1.lendOrder (fun d t => t.lendTo d) s1
    let s3 := foldS (List.range 13) (fun d t => t.heatStep d) s2
    State.unshedHub 8 (foldS (List.range 13) (fun d t => t.shed d) s3)

/-- REBALANCE (R483). -/
def execRebalance (s : State) : Host.Outcome State Fault Refusal := done s.rebalance

/-- The reel has power and Jalif has not halted it. -/
def State.live (s : State) : Bool := s.life != .off && s.life != .halt

/-- THERMAL_THROTTLE (R488): in the die's hardware, every ply drops to step 0; the hub's rates are held to half. -/
def execThermalThrottle (d : DieId) (s : State) : Host.Outcome State Fault Refusal :=
  done (
    let k := d.val
    if !s.live then s
    else if k = 12 then (if s.power.hubHard then s else (s.modPower fun p => { p with hubHard := true, hubHardAt := s.time }).raise 0x0A03 12)
    else if !s.skeinUp k ∨ (s.sk k).hard then s
    else
      let s1 := s.modSk k fun z => { z with hard := true, hardAt := s.time }
      (foldS (List.range 20) (fun p t => t.lowerPly k p 0) s1).raise 0x0A03 k)

/-- THROTTLE_RELEASE (R488): the die has stayed below 93 °C for 1 ms, so the throttle came at least 1 ms ago; the raises are then
granted under R479. -/
def execThrottleRelease (d : DieId) (s : State) : Host.Outcome State Fault Refusal :=
  done (
    let k := d.val
    if k = 12 then (if s.time < s.power.hubHardAt + 1000000 then s else s.modPower fun p => { p with hubHard := false })
    else if !(s.sk k).hard ∨ s.time < (s.sk k).hardAt + 1000000 then s
    else (s.modSk k fun z => { z with hard := false }).aimSkein k)

/-- Every power domain but 312 is gated off (R516). -/
def State.gateAll (s : State) : State :=
  let s1 := foldS allSkeins (fun k t =>
    (foldS (List.range 20) (fun p u => u.modPly k p fun y => { y with step := 15, wantStep := 15, l2Wait := 0 }) t).modSk k fun z =>
      { z with granted := 0, waiting := [], press := 0, cipher := 0, pcGate := 0, railStep := 0 }) s
  s1.modPower fun p => { p with domains := [(312, 1)], hubGranted := 0, hubWait := [], hubRate := 0 }

/-- THERMAL_TRIP (R489, R516): THERMTRIP_N is driven low and the domains are gated, and HALT follows as for every reel-fatal
event. -/
def execThermalTrip (d : DieId) (s : State) : Host.Outcome State Fault Refusal :=
  done (if s.life = .off then s
    else
      let s1 := (s.modPins fun p => { p with tripLow := true }).raise 0x0A04 d
      s1.gateAll.halt)

end Sys2Proof.Machine
end

