-- ==== Sys2Proof/Machine/Admit.lean ====
section
/-!
DEFINITION. Re-admission of a lost skein (R205, R498, R499), and the ply and skein records with which a skein starts, at boot
and at re-admission.
-/

namespace Sys2Proof.Machine

/-- A ply that starts in a state, under the committed masks (R171, R174, R237, R239): a hosting ply and a warm spare are powered
at step 0 with the held draft image. -/
def State.plyStart (s : State) (k p st : Nat) : Ply :=
  let on := decide (st ≤ 1)
  { state := st, step := if on then 0 else 15, draftVersion := if on then s.jalif.draftVer else 0, draft := if on then s.jalif.draftCode else [],
    retryTotal := (s.ply k p).retryTotal, cmpMask := if !(s.sk k).split && st ≤ 2 then ~~~(0 : Word) else 0,
    l2State := if s.param 0x0705 (20 * k + p) = 0 then 2 else 0, l2On := BitVec.ofNat 16 (s.param 0x0707 (20 * k + p)) }

/-- The beads that a skein's plies, L3, fabric and edge hold, in thirty-seconds (R476, R477). -/
def State.skeinHolds (s : State) (k : Nat) : Nat :=
  let z := s.sk k
  ((List.range 20).map fun p => (s.ply k p).beads).sum + 4 * 64 + 128 + z.edgeBeads +
    (if z.l3State = 2 then 0 else 32 * popCount 16 z.l3On.toNat)

/-- A skein that starts: fresh but for what the hub keeps of it, under the committed configuration (R205, R237, R467). -/
def State.skeinStart (s : State) (k : Nat) : State :=
  s.modSk k fun z =>
    let loose := s.param 0x0601 k == 1
    { present := true, barrierAt := s.time, epochCycles := s.param 0x0600 k, split := z.split, loose := loose, pair := if loose then 3 else 1, fastens := z.fastens, forced := z.forced,
      spills := z.spills, replayTot := z.replayTot, dieGen := s.jalif.gen, temp := z.temp, resetLast := z.resetLast,
      l3Corrected := z.l3Corrected, l3State := if s.param 0x0706 k = 0 then 2 else 0,
      l3On := BitVec.ofNat 16 (s.param 0x0708 k), entropyOk := true, allowance := z.allowance, dbl := z.dbl }

/-- The mask of groups that flagged in the comparator test of a ply, where it failed. -/
def cmpMaskOf (bad : List (Nat × Word)) (n : Nat) : Option Word := (bad.find? fun e => e.1 == n).map (·.2)

/-- Plies whose comparator test or draft load failed are declared failed (R164, R168): of the first the mask of groups is recorded
and logged. -/
def State.startFailures (s : State) (k : Nat) (ps : List Nat) (mask : Nat → Option Word) : State :=
  foldS ps (fun p t =>
    let u := t.modPly k p fun y => { y with failedAt := t.time }
    match mask p with
    | some m => (u.modPly k p fun y => { y with cmpMask := m }).raiseD 0x0101 (20 * k + p) none m.toNat
    | none => u.raise 0x0101 (20 * k + p)) s

/-- The hub may begin or go on with the re-admission of skein k (R498): steps 2 to 8 of R197 are complete, no rung-3 record but
one whose owning chapter prescribes re-admission (R154, R172, R223) is uncleared, and its rail and its reference are good. -/
def State.admissible (s : State) (k : Nat) (r : AdmitResult) : Bool :=
  let z := s.sk k
  let swept := (List.range 4).all fun h => !(s.homeOf h).sweep
  let hosted := s.jalif.rehost.all fun i => (s.sp i).lostFrom != some k
  let held := s.faults.active.any fun a => a.skein == some k && a.src != 0x0104 && a.src != 0x0109 && a.src != 0x0306
  s.running && z.lost && !z.outForGood && swept && hosted && (s.sk (buddyOf k)).promo.isEmpty && !held && s.pins.pgCore.getLsbD k &&
    !s.power.regFault.getLsbD k && (!z.lostClock || r.refRuns)

/-- Loans recalled, latest first, until the reserve holds n beads (R485); their keepers shed. -/
def State.recallLoans (s : State) (n : Nat) : State :=
  foldS s.power.loans (fun l t =>
    let m := min l.2 (n - t.power.reserve)
    if m = 0 then t
    else ((t.setLent l.1 (t.lentAt l.1 - m)).modPower fun p => { p with
      reserve := p.reserve + m, loans := unloan l.1 m p.loans }).shed l.1) s

/-- Step 1 of R498: the skein's allowance returns to its account, and the floor of 52 beads is asked for, with those of the skein's
port on the hub, which its admission switches on (R477). -/
def State.askFloor (s : State) (k : Nat) : State :=
  let a := s.param 0x1000 k
  let s1 := if (s.sk k).allowance ≠ 0 then s
    else ((s.recallLoans a).modPower fun p => { p with reserve := p.reserve - a }).modSk k fun z => { z with allowance := a }
  (s1.askBeads k 1 (52 * 32) (.floor k)).wantDomain (360 + k)

/-- Steps 2 to 6 of R498, the floor being granted. -/
def State.admitGoes (s : State) (k : Nat) (r : AdmitResult) : State :=
  let z := s.sk k
  let good := (List.range 20).filter fun p => r.plyGood.getLsbD p && !(z.split && (s.ply k p).state == 3)
  let mask (p : Nat) : Option Word := if z.split then none else cmpMaskOf r.cmpBad p
  let works (p : Nat) : Bool := (mask p).isNone && r.draftOk.getLsbD p && s.jalif.draftCrcOk
  if !r.pllOk then
    let s1 := s.modSk k fun z => { z with admitTries := z.admitTries + 1 }
    if z.admitTries < 2 then s1.admitReturns k else s1.admitFails k
  else
    let s1 := if z.linkState = 1 then s.train k r.masks else s
    if (s1.sk k).hubWidth = 0 ∨ !r.testOk ∨ good.length < s.param 0x0504 0 then s1.admitFails k
    else
      let links := s1.sk k
      let s2 := foldS ((s1.home.journal.filter fun j => j.skein == k).map (·.line)) (fun l t => t.journalBack k l) s1
      let s3 := (s2.skeinStart k).modSk k fun z => {
        z.withLinks links s.time with returned := true }
      let spare := if s.param 0x0503 0 = 1 then 1 else 2
      let s4 := foldS (List.range 20) (fun p t => t.modPly k p fun y =>
        let st := if !good.contains p then (if y.state = 3 then 3 else 6) else if works p then spare else 3
        t.plyStart k p st) s3
      let groups := s4.faults.groups.filter fun g => g.1 / 65536 == 10 || skeinOfInstance (256 * (g.1 / 65536)) (g.1 % 65536) != some k
      let s5 := (s4.modFaults fun f => { f with groups := groups }).modSk k fun z => { z with granted := s4.skeinHolds k }
      let s6 := foldS (k :: skeinKeys k) (fun n t => t.setFence n {}) s5
      (s6.startFailures k (good.filter fun p => !works p) mask).relife

/-- SKEIN_READMISSION (R485, R498, R499), with the skein's power-good pin as it stands: the floor is asked for, and once it is granted the skein trains, is tested and is
admitted. -/
def execSkeinReadmission (sk : SkId) (r : AdmitResult) (s : State) : Host.Outcome State Fault Refusal :=
  done (
    let s1 := if r.pgHigh then s.modPins fun p => { p with pgCore := p.pgCore ||| BitVec.ofNat 13 (2 ^ sk.val) } else s
    if !s1.admissible sk r then s1
    else if (s1.sk sk).linkState = 0 then s1.askFloor sk
    else if s1.domainState (360 + sk) = 1 then s1.admitGoes sk r else s1.wantDomain (360 + sk))

end Sys2Proof.Machine
end

