-- ==== Sys2Proof/Machine/Arith.lean ====
section
/-!
DEFINITION. The triggers of the ALUs, the multiplier and the divider (R63, R79 to R84), each issued as R50 gives.
-/

namespace Sys2Proof.Machine

/-- ADD (R79): the ALU adds a and b modulo 2^64 and sets C and V. -/
def execAdd (sp : SpId) (u : AluId) (a : Word) (s : State) : Host.Outcome State Fault Refusal :=
  done (s.issueTrig sp u 4 0 (ofWord a))

/-- SUB (R79): the ALU subtracts b from a and sets the borrow and V. -/
def execSub (sp : SpId) (u : AluId) (a : Word) (s : State) : Host.Outcome State Fault Refusal :=
  done (s.issueTrig sp u 5 0 (ofWord a))

/-- ADDT (R79): the ALU adds a and b; a signed overflow sets V and raises an integer-overflow event. -/
def execAddt (sp : SpId) (u : AluId) (a : Word) (s : State) : Host.Outcome State Fault Refusal :=
  done (s.issueTrig sp u 6 0 (ofWord a))

/-- SUBT (R79): the ALU subtracts b from a; a signed overflow sets V and raises an integer-overflow event. -/
def execSubt (sp : SpId) (u : AluId) (a : Word) (s : State) : Host.Outcome State Fault Refusal :=
  done (s.issueTrig sp u 7 0 (ofWord a))

/-- AND (R79): the ALU computes a AND b. -/
def execAnd (sp : SpId) (u : AluId) (a : Word) (s : State) : Host.Outcome State Fault Refusal :=
  done (s.issueTrig sp u 8 0 (ofWord a))

/-- OR (R79): the ALU computes a OR b. -/
def execOr (sp : SpId) (u : AluId) (a : Word) (s : State) : Host.Outcome State Fault Refusal :=
  done (s.issueTrig sp u 9 0 (ofWord a))

/-- XOR (R79): the ALU computes a XOR b. -/
def execXor (sp : SpId) (u : AluId) (a : Word) (s : State) : Host.Outcome State Fault Refusal :=
  done (s.issueTrig sp u 10 0 (ofWord a))

/-- ANDN (R79): the ALU computes a AND NOT b. -/
def execAndn (sp : SpId) (u : AluId) (a : Word) (s : State) : Host.Outcome State Fault Refusal :=
  done (s.issueTrig sp u 11 0 (ofWord a))

/-- SHL (R80): the ALU shifts a left by b[5:0]. -/
def execShl (sp : SpId) (u : AluId) (a : Word) (s : State) : Host.Outcome State Fault Refusal :=
  done (s.issueTrig sp u 12 0 (ofWord a))

/-- SHR (R80): the ALU shifts a right logically by b[5:0]. -/
def execShr (sp : SpId) (u : AluId) (a : Word) (s : State) : Host.Outcome State Fault Refusal :=
  done (s.issueTrig sp u 13 0 (ofWord a))

/-- SAR (R80): the ALU shifts a right arithmetically by b[5:0]. -/
def execSar (sp : SpId) (u : AluId) (a : Word) (s : State) : Host.Outcome State Fault Refusal :=
  done (s.issueTrig sp u 14 0 (ofWord a))

/-- ADDC (R80): the ALU adds a, b and its own C flag. -/
def execAddc (sp : SpId) (u : AluId) (a : Word) (s : State) : Host.Outcome State Fault Refusal :=
  done (s.issueTrig sp u 15 0 (ofWord a))

/-- MUL (R81): the multiplier returns the low 64 bits of a times b. -/
def execMul (sp : SpId) (a : Word) (s : State) : Host.Outcome State Fault Refusal :=
  done (s.issueTrig sp 4 4 0 (ofWord a))

/-- UMUL (R81): the multiplier returns the unsigned 128-bit product. -/
def execUmul (sp : SpId) (a : Word) (s : State) : Host.Outcome State Fault Refusal :=
  done (s.issueTrig sp 4 5 0 (ofWord a))

/-- SMUL (R81): the multiplier returns the signed 128-bit product. -/
def execSmul (sp : SpId) (a : Word) (s : State) : Host.Outcome State Fault Refusal :=
  done (s.issueTrig sp 4 6 0 (ofWord a))

/-- MULT (R81): the multiplier returns the signed product; a product outside 64 bits sets V and raises an integer-
overflow event. -/
def execMult (sp : SpId) (a : Word) (s : State) : Host.Outcome State Fault Refusal :=
  done (s.issueTrig sp 4 7 0 (ofWord a))

/-- UDIV (R83): the divider returns the unsigned quotient, with the fixed edge results. -/
def execUdiv (sp : SpId) (a : Word) (s : State) : Host.Outcome State Fault Refusal :=
  done (s.issueTrig sp 5 4 0 (ofWord a))

/-- SDIV (R83): the divider returns the signed quotient rounded toward zero. -/
def execSdiv (sp : SpId) (a : Word) (s : State) : Host.Outcome State Fault Refusal :=
  done (s.issueTrig sp 5 5 0 (ofWord a))

/-- UREM (R83): the divider returns the unsigned remainder. -/
def execUrem (sp : SpId) (a : Word) (s : State) : Host.Outcome State Fault Refusal :=
  done (s.issueTrig sp 5 6 0 (ofWord a))

/-- SREM (R83): the divider returns the signed remainder, which takes the sign of a. -/
def execSrem (sp : SpId) (a : Word) (s : State) : Host.Outcome State Fault Refusal :=
  done (s.issueTrig sp 5 7 0 (ofWord a))

end Sys2Proof.Machine
end

