-- ==== Sys2Proof/Machine/BitUnits.lean ====
section
/-!
DEFINITION. The triggers of the bit unit and the compare unit (R63, R85 to R87), each issued as R50 gives.
-/

namespace Sys2Proof.Machine

/-- EXTU (R85): the bit unit extracts a field of a, zero-extended. -/
def execExtu (sp : SpId) (a : Word) (s : State) : Host.Outcome State Fault Refusal :=
  done (s.issueTrig sp 9 4 0 (ofWord a))

/-- EXTS (R85): the bit unit extracts a field of a, sign-extended. -/
def execExts (sp : SpId) (a : Word) (s : State) : Host.Outcome State Fault Refusal :=
  done (s.issueTrig sp 9 5 0 (ofWord a))

/-- INS (R85): the bit unit inserts a field into the result-socket target. -/
def execIns (sp : SpId) (a : Word) (s : State) : Host.Outcome State Fault Refusal :=
  done (s.issueTrig sp 9 6 0 (ofWord a))

/-- CLZ (R85): the bit unit counts the leading zero bits of a. -/
def execClz (sp : SpId) (a : Word) (s : State) : Host.Outcome State Fault Refusal :=
  done (s.issueTrig sp 9 7 0 (ofWord a))

/-- CTZ (R85): the bit unit counts the trailing zero bits of a. -/
def execCtz (sp : SpId) (a : Word) (s : State) : Host.Outcome State Fault Refusal :=
  done (s.issueTrig sp 9 8 0 (ofWord a))

/-- POPC (R85): the bit unit counts the 1 bits of a. -/
def execPopc (sp : SpId) (a : Word) (s : State) : Host.Outcome State Fault Refusal :=
  done (s.issueTrig sp 9 9 0 (ofWord a))

/-- PERM (R86): the bit unit permutes the bytes of a under the selectors in b. -/
def execPerm (sp : SpId) (a : Word) (s : State) : Host.Outcome State Fault Refusal :=
  done (s.issueTrig sp 9 10 0 (ofWord a))

/-- BSWAP (R85): the bit unit reverses the bytes of a. -/
def execBswap (sp : SpId) (a : Word) (s : State) : Host.Outcome State Fault Refusal :=
  done (s.issueTrig sp 9 11 0 (ofWord a))

/-- ROL (R85): the bit unit rotates a left. -/
def execRol (sp : SpId) (a : Word) (s : State) : Host.Outcome State Fault Refusal :=
  done (s.issueTrig sp 9 12 0 (ofWord a))

/-- ROR (R85): the bit unit rotates a right. -/
def execRor (sp : SpId) (a : Word) (s : State) : Host.Outcome State Fault Refusal :=
  done (s.issueTrig sp 9 13 0 (ofWord a))

/-- EQ (R87): the compare unit tests a = b and may write a predicate. -/
def execCmpEq (sp : SpId) (m : Modifier) (a : Word) (s : State) : Host.Outcome State Fault Refusal :=
  done (s.issueTrig sp 16 4 m.toNat (ofWord a))

/-- NE (R87): the compare unit tests a ≠ b. -/
def execCmpNe (sp : SpId) (m : Modifier) (a : Word) (s : State) : Host.Outcome State Fault Refusal :=
  done (s.issueTrig sp 16 5 m.toNat (ofWord a))

/-- LT (R87): the compare unit tests a < b, signed. -/
def execCmpLt (sp : SpId) (m : Modifier) (a : Word) (s : State) : Host.Outcome State Fault Refusal :=
  done (s.issueTrig sp 16 6 m.toNat (ofWord a))

/-- LE (R87): the compare unit tests a ≤ b, signed. -/
def execCmpLe (sp : SpId) (m : Modifier) (a : Word) (s : State) : Host.Outcome State Fault Refusal :=
  done (s.issueTrig sp 16 7 m.toNat (ofWord a))

/-- LTU (R87): the compare unit tests a < b, unsigned. -/
def execCmpLtu (sp : SpId) (m : Modifier) (a : Word) (s : State) : Host.Outcome State Fault Refusal :=
  done (s.issueTrig sp 16 8 m.toNat (ofWord a))

/-- LEU (R87): the compare unit tests a ≤ b, unsigned. -/
def execCmpLeu (sp : SpId) (m : Modifier) (a : Word) (s : State) : Host.Outcome State Fault Refusal :=
  done (s.issueTrig sp 16 9 m.toNat (ofWord a))

/-- FEQ (R88): the compare unit tests floating-point equality and sets UO. -/
def execCmpFeq (sp : SpId) (m : Modifier) (a : BitVec 128) (s : State) : Host.Outcome State Fault Refusal :=
  done (s.issueTrig sp 16 10 m.toNat ⟨a, false⟩)

/-- FLT (R88): the compare unit tests floating-point less-than. -/
def execCmpFlt (sp : SpId) (m : Modifier) (a : BitVec 128) (s : State) : Host.Outcome State Fault Refusal :=
  done (s.issueTrig sp 16 11 m.toNat ⟨a, false⟩)

/-- FLE (R88): the compare unit tests floating-point less-or-equal. -/
def execCmpFle (sp : SpId) (m : Modifier) (a : BitVec 128) (s : State) : Host.Outcome State Fault Refusal :=
  done (s.issueTrig sp 16 12 m.toNat ⟨a, false⟩)

/-- FUN (R88): the compare unit tests whether a and b are unordered. -/
def execCmpFun (sp : SpId) (m : Modifier) (a : BitVec 128) (s : State) : Host.Outcome State Fault Refusal :=
  done (s.issueTrig sp 16 13 m.toNat ⟨a, false⟩)

/-- TBIT (R87): the compare unit tests bit b[5:0] of a. -/
def execTbit (sp : SpId) (m : Modifier) (a : Word) (s : State) : Host.Outcome State Fault Refusal :=
  done (s.issueTrig sp 16 14 m.toNat (ofWord a))

end Sys2Proof.Machine
end

