-- ==== Sys2Proof/Machine/Boot.lean ====
section
/-!
DEFINITION. The reel resets and the boot steps (R33 to R37, R171, R298 to R302, R310, R449, R472, R473, R495 to R501).
-/

namespace Sys2Proof.Machine

/-! ### What a reset keeps (R495) -/

/-- A channel as a warm reset leaves it: its layout, its training results and what its lines hold (R497). -/
def MemCh.kept (m : MemCh) : MemCh :=
  { state := if m.state = 0 ∨ m.state = 1 then m.state else 2, mirrored := m.mirrored, partnerLost := m.partnerLost, rate := m.rate,
    dimms := m.dimms, x8 := m.x8, capacity := m.capacity, serials := m.serials, flipped := m.flipped, pfill := m.pfill,
    rewritten := m.rewritten, lostAtReset := 2 ≤ m.state }

/-- The parameters after a reset: their defaults, but for those that take effect at a reset (R496). -/
def State.resetParams (s : State) : Tbl Nat :=
  s.jalif.pendReset.foldl (fun t v => tset (paramDefault v.id v.idx) t (paramKey v.id v.idx) v.val)
    (s.params.filter fun e => atReset (e.1 / 2 ^ 64))

/-- The contents of MRAM, of the SPI NOR device and of the fuses that Jalif keeps (R442, R449, R473, R495). -/
def Jalif.kept (j : Jalif) (warm : Bool) : Jalif :=
  { gen := if warm then j.gen else 0, keys := j.keys, imgCount := j.imgCount, imgT := j.imgT, imgS := j.imgS, imgE := j.imgE,
    restored := j.restored, incarnation := j.incarnation, resetLog := j.resetLog, boot := j.boot, bootNew := j.bootNew,
    fused := j.fused, recOk := j.recOk, copyOk := j.copyOk, bankA := j.bankA, bankB := j.bankB, mism := [] }

/-- The reel as a reset clears it (R495): what MRAM holds, the timebase and, at a warm reset, memory and the training results
stay. -/
def State.cleared (s : State) (warm : Bool) : State :=
  let chans := if warm then s.mcs.chans.foldl (fun (t : Tbl MemCh) e => tset {} t e.1 e.2.kept) [] else []
  let flex := if warm then s.links.flex.foldl (fun (t : Tbl Flex) e =>
    tset {} t e.1 { cxlLost := e.2.cxlLost, rewritten := e.2.rewritten }) [] else []
  { time := s.time, freeCtr := s.freeCtr, pending := s.pending, mem := if warm then s.mem else {},
    mcs := { interleave := if warm then s.mcs.interleave else 0, chans := chans, memLog := s.mcs.memLog, memCount := s.mcs.memCount,
             retired := s.mcs.retired.map fun e => { e with pulsed := false, applied := false, mb := none } },
    links := { flex := flex }, params := s.resetParams, jalif := s.jalif.kept warm,
    faults := { log := s.faults.log, seq := s.faults.seq, snaps := s.faults.snaps, lastSlot := s.faults.lastSlot,
                nextSlot := s.faults.nextSlot },
    power := { powerOn := s.power.powerOn, regFault := s.power.regFault },
    pins := { s.pins with errLow := false, fatalLow := false, alive := false, tallyOut := 0 } }

/-- A reel reset clears the reel and aborts a change set that was not committing (R463). -/
def State.clearReel (s : State) (warm : Bool) : State :=
  let c := s.jalif.change
  let t := s.cleared warm
  if c.st = 1 ∨ c.st = 2 then (t.postNotice c.opener 2 [s.jalif.gen + 1, 2]).raise 0x0B01 c.opener else t

/-! ### Boot steps 2 to 8 -/

/-- The boot record's reserved codes, and strand splits that differ within a pair, which keep the reel in ROM (R19, R302, R367). -/
def Boot.refused (r : Boot) : Bool :=
  let flexBad (v : Nat) : Bool := bits v 0 2 == 3 || decide (5 ≤ bits v 2 3) || bits v 5 3 != 0
  (List.range 6).any (fun g => flexBad (tget 0 r.flex g)) || decide (2 < r.interleave) ||
    (List.range 6).any (fun k => tget 2 r.strand (2 * k) != tget 2 r.strand (2 * k + 1))

/-- The bank that runs (R449): the verified one with the higher VERSION, A of two equal ones; the flag says that only one
verifies. -/
def chooseBank (a b : Option BankImage) : Option (Nat × BankImage × Bool) :=
  match a.filter (·.sigOk), b.filter (·.sigOk) with
  | some x, some y => if x.version < y.version then some (1, y, false) else some (0, x, false)
  | some x, none => some (0, x, true)
  | none, some y => some (1, y, true)
  | none, none => none

/-- The n plies that host, of those that work: the ones with the fewest corrected errors, and of equal ones the lower (R171). -/
def hostPlies (ps : List Nat) (errors : Nat → Nat) (n : Nat) : List Nat :=
  ((ps.foldl (fun (t : Tbl Nat) p => tset 99 t (32 * errors p + p) p) []).map (·.2)).take n

/-- Boot steps 5 to 8 for one skein (R168, R171, R278, R501): not admitted, or admitted with its plies placed. -/
def State.bootSkein (s : State) (b : BootIn) (k : Nat) : State :=
  let split := s.jalif.boot.split.getLsbD k
  let mask (m : List (BitVec 96)) (q : Nat) : BitVec 96 := (m[q]?).getD 0
  let set (m : List (BitVec 20)) (p : Nat) : Bool := ((m[k]?).getD 0).getLsbD p
  let m : TrainMasks := { hub := ⟨mask b.hubMasks k, mask b.hubFars k⟩, buddy := ⟨mask b.buddyMasks k, mask b.buddyMasks (buddyOf k)⟩ }
  let s0 := (s.modSk k fun z => { z with split := split, resetLast := s.power.hubResetLast }).train k m
  let good := (List.range 20).filter (set b.plyGood)
  let links := s0.sk k
  let up := s.pins.pgCore.getLsbD k && !b.regMissing.getLsbD k && b.skeinPllOk.getLsbD k && b.skeinTestOk.getLsbD k &&
    links.hubWidth != 0 && decide (s.param 0x0504 0 ≤ good.length)
  if !up then
    ((s.modSk k fun z => { z with
      split := split, lost := true, outForGood := true, allowance := 0, resetLast := s.power.hubResetLast }).setFence k
        { st := 2, since := s.time }).modPower fun p => { p with reserve := p.reserve + (s.sk k).allowance }
  else
    let mask (p : Nat) : Option Word := if split then none else cmpMaskOf b.cmpBad (20 * k + p)
    let pass (p : Nat) : Bool := (mask p).isNone
    let host := hostPlies (good.filter pass) (fun p => (b.plyErrors[20 * k + p]?).getD 0) (20 - s.param 0x0502 0)
    let s1 := (s0.skeinStart k).modSk k fun z => { z.withLinks links s.time with dieGen := s.jalif.gen }
    let spare := if s.param 0x0503 0 = 1 then 1 else 2
    let s2 := foldS (List.range 20) (fun p t => t.modPly k p fun _ =>
      t.plyStart k p (if !good.contains p then 6 else if !pass p then 3 else if host.contains p then 0 else spare)) s1
    let s3 := (s2.modSk k fun z => { z with granted := s2.skeinHolds k }).setDomain (360 + k) 1
    s3.startFailures k (good.filter fun p => !pass p) mask

/-- The places of the assigned plies, in order of skein, ply and fibre (R16, R171). -/
def State.bootPlaces (s : State) : List Place :=
  (allSkeins.filter s.skeinUp).flatMap fun k => ((List.range 20).filter fun p => (s.ply k p).state == 0).flatMap fun p =>
    if (s.sk k).split then [⟨k, p, 0⟩, ⟨k, p, 1⟩] else [⟨k, p, 0⟩]

/-- The held draft image, the engines' firmware and the running version come from the bank that runs (R168, R350, R449). -/
def State.runBank (s : State) (bank : Nat) (i : BankImage) : State :=
  let s1 := s.modJalif fun j => { j with
    fwRun := i.version % 2 ^ 32, fwBank := bank, draftVer := i.draft.version % 2 ^ 32, draftCrc := i.draft.crc % 2 ^ 32,
    draftCode := i.draft.code, draftSig := i.draft.sig }
  let s2 := foldS (List.range 128) (fun e t => t.modEngine e fun x => { x with fw := i.engineVer % 2 ^ 32 }) s1
  s2.modPins fun p => { p with alive := true }

/-- The hub's domains that are on from here (R477): those that are never off, the engine groups and the admitted strand ports. -/
def State.bootDomains (s : State) : State :=
  let on := natsFrom 312 8 ++ natsFrom 336 8
  let s1 := foldS on (fun n t => t.setDomain n 1) s
  s1.modPower fun p => { p with
    hubGranted := ((on ++ (allSkeins.filter s.skeinUp).map (360 + ·)).map fun n => s1.domainHolds n).sum }

/-- The plies, hosting or warm, whose load of the draft image failed twice (R168). -/
def State.draftFailures (s : State) (b : BootIn) : List Nat :=
  (List.range 240).filter fun n =>
    s.skeinUp (n / 20) && decide ((s.ply (n / 20) (n % 20)).state ≤ 1) &&
      !(((b.draftOk[n / 20]?).getD 0).getLsbD (n % 20) && s.jalif.draftCrcOk)

/-- The least MFR_IOUT_MAX of core rail r, in amperes, a bead being one (R508). -/
def State.ioutMin (s : State) (r : Nat) : Nat :=
  max (if r = 12 then 270 else 160) (s.param 0x1000 r + s.param 0x1005 0 + s.param 0x1008 0)
/-- Each core regulator too small for its rail raises the regulator fault (R508). -/
def State.ioutFaults (s : State) (b : BootIn) : State :=
  foldS ((List.range 13).filter fun r => decide (b.iout.getD r 0 < s.ioutMin r)) (fun r t => t.raise 0x0A06 r) s

/-- Boot steps 5 to 8 (R168, R171, R278, R491, R500, R501, R508), the firmware running. -/
def State.bootRest (s : State) (b : BootIn) (draftSigOk : Bool) : State :=
  let s1 := s.modPower fun p => { p with refA := b.refA, refB := b.refB, refSel := if b.refA then 0 else if b.refB then 1 else 2 }
  if !b.refA && !b.refB then (s1.raise 0x0A08 12).halt
  else
    let s2 := (if b.refA then s1 else s1.raise 0x0A07 12).ioutFaults b
    if !b.hubPllOk then s2.halt
    else if !draftSigOk then (s2.raise 0x0B07 49).halt
    else
      let s3 := foldS allSkeins (fun k t => t.bootSkein b k) s2
      let s4 := foldS (allSkeins.filter s3.skeinUp) (fun k t => t.modSk k fun z => { z with pair := if s3.skeinUp (buddyOf k) then 0 else 1 }) s3
      let places := s4.bootPlaces
      let s5 := foldS (places.zip (List.range 480)) (fun (d, i) t => t.modSp i fun x => { x with host := some d }) s4
      let s6 := { s5.bootDomains with hubGen := s.jalif.gen }.modJalif fun j => { j with bootOk := true, bootIn := none, recovery := false }
      let s7 := foldS (allSkeins.filter s6.skeinUp) (fun k t => t.aimSkein k) s6
      foldS (s7.draftFailures b) (fun n t => t.failPly (n / 20) (n % 20) none) s7

/-- The boot record in force from here, and whether the reel goes on (R19, R302, R367, R473). -/
def State.readBootRecord (s : State) (b : BootIn) : State × Bool :=
  let j := s.jalif
  let r := j.bootNew.getD j.boot
  match j.fused with
  | none => (s, false)
  | some digest =>
    let mine := Config.sha384 r.ownerKey == digest
    let rec_ := mine && j.recOk && b.recGood
    let copy := mine && j.copyOk && b.copyGood
    if !rec_ && !copy then (s.halt, false)
    else
      let s1 := s.modJalif fun j => { j with boot := r, bootNew := none }
      let s2 := if rec_ then s1 else s1.raise 0x0B06 49
      if r.refused then (s2.raise 0x0B07 49, false) else (s2, true)

/-- Boot steps 2 to 8 of a reel reset (R449, R500, R501), in ROM: the reset's record, the self-test, the boot record, the
firmware. -/
def State.bootSteps (s : State) (b : BootIn) (scope cause : Nat) : State :=
  let first := s.power.powerOn
  let s1 := ({ s with life := .rom }.modJalif fun j => { j with incarnation := (j.incarnation + 1) % 2 ^ 32 }).modPower fun p =>
    { p with hubResetLast := if first then 3 else scope + 16 * cause, powerOn := false }
  let s2 := s1.modPins fun p => { p with recoveryN := !b.recovery, pgCore := b.pgCore, pgAux := b.pgAux }
  if !b.selfTestOk || !b.pgCore.getLsbD 12 || b.regMissing &&& 0x3FF000 != 0 then s2.halt
  else match s2.readBootRecord b with
    | (t, false) => t
    | (t, true) =>
      if b.recovery then t.modJalif fun j => { j with recovery := true, bootIn := some b }
      else match chooseBank t.jalif.bankA t.jalif.bankB with
        | none => t.halt
        | some (n, i, one) => ((if one then t.raise 0x0B05 49 else t).runBank n i).bootRest b i.draftSigOk

/-! ### Entry to a reel reset -/

/-- The package goes OFF (R33, R495): nothing but MRAM, the SPI NOR device, the fuses and the timebase keeps its content. -/
def State.goOff (s : State) : State :=
  if s.life = .off then s else { s.clearReel false with life := .off }

/-- PWR_OK_FALL (R33, R516): THERMTRIP_N is released. -/
def execPwrOkFall (s : State) : Host.Outcome State Fault Refusal :=
  done (s.goOff.modPins fun p => { p with pwrOk := false, tripLow := false })

/-- RESET_N_FALL (R33). -/
def execResetNFall (s : State) : Host.Outcome State Fault Refusal :=
  done (s.goOff.modPins fun p => { p with resetN := false })

/-- RESET_N_RISE (R33, R495): with PWR_OK high the reel leaves OFF for ROM; test instructions of R518 end. -/
def execResetNRise (b : BootIn) (s : State) : Host.Outcome State Fault Refusal :=
  done (
    let s1 := s.modPins fun p => { p with resetN := true, jtag := if 3 ≤ p.jtag then 0 else p.jtag }
    if s.life = .off ∧ s.pins.pwrOk ∧ !s.pins.resetN then s1.bootSteps b 0 1 else s1)

/-- PWR_OK_RISE (R33): with RESET_N high the reel leaves OFF for ROM (log 45). -/
def execPwrOkRise (b : BootIn) (s : State) : Host.Outcome State Fault Refusal :=
  done (
    let s1 := s.modPins fun p => { p with pwrOk := true }
    if s.life = .off ∧ s.pins.resetN ∧ !s.pins.pwrOk then s1.bootSteps b 0 2 else s1)

/-- VDD_AON_RISE (R492): the timebase starts at 0, and the next boot is that of a power-on. -/
def execVddAonRise (s : State) : Host.Outcome State Fault Refusal :=
  done (if s.life ≠ .off then s else { s with time := 0 }.modPower fun p => { p with powerOn := true })

/-- RESET of the reel (R362, R457): submissions stop and the drain begins; another reset that is under way conflicts. -/
def State.resetReel (s : State) (mb : Mb) (kind : Nat) : State :=
  s.request mb 0x60 .zero fun t =>
    let live := t.life == .run || t.life == .degraded || t.life == .halt
    if !live || t.jalif.drainMb.isSome || t.jalif.resetReq.isSome then t.respond mb 0x60 0x0A []
    else ({ t with chan := { t.chan with accepting := false } }.modJalif fun j => { j with
      drainMb := some mb, drainKind := kind, drainAt := t.time }).taken mb

/-- RESET_REEL_COLD (R457). -/
def execResetReelCold (mb : Mb) (s : State) : Host.Outcome State Fault Refusal := done (s.resetReel mb 0)
/-- RESET_REEL_WARM (R457). -/
def execResetReelWarm (mb : Mb) (s : State) : Host.Outcome State Fault Refusal := done (s.resetReel mb 1)

/-- RESET_DRAIN_EXPIRE (R362, R457): the ledger is empty, or chan.reset_drain_ms has passed; what is left goes to the reset log,
and the answer precedes the reset by 1 ms. -/
def execResetDrainExpire (s : State) : Host.Outcome State Fault Refusal :=
  done (match s.jalif.drainMb with
    | none => s
    | some mb =>
      let left := s.chan.ledger.any fun e => e.2.st != .free
      if left ∧ s.time < s.jalif.drainAt + s.param 0x0B0A 0 * 1000000 then s
      else
        let s1 := if left then s.raise 0x070B 0 else s
        (s1.writeResetLog.modJalif fun j => { j with
          drainMb := none, resetReq := some j.drainKind, drainAt := s.time }).respond mb 0x60 0 [])

/-- RESET_BEGIN (R33, R457, R495): 1 ms after the answer the reset begins, and boot steps 2 to 8 follow. -/
def execResetBegin (b : BootIn) (s : State) : Host.Outcome State Fault Refusal :=
  done (match s.jalif.resetReq with
    | none => s
    | some kind =>
      if s.life = .off ∨ s.time < s.jalif.drainAt + 1000000 then s
      else (s.clearReel (kind == 1)).bootSteps b kind 0)

/-- FIRMWARE_RECOVER (R37, R449, R459): ROM, held by the recovery strap, runs the image that verifies. -/
def execFirmwareRecover (mb : Mb) (img : BankImage) (s : State) : Host.Outcome State Fault Refusal :=
  done (s.request mb 0x71 .bmc fun t =>
    match t.jalif.recovery, t.jalif.bootIn with
    | true, some b =>
      if !img.sigOk then t.respond mb 0x71 0x12 []
      else ((t.respond mb 0x71 0 []).runBank t.jalif.fwBank img).bootRest b img.draftSigOk
    | _, _ => t.respond mb 0x71 2 [])

/-! ### Boot steps 9 to 12 -/

/-- Identical DIMMs, the same count of them (R298). -/
def sameDimms (a b : ChTrain) : Bool := a.dimms == b.dimms && a.x8 == b.x8 && a.gib == b.gib
/-- A channel that holds no DIMM. -/
def noDimm : ChTrain := ⟨false, 0, 0, false, 0, []⟩
/-- What boot step 9 finds on channel c. -/
def trainOf (res : List ChTrain) (c : Nat) : ChTrain := (res[c]?).getD noDimm
/-- Quad q holds a DIMM. -/
def quadAny (res : List ChTrain) (q : Nat) : Bool := (List.range 4).any fun j => (trainOf res (4 * q + j)).dimms != 0
/-- Quad q follows the population rule: complete, with identical DIMMs (R298). -/
def quadGood (res : List ChTrain) (q : Nat) : Bool :=
  (List.range 4).all fun j => let t := trainOf res (4 * q + j); t.dimms != 0 && t.gib != 0 && sameDimms t (trainOf res (4 * q))
/-- The requirement of interleave mode 0 (R302). -/
def reelInterleaves (res : List ChTrain) (mirror : BitVec 4) : Bool :=
  ((List.range 4).all fun q => quadGood res q && sameDimms (trainOf res (4 * q)) (trainOf res 0)) && (mirror == 0 || mirror == 0xF)

/-- The entries of the retire list whose DIMM is the one they name take effect again; the others leave the list (R321). -/
def State.keepRetired (s : State) : State :=
  let mine (e : Retired) : Bool := ((s.mch e.ch).serials[s.dimmOf e.ch (32 * e.frame)]?).getD 0 == e.serial && (s.mch e.ch).capacity != 0
  let place (e : Retired) : Retired := match s.lineAt e.ch (32 * e.frame) with
    | some l => { e with page := l / 32, applied := true }
    | none => { e with applied := false }
  { s with mcs := { s.mcs with retired := (s.mcs.retired.filter mine).map place } }

/-- A channel that is in service holds its beads (R477). -/
def State.channelOn (s : State) (c : Nat) : State := (s.setDomain (320 + c) 1).modGranted 12 (· + 192)

/-- A populated channel of a cold boot (R299 to R302): in service as it trained, or lost from the start. -/
def State.trainCold (s : State) (res : List ChTrain) (c : Nat) : State :=
  let t := trainOf res c
  s.modMch c fun _ => { state := 1, mirrored := s.jalif.boot.mirror.getLsbD (c / 4), rate := t.rate % 4, dimms := t.dimms % 4,
                        x8 := t.x8, capacity := t.gib, serials := t.serials }

/-- A channel of a warm boot (R497): checked where it was kept, trained afresh where it was lost. -/
def State.trainWarm (s : State) (res : List ChTrain) (c : Nat) : State :=
  let t := trainOf res c
  let m := s.mch c
  if m.state = 1 then (if t.ok then s.channelOn c else (s.channelOn c).channelLoss c)
  else if m.lostAtReset ∧ t.ok then
    (s.modMch c fun m => { m with state := if m.mirrored && (s.mch (c ^^^ 1)).state == 1 then 5 else 4, rate := t.rate % 4 }).channelOn c
  else s

/-- DDR_TRAINING_COMPLETE (R33, R298, R299, R302, R321, R497): boot step 9; the reel enters FILL. -/
def State.ddrTrained (s : State) (res : List ChTrain) : State :=
  if s.life ≠ .rom ∨ !s.jalif.bootOk then s
  else if s.power.hubResetLast % 16 = 1 then
    let all := List.range 16
    let s1 := foldS all (fun c t => t.trainWarm res c) s
    { s1.keepRetired with life := .fill }
  else
    let s1 := foldS ((List.range 4).filter fun q => !quadGood res q && (q == 0 || quadAny res q)) (fun q t => t.raise 0x0609 (4 * q)) s
    let cs := (List.range 16).filter fun c => quadGood res (c / 4)
    if !quadGood res 0 then s1
    else if s.jalif.boot.interleave = 0 ∧ !reelInterleaves res s.jalif.boot.mirror then s1.raise 0x0B07 49
    else
      let s2 := { s1 with mcs := { s1.mcs with interleave := s.jalif.boot.interleave } }
      let s3 := foldS cs (fun c t => (t.trainCold res c).channelOn c) s2
      let s4 := foldS (cs.filter fun c => !(trainOf res c).ok) (fun c t => t.channelLoss c) s3
      { s4.keepRetired with life := .fill }

/-- DDR_TRAINING_COMPLETE. -/
def execDdrTrainingComplete (res : List ChTrain) (s : State) : Host.Outcome State Fault Refusal := done (s.ddrTrained res)

/-- FILL (R36, R310, R497): every line written with zeros at a cold reset; at a warm one, channels that were lost when it began
are restored as a retrain restores them. Each used flex group then asks for its PHY's beads (R369). -/
def execFill (s : State) : Host.Outcome State Fault Refusal :=
  done (if s.life ≠ .fill ∨ s.jalif.filled then s
    else
      let s1 := if s.power.hubResetLast % 16 = 1 then
          foldS ((List.range 16).filter fun c => 4 ≤ (s.mch c).state) (fun c t => t.channelBack c) s
        else { s with mem := {} }
      let s2 := foldS ((List.range 6).filter fun g => s.flexRole g == 1 || s.flexRole g == 2) (fun g t => t.wantDomain (348 + g)) s1
      s2.modJalif fun j => { j with filled := true })

/-- The first change set (R34, R473, R496): the entries of the boot record, each as STAGE takes it, then CHECK; a set that fails
leaves the reel in FILL, and the BMC mailbox shows CHECK's answer (log 46). -/
def State.firstSet (s : State) : State :=
  let stage (a : List Staged × Nat × Staged) (v : Staged) : List Staged × Nat × Staged :=
    if a.2.1 ≠ 0 then a
    else match s.stageStatus a.1 v.id v.idx v.val with
      | 0 => (stagePut a.1 v, 0, v)
      | n => (a.1, n, v)
  let r := s.jalif.boot.config.foldl stage ([], 0, {})
  let tell (t : State) (status id idx rule : Nat) : State := t.modMbox 49 fun m => { m with
    resp := tset {} m.resp 0 { code := 0x12, status := status, res := [id, idx, rule] }, respValid := m.respValid ||| 1 }
  if r.2.1 ≠ 0 then tell s r.2.1 r.2.2.id r.2.2.idx 0
  else match s.checkSet r.1 with
    | some (rule, status, id, idx) => tell s status id idx rule
    | none => ((s.modChange fun _ => { st := 2, opener := 49, vals := r.1, last := s.time, first := true }).stagedNow).startCommit none

/-- FILL_COMPLETE (R33, R34, R311, R473, R517): FILL and link bring-up are complete; the partition 0 image, read from SPI NOR, is
checked and loaded, and the first change set is checked and its commit begun. -/
def State.fillComplete (s : State) (p0 : List Byte) : State :=
  let b := s.jalif.boot
  if s.life ≠ .fill ∨ !s.jalif.filled ∨ s.jalif.fillDone then s
  else
    let s1 := foldS ((List.range 16).filter s.chUp) (fun c t => t.modMch c fun m => { m with
      scrubbing := true, scrubAt := 0, lapStart := s.time }) (s.modJalif fun j => { j with fillDone := true })
    if p0.length ≠ b.p0Len ∨ b.p0Spi < 2 ^ 25 ∨ Config.sha384 p0 ≠ b.p0Digest ∨ !s.localRange b.p0Load b.p0Len then s1.raise 0x0B07 49
    else
      let s2 := (s1.hubWrite b.p0Load (ofBytes p0)).2
      if b.config.isEmpty then s2.stagedNow else s2.firstSet

/-- FILL_COMPLETE. -/
def execFillComplete (p0 : List Byte) (s : State) : Host.Outcome State Fault Refusal := done (s.fillComplete p0)

/-! ### Partial resets and the boot record (R450, R457, R472, R473) -/

/-- RESET_SKEIN (R457, R495). -/
def execResetSkein (mb : Mb) (sk : Nat) (s : State) : Host.Outcome State Fault Refusal :=
  done (s.request mb 0x60 .zero fun t =>
    if 11 < sk then t.respond mb 0x60 3 []
    else if t.faults.active.any (fun a => a.skein == some sk) ∨ !t.skeinUp sk ∨ !t.running then t.respond mb 0x60 0x0A []
    else (t.respond mb 0x60 0 []).skeinLoss sk .reset)

/-- RESET_RACK_PORT (R495): the attempts on the port fail, and it trains again. -/
def execResetRackPort (mb : Mb) (k : Nat) (s : State) : Host.Outcome State Fault Refusal :=
  done (s.request mb 0x60 .zero fun t =>
    if 11 < k then t.respond mb 0x60 3 []
    else if (t.rack k).state = 0 ∨ !t.running then t.respond mb 0x60 0x0A []
    else (((t.portFails (32 + k)).modRack k fun x => { x.stop t.time with state := 1, lost := x.lost, width := 0 }).setFence (64 + k)
      { st := 2, since := t.time }).respond mb 0x60 0 [])

/-- One port of a flex group that is reset: its device is held in reset until the port trains (R495, R513; log 99). -/
def State.resetFlex (s : State) (n : Nat) : State :=
  let s0 := s.modPins fun p => { p with perst := p.perst ||| BitVec.ofNat 24 (2 ^ n) }
  let s1 := foldS (s.flexUsers n) (fun i t => t.refuseSpindle i 12) (s0.portFails n)
  ((s1.cxlPortLost n).modFlex n fun x => { x with state := 1, rate := 0, width := 0, cxl := false }).setFence (32 + n)
    { st := 2, since := s.time }

/-- RESET_FLEX_GROUP (R495): the attempts on the group's ports fail, the accesses through them end, and they train again. -/
def execResetFlexGroup (mb : Mb) (g : Nat) (s : State) : Host.Outcome State Fault Refusal :=
  done (s.request mb 0x60 .zero fun t =>
    if 5 < g then t.respond mb 0x60 3 []
    else if t.flexRole g = 0 ∨ !t.running then t.respond mb 0x60 0x0A []
    else ((foldS (((List.range 4).map fun j => 4 * g + j).filter t.flexExists) (fun n u => u.resetFlex n) t).relife).respond mb 0x60 0 [])

/-- A boot record read from its bytes (R472). -/
def parseBoot (xs : List Nat) : Boot :=
  let at_ (o n : Nat) : Nat := fieldAt xs o n
  let count := at_ 0x148 4
  { version := at_ 4 2, number := at_ 0xC 2 % 4096, split := BitVec.ofNat 12 (at_ 0xE 2),
    strand := (List.range 12).foldl (fun t k => tset 2 t k (bits (at_ 0x10 4) (2 * k) 2)) [],
    flex := (List.range 6).foldl (fun t g => tset 0 t g (at_ (0x14 + g) 1)) [],
    interleave := at_ 0x1A 1, mirror := BitVec.ofNat 4 (at_ 0x1B 1), p0Spi := at_ 0x100 4, p0Len := at_ 0x104 4,
    p0Load := at_ 0x108 8, p0Entry := at_ 0x110 4, p0Digest := BitVec.ofNat 384 (beNat ((xs.drop 0x118).take 48)),
    config := (List.range count).map fun i =>
      { id := at_ (0x150 + 40 * i) 2, idx := at_ (0x154 + 40 * i) 4, val := at_ (0x158 + 40 * i) 32 },
    ownerKey := toBytes ((xs.drop 0x20).take 97), draftKey := toBytes ((xs.drop 0x81).take 97), raw := toBytes xs }

/-- The bytes are a boot record (R472): its MAGIC, a LENGTH that holds the entries, and the signature after them. -/
def bootShape (xs : List Nat) : Bool :=
  let len := fieldAt xs 8 4
  let count := fieldAt xs 0x148 4
  fieldAt xs 0 4 == 0x54504252 && decide (0x150 ≤ len) && decide (count ≤ 16384) && len == 0x150 + 40 * count && xs.length == len + 96

/-- The record is valid (R473): its owner key is the fused one, and its signature verifies. -/
def State.bootValid (s : State) (xs : List Nat) : Bool :=
  let len := fieldAt xs 8 4
  let key := toBytes ((xs.drop 0x20).take 97)
  bootShape xs && s.jalif.fused == some (Config.sha384 key) && Config.ecdsaOk key (toBytes (xs.take len)) (toBytes (xs.drop len))

/-- BOOT_RECORD_WRITE (R473): verified, then written as copy and record; it takes effect at the next reel reset. -/
def execBootRecordWrite (mb : Mb) (buf : Buf) (s : State) : Host.Outcome State Fault Refusal :=
  done (s.request mb 0x61 .zero fun t =>
    if !t.bufOk mb buf then t.respond mb 0x61 0x19 []
    else match t.bufIn mb buf (bufSize mb buf) with
      | (none, u) => u
      | (some (xs, _), u) =>
        let ys := xs.take (fieldAt xs 8 4 + 96)
        if !u.bootValid ys then u.respond mb 0x61 0x12 []
        else (u.modJalif fun j => { j with bootNew := some (parseBoot ys), recOk := true, copyOk := true }).respond mb 0x61 0 [])

/-- BOOT_RECORD_READ (R456): the record that MRAM holds, and its length. -/
def execBootRecordRead (mb : Mb) (buf : Buf) (s : State) : Host.Outcome State Fault Refusal :=
  done (s.request mb 0x62 .zero fun t =>
    let xs := ofBytes (t.jalif.bootNew.getD t.jalif.boot).raw
    if !t.bufOk mb buf ∨ !roomFor mb buf xs.length then t.respond mb 0x62 0x19 [] else t.answerOut mb 0x62 buf xs [xs.length])

/-- FIRMWARE_WRITE (R450): a verified image goes into the bank that is not running. -/
def execFirmwareWrite (mb : Mb) (buf : Buf) (img : BankImage) (s : State) : Host.Outcome State Fault Refusal :=
  done (s.request mb 0x63 .zero fun t =>
    if !t.bufOk mb buf then t.respond mb 0x63 0x19 []
    else if !img.sigOk then t.respond mb 0x63 0x12 []
    else
      let n := 1 - t.jalif.fwBank
      (t.modJalif fun j => if n = 0 then { j with bankA := some img } else { j with bankB := some img }).respond mb 0x63 0 [n])

/-- OWNER_KEY_FUSE (R459, R473): once only. -/
def execOwnerKeyFuse (mb : Mb) (digest : BitVec 384) (s : State) : Host.Outcome State Fault Refusal :=
  done (s.request mb 0x70 .bmc fun t =>
    if t.jalif.fused.isSome then t.respond mb 0x70 2 []
    else (t.modJalif fun j => { j with fused := some digest }).respond mb 0x70 0 [])

end Sys2Proof.Machine
end

