-- ==== Sys2Proof/Machine/CapUnit.lean ====
section
/-!
DEFINITION. The triggers of the capability unit (R63, R116), each issued as R50 gives.
-/

namespace Sys2Proof.Machine

/-- NARROW (R116): shrinks the range of a memory capability. -/
def execNarrow (sp : SpId) (a : Cap) (s : State) : Host.Outcome State Fault Refusal :=
  done (s.issueTrig sp 14 4 0 a)

/-- PDROP (R116): clears permission bits of a capability. -/
def execPdrop (sp : SpId) (a : Cap) (s : State) : Host.Outcome State Fault Refusal :=
  done (s.issueTrig sp 14 5 0 a)

/-- WRAP (R116): seals a memory capability under a sealing authority. -/
def execWrap (sp : SpId) (a : Cap) (s : State) : Host.Outcome State Fault Refusal :=
  done (s.issueTrig sp 14 6 0 a)

/-- UNWRAP (R116): unseals a sealed capability under a matching authority. -/
def execUnwrap (sp : SpId) (a : Cap) (s : State) : Host.Outcome State Fault Refusal :=
  done (s.issueTrig sp 14 7 0 a)

/-- TAGQ (R116): returns the tag of a capability. -/
def execTagq (sp : SpId) (a : Cap) (s : State) : Host.Outcome State Fault Refusal :=
  done (s.issueTrig sp 14 8 0 a)

/-- BASEQ (R116): returns the BASE of a capability. -/
def execBaseq (sp : SpId) (a : Cap) (s : State) : Host.Outcome State Fault Refusal :=
  done (s.issueTrig sp 14 9 0 a)

/-- LENQ (R116): returns the LENGTH of a capability. -/
def execLenq (sp : SpId) (a : Cap) (s : State) : Host.Outcome State Fault Refusal :=
  done (s.issueTrig sp 14 10 0 a)

/-- INFOQ (R116): returns the PERMS, OTYPE, KIND and tag of a capability. -/
def execInfoq (sp : SpId) (a : Cap) (s : State) : Host.Outcome State Fault Refusal :=
  done (s.issueTrig sp 14 11 0 a)

/-- UNTAG (R116): clears the tag of a capability. -/
def execUntag (sp : SpId) (a : Cap) (s : State) : Host.Outcome State Fault Refusal :=
  done (s.issueTrig sp 14 12 0 a)

/-- MKENTRY (R116): makes an entry capability at a bundle offset. -/
def execMkentry (sp : SpId) (a : Cap) (s : State) : Host.Outcome State Fault Refusal :=
  done (s.issueTrig sp 14 13 0 a)

/-- AUTHQ (R116): tests whether a capability would authorise a given access. -/
def execAuthq (sp : SpId) (a : Cap) (s : State) : Host.Outcome State Fault Refusal :=
  done (s.issueTrig sp 14 14 0 a)

end Sys2Proof.Machine
end

