-- ==== Sys2Proof/Machine/Control.lean ====
section
/-!
DEFINITION. The triggers of the control unit and the loop unit (R63, R68 to R71, R117, R118), each issued as R50 gives.
-/

namespace Sys2Proof.Machine

/-- BR (R68): A relative branch counted in bundles. -/
def execBr (sp : SpId) (a : Word) (s : State) : Host.Outcome State Fault Refusal :=
  done (s.issueTrig sp 12 4 0 (ofWord a))

/-- BRA (R68): A branch to an absolute bundle from the CODECAP base. -/
def execBra (sp : SpId) (a : Word) (s : State) : Host.Outcome State Fault Refusal :=
  done (s.issueTrig sp 12 5 0 (ofWord a))

/-- CALL (R68): A relative call that writes the link. -/
def execCall (sp : SpId) (a : Word) (s : State) : Host.Outcome State Fault Refusal :=
  done (s.issueTrig sp 12 6 0 (ofWord a))

/-- CALLA (R68): an absolute call that writes the link. -/
def execCalla (sp : SpId) (a : Word) (s : State) : Host.Outcome State Fault Refusal :=
  done (s.issueTrig sp 12 7 0 (ofWord a))

/-- JCAP (R117): A transfer through a memory or entry capability; it replaces CODECAP and is a sync point. -/
def execJcap (sp : SpId) (c : CapReg) (a : Word) (s : State) : Host.Outcome State Fault Refusal :=
  done (s.issueTrig sp 12 8 c (ofWord a))

/-- CALLCAP (R118): A transfer through a capability that writes a return entry capability to ctl.r. -/
def execCallcap (sp : SpId) (c : CapReg) (a : Word) (s : State) : Host.Outcome State Fault Refusal :=
  done (s.issueTrig sp 12 9 c (ofWord a))

/-- LOOP (R69): pushes a hardware loop level, or skips the body when the count is 0. -/
def execLoopPush (sp : SpId) (a : Word) (s : State) : Host.Outcome State Fault Refusal :=
  done (s.issueTrig sp 13 4 0 (ofWord a))

/-- BREAK (R70): pops the innermost loop level without a transfer. -/
def execBreakLoop (sp : SpId) (s : State) : Host.Outcome State Fault Refusal :=
  done (s.issueTrig sp 13 5 0 Cap.zero)

end Sys2Proof.Machine
end

