-- ==== Sys2Proof/Machine/FloatUnits.lean ====
section
/-!
DEFINITION. The triggers of the binary and decimal floating-point units (R63, R88 to R98), each issued as R50 gives.
-/

namespace Sys2Proof.Machine

/-- FADD (R89): the FPU adds two binary floating-point values. -/
def execFadd (sp : SpId) (u : FpuId) (m : Modifier) (a : BitVec 128) (s : State) : Host.Outcome State Fault Refusal :=
  done (s.issueTrig sp (6 + u) 4 m.toNat ⟨a, false⟩)

/-- FSUB (R89): the FPU subtracts two binary floating-point values. -/
def execFsub (sp : SpId) (u : FpuId) (m : Modifier) (a : BitVec 128) (s : State) : Host.Outcome State Fault Refusal :=
  done (s.issueTrig sp (6 + u) 5 m.toNat ⟨a, false⟩)

/-- FMUL (R89): the FPU multiplies two binary floating-point values. -/
def execFmul (sp : SpId) (u : FpuId) (m : Modifier) (a : BitVec 128) (s : State) : Host.Outcome State Fault Refusal :=
  done (s.issueTrig sp (6 + u) 6 m.toNat ⟨a, false⟩)

/-- FDIV (R89): the FPU divides two binary floating-point values. -/
def execFdiv (sp : SpId) (u : FpuId) (m : Modifier) (a : BitVec 128) (s : State) : Host.Outcome State Fault Refusal :=
  done (s.issueTrig sp (6 + u) 7 m.toNat ⟨a, false⟩)

/-- FSQRT (R89): the FPU returns the square root of a. -/
def execFsqrt (sp : SpId) (u : FpuId) (m : Modifier) (a : BitVec 128) (s : State) : Host.Outcome State Fault Refusal :=
  done (s.issueTrig sp (6 + u) 8 m.toNat ⟨a, false⟩)

/-- FMA (R89): the FPU computes a times b plus the result-socket addend, with one rounding. -/
def execFma (sp : SpId) (u : FpuId) (m : Modifier) (a : BitVec 128) (s : State) : Host.Outcome State Fault Refusal :=
  done (s.issueTrig sp (6 + u) 9 m.toNat ⟨a, false⟩)

/-- CVTFI (R90): the FPU converts a floating-point value to a 64-bit integer, with saturation. -/
def execCvtfi (sp : SpId) (u : FpuId) (m : Modifier) (a : BitVec 128) (s : State) : Host.Outcome State Fault Refusal :=
  done (s.issueTrig sp (6 + u) 10 m.toNat ⟨a, false⟩)

/-- CVTIF (R89): the FPU converts an integer to floating point. -/
def execCvtif (sp : SpId) (u : FpuId) (m : Modifier) (a : BitVec 128) (s : State) : Host.Outcome State Fault Refusal :=
  done (s.issueTrig sp (6 + u) 11 m.toNat ⟨a, false⟩)

/-- CVTFF (R89): the FPU converts between binary formats. -/
def execCvtff (sp : SpId) (u : FpuId) (m : Modifier) (a : BitVec 128) (s : State) : Host.Outcome State Fault Refusal :=
  done (s.issueTrig sp (6 + u) 12 m.toNat ⟨a, false⟩)

/-- FMIN (R90): the FPU returns IEEE minimumNumber of a and b. -/
def execFmin (sp : SpId) (u : FpuId) (m : Modifier) (a : BitVec 128) (s : State) : Host.Outcome State Fault Refusal :=
  done (s.issueTrig sp (6 + u) 13 m.toNat ⟨a, false⟩)

/-- FMAX (R90): the FPU returns IEEE maximumNumber of a and b. -/
def execFmax (sp : SpId) (u : FpuId) (m : Modifier) (a : BitVec 128) (s : State) : Host.Outcome State Fault Refusal :=
  done (s.issueTrig sp (6 + u) 14 m.toNat ⟨a, false⟩)

/-- FCLASS (R91): the FPU writes the class mask of a. -/
def execFclass (sp : SpId) (u : FpuId) (m : Modifier) (a : BitVec 128) (s : State) : Host.Outcome State Fault Refusal :=
  done (s.issueTrig sp (6 + u) 15 m.toNat ⟨a, false⟩)

/-- DADD (R94): the decimal FPU adds two decimal values. -/
def execDadd (sp : SpId) (m : Modifier) (a : BitVec 128) (s : State) : Host.Outcome State Fault Refusal :=
  done (s.issueTrig sp 8 4 m.toNat ⟨a, false⟩)

/-- DSUB (R94): the decimal FPU subtracts two decimal values. -/
def execDsub (sp : SpId) (m : Modifier) (a : BitVec 128) (s : State) : Host.Outcome State Fault Refusal :=
  done (s.issueTrig sp 8 5 m.toNat ⟨a, false⟩)

/-- DMUL (R94): the decimal FPU multiplies two decimal values. -/
def execDmul (sp : SpId) (m : Modifier) (a : BitVec 128) (s : State) : Host.Outcome State Fault Refusal :=
  done (s.issueTrig sp 8 6 m.toNat ⟨a, false⟩)

/-- DDIV (R94): the decimal FPU divides two decimal values. -/
def execDdiv (sp : SpId) (m : Modifier) (a : BitVec 128) (s : State) : Host.Outcome State Fault Refusal :=
  done (s.issueTrig sp 8 7 m.toNat ⟨a, false⟩)

/-- DFMA (R94): the decimal FPU computes a times b plus the addend, with one rounding. -/
def execDfma (sp : SpId) (m : Modifier) (a : BitVec 128) (s : State) : Host.Outcome State Fault Refusal :=
  done (s.issueTrig sp 8 8 m.toNat ⟨a, false⟩)

/-- DQUANT (R94): the decimal FPU quantizes a to the exponent of b. -/
def execDquant (sp : SpId) (m : Modifier) (a : BitVec 128) (s : State) : Host.Outcome State Fault Refusal :=
  done (s.issueTrig sp 8 9 m.toNat ⟨a, false⟩)

/-- DRRND (R96): the decimal FPU rounds a to n significant digits. -/
def execDrrnd (sp : SpId) (m : Modifier) (a : BitVec 128) (s : State) : Host.Outcome State Fault Refusal :=
  done (s.issueTrig sp 8 10 m.toNat ⟨a, false⟩)

/-- DCVTID (R94): the decimal FPU converts a signed integer to decimal. -/
def execDcvtid (sp : SpId) (m : Modifier) (a : BitVec 128) (s : State) : Host.Outcome State Fault Refusal :=
  done (s.issueTrig sp 8 11 m.toNat ⟨a, false⟩)

/-- DCVTDI (R96): the decimal FPU converts a decimal value to a saturated signed integer. -/
def execDcvtdi (sp : SpId) (m : Modifier) (a : BitVec 128) (s : State) : Host.Outcome State Fault Refusal :=
  done (s.issueTrig sp 8 12 m.toNat ⟨a, false⟩)

/-- DCVTDD (R96): the decimal FPU widens or narrows between decimal64 and decimal128. -/
def execDcvtdd (sp : SpId) (m : Modifier) (a : BitVec 128) (s : State) : Host.Outcome State Fault Refusal :=
  done (s.issueTrig sp 8 13 m.toNat ⟨a, false⟩)

/-- DLDIV (R97): A long operation returns the exact decimal remainder of a truncated division. -/
def execDldiv (sp : SpId) (m : Modifier) (a : BitVec 128) (s : State) : Host.Outcome State Fault Refusal :=
  done (s.issueTrig sp 8 14 m.toNat ⟨a, false⟩)

/-- DSQRT (R94): the decimal FPU returns the square root of a. -/
def execDsqrt (sp : SpId) (m : Modifier) (a : BitVec 128) (s : State) : Host.Outcome State Fault Refusal :=
  done (s.issueTrig sp 8 15 m.toNat ⟨a, false⟩)

end Sys2Proof.Machine
end

