-- ==== Sys2Proof/Machine/LoadStore.lean ====
section
/-!
DEFINITION. The triggers of the load and store units (R63, R112 to R115, R256), each issued as R50 gives.
-/

namespace Sys2Proof.Machine

/-- The modifier of an ATOM with its AOP field, bits [11:9], set to k (R64). -/
def aopMod (k : Nat) (m : Modifier) : Nat := m.toNat % 512 + k * 512 + m.toNat / 4096 * 4096

/-- LD8U (R112): A checked load of one byte, zero-extended. -/
def execLd8u (sp : SpId) (u : LsId) (m : Modifier) (a : Word) (s : State) : Host.Outcome State Fault Refusal :=
  done (s.issueTrig sp (10 + u) 4 m.toNat (ofWord a))

/-- LD8S (R112): A checked load of one byte, sign-extended. -/
def execLd8s (sp : SpId) (u : LsId) (m : Modifier) (a : Word) (s : State) : Host.Outcome State Fault Refusal :=
  done (s.issueTrig sp (10 + u) 5 m.toNat (ofWord a))

/-- LD16U (R112): A checked load of two bytes, zero-extended. -/
def execLd16u (sp : SpId) (u : LsId) (m : Modifier) (a : Word) (s : State) : Host.Outcome State Fault Refusal :=
  done (s.issueTrig sp (10 + u) 6 m.toNat (ofWord a))

/-- LD16S (R112): A checked load of two bytes, sign-extended. -/
def execLd16s (sp : SpId) (u : LsId) (m : Modifier) (a : Word) (s : State) : Host.Outcome State Fault Refusal :=
  done (s.issueTrig sp (10 + u) 7 m.toNat (ofWord a))

/-- LD32U (R112): A checked load of four bytes, zero-extended. -/
def execLd32u (sp : SpId) (u : LsId) (m : Modifier) (a : Word) (s : State) : Host.Outcome State Fault Refusal :=
  done (s.issueTrig sp (10 + u) 8 m.toNat (ofWord a))

/-- LD32S (R112): A checked load of four bytes, sign-extended. -/
def execLd32s (sp : SpId) (u : LsId) (m : Modifier) (a : Word) (s : State) : Host.Outcome State Fault Refusal :=
  done (s.issueTrig sp (10 + u) 9 m.toNat (ofWord a))

/-- LD64 (R112): A checked load of eight bytes. -/
def execLd64 (sp : SpId) (u : LsId) (m : Modifier) (a : Word) (s : State) : Host.Outcome State Fault Refusal :=
  done (s.issueTrig sp (10 + u) 10 m.toNat (ofWord a))

/-- LD128 (R114): A checked load of 16 bytes with the tag cleared. -/
def execLd128 (sp : SpId) (u : LsId) (m : Modifier) (a : Word) (s : State) : Host.Outcome State Fault Refusal :=
  done (s.issueTrig sp (10 + u) 11 m.toNat (ofWord a))

/-- LDCAP (R114): A checked load of a capability that keeps the memory tag under LOADCAP. -/
def execLdcap (sp : SpId) (u : LsId) (m : Modifier) (a : Word) (s : State) : Host.Outcome State Fault Refusal :=
  done (s.issueTrig sp (10 + u) 12 m.toNat (ofWord a))

/-- ST (R114): A checked store, released at retirement, that clears the tags of the granules it touches. -/
def execSt (sp : SpId) (u : LsId) (m : Modifier) (a : Word) (s : State) : Host.Outcome State Fault Refusal :=
  done (s.issueTrig sp (10 + u) 13 m.toNat (ofWord a))

/-- STCAP (R114): A checked capability store that writes the tag under STORECAP and the GLOBAL rule. -/
def execStcap (sp : SpId) (u : LsId) (m : Modifier) (a : Word) (s : State) : Host.Outcome State Fault Refusal :=
  done (s.issueTrig sp (10 + u) 14 m.toNat (ofWord a))

/-- ATOM_CAS (R256): an atomic compare-and-swap against the result-socket expected value. -/
def execAtomCas (sp : SpId) (u : LsId) (m : Modifier) (a : Word) (s : State) : Host.Outcome State Fault Refusal :=
  done (s.issueTrig sp (10 + u) 15 (aopMod 0 m) (ofWord a))

/-- ATOM_FETCH_ADD (R256): an atomic fetch-and-add. -/
def execAtomFetchAdd (sp : SpId) (u : LsId) (m : Modifier) (a : Word) (s : State) : Host.Outcome State Fault Refusal :=
  done (s.issueTrig sp (10 + u) 15 (aopMod 1 m) (ofWord a))

/-- ATOM_SWAP (R256): an atomic swap. -/
def execAtomSwap (sp : SpId) (u : LsId) (m : Modifier) (a : Word) (s : State) : Host.Outcome State Fault Refusal :=
  done (s.issueTrig sp (10 + u) 15 (aopMod 2 m) (ofWord a))

/-- ATOM_BIT_SET (R256): an atomic OR into memory. -/
def execAtomBitSet (sp : SpId) (u : LsId) (m : Modifier) (a : Word) (s : State) : Host.Outcome State Fault Refusal :=
  done (s.issueTrig sp (10 + u) 15 (aopMod 3 m) (ofWord a))

/-- ATOM_BIT_CLEAR (R256): an atomic AND NOT into memory. -/
def execAtomBitClear (sp : SpId) (u : LsId) (m : Modifier) (a : Word) (s : State) : Host.Outcome State Fault Refusal :=
  done (s.issueTrig sp (10 + u) 15 (aopMod 4 m) (ofWord a))

end Sys2Proof.Machine
end

