-- ==== Sys2Proof/Machine/Pins.lean ====
section
/-!
DEFINITION. The package's pins (R491, R494, R511 to R513, R518): rails, references, tally alignment and the test port.
-/

namespace Sys2Proof.Machine

/-- PG_CORE_FALL (R511): the skein is lost, or HALT where the rail is the hub's (log 47). -/
def execPgCoreFall (d : DieId) (s : State) : Host.Outcome State Fault Refusal :=
  done (
    let s1 := s.modPins fun p => { p with pgCore := p.pgCore &&& ~~~(BitVec.ofNat 13 (2 ^ d.val)) }
    if s.life = .off then s1 else if d.val < 12 then s1.skeinLoss d .rail else s1.halt)

/-- Loss of the hub die that leaves Jalif unable to act (R37, R448, R511): ALIVE stops and the open-drain outputs are released;
nothing is logged. -/
def State.loseHub (s : State) : State :=
  if s.life = .off then s
  else ({ s with life := .halt }.modPins fun p => { p with alive := false, errLow := false, fatalLow := false, tripLow := false }).modPower
    fun p => { p with hubLost := true }

/-- What the failure of an auxiliary rail does (R511). -/
def State.railFails (s : State) (rail : Nat) : State :=
  if between 13 16 rail then foldS (natsFrom (4 * (rail - 13)) 4) (fun c t => t.channelLoss c) s
  else if rail = 17 then (foldS (List.range 16) (fun c t => t.channelLoss c) s).halt
  else if rail = 18 then
    foldS ((List.range 24).filter fun n => s.flexExists n && (s.flexP n).state != 3) (fun n t => t.contain n) s
  else if rail = 19 then
    foldS ((List.range 12).filter fun k => bitAt (s.param 0x0C40 k) 0 && (s.rack k).state != 3) (fun k t => t.rackDown k) s
  else if rail = 20 ∨ rail = 21 then s.loseHub
  else if rail = 22 ∨ rail = 23 then
    let g : SiteId := Fin.ofNat 2 (rail - 22)
    if (s.site g).state = 1 ∨ (s.site g).state = 2 then s.guestLost g else s
  else s

/-- PG_AUX_FALL (R511): the hub finds the rail among the auxiliary regulators; rails are numbered 12 VDD_HUB, 13 to 16 VDDQ_Q0 to
Q3, 17 to 19 VDD_PHY_MEM, FLEX and RACK, 20 VDD_AON, 21 VDD_IO, 22 and 23 VDD_G0 and VDD_G1 (log 48). -/
def execPgAuxFall (rail : Nat) (s : State) : Host.Outcome State Fault Refusal :=
  done (
    let s1 := s.modPins fun p => { p with pgAux := false }
    if s.life = .off ∨ s.life = .halt then s1
    else if rail = 20 ∨ rail = 21 then s1.loseHub
    else if between 13 23 rail then (s1.regFaults [rail]).railFails rail
    else s1)

/-- PMB_ALERT (R512): each regulator that reports a fault raises the regulator fault of its rail. -/
def execPmbAlert (rails : List Nat) (s : State) : Host.Outcome State Fault Refusal :=
  done (if s.life = .off ∨ s.life = .halt then s else s.regFaults rails)

/-- REFCLK_SWITCH (R491). -/
def execRefclkSwitch (s : State) : Host.Outcome State Fault Refusal :=
  done (if s.life = .off ∨ s.power.refSel ≠ 0 ∨ !s.power.refB then s
    else (s.modPower fun p => { p with refA := false, refSel := 1 }).raise 0x0A07 12)

/-- BOTH_REFERENCES_LOST (R491): reel-fatal. -/
def execBothReferencesLost (s : State) : Host.Outcome State Fault Refusal :=
  done (if s.life = .off ∨ s.life = .halt then s
    else ((s.modPower fun p => { p with refA := false, refB := false, refSel := 2 }).raise 0x0A08 12).halt)

/-! ### Tally alignment (R494) -/

/-- The period of the marks, in ticks. -/
def State.markPeriod (s : State) : Nat := s.param 0x1021 0 * 1000

/-- The tally state changed by f. -/
def State.modTally (s : State) (f : Tally → Tally) : State := s.modPower fun p => { p with tally := f p.tally }

/-- TALLY_MARK_OUT (R494): a source, or a follower, drives mark n of 64 at a multiple of the period. -/
def execTallyMarkOut (s : State) : Host.Outcome State Fault Refusal :=
  done (
    let p := s.markPeriod
    if s.life = .off ∨ s.param 0x1020 0 = 0 ∨ s.time % p ≠ 0 then s
    else
      let frame := s.time / (64 * p) * (64 * p)
      let n := s.time / p % 64
      (s.modPins fun q => { q with tallyOut := 1 + b2n (frame.testBit n) }).modTally fun t => { t with frame := frame, marksOut := n + 1 })

/-- The number that the 64 marks of a frame carry, the first one lowest. -/
def frameValue : List Bool → Nat
  | [] => 0
  | b :: r => b2n b + 2 * frameValue r

/-- The timebase steps forward to a tick; it never steps back (R492, R494). -/
def State.stepTo (s : State) (tick : Nat) : State := { s with time := max s.time (tick % 2 ^ 64) }

/-- TALLY_MARK_IN (R494): a follower takes a mark whose leading edge came off ticks after the multiple of the period that it
marks on the reel's own timebase; positive offsets are those of a reel that is ahead (log 49). -/
def State.markIn (s : State) (bit : Bool) (off : Int) : State :=
  let delay := s.param 0x1022 0
  let p := s.markPeriod
  let t := s.power.tally
  let o := off - (delay : Int)
  let live := s.running
  let lim : Int := if live then 100 else 1000
  let good := if o.natAbs ≤ 20 then min 16 (t.good + 1) else 0
  let bitsIn := t.bitsIn ++ [bit]
  let whole := decide (64 ≤ bitsIn.length)
  let slew : Int := if 0 < o then -lim else if live ∧ o < 0 ∧ -1000 ≤ o then lim else 0
  let s1 := s.modTally fun t => { t with
    bitsIn := if whole then [] else bitsIn, offset := o, good := good, locked := good == 16, lastMark := s.time, slew := slew }
  let s2 := if 1000 < o ∧ t.offset ≤ 1000 then s1.raise 0x0A09 12 else s1
  if live then (if o < -1000 then s2.stepTo (s.time + o.natAbs) else s2)
  else if whole then s2.stepTo (frameValue bitsIn + 63 * p + delay)
  else s2

/-- TALLY_MARK_IN (R494): other roles ignore TALLY_IN. -/
def execTallyMarkIn (bit : Bool) (off : Int) (s : State) : Host.Outcome State Fault Refusal :=
  done (if s.life = .off ∨ s.param 0x1020 0 ≠ 2 then s else s.markIn bit off)

/-- TALLY_MARK_LOSS (R494): no mark for four periods. -/
def execTallyMarkLoss (s : State) : Host.Outcome State Fault Refusal :=
  done (if s.life = .off ∨ s.param 0x1020 0 ≠ 2 ∨ s.time < s.power.tally.lastMark + 4 * s.markPeriod then s
    else s.modTally fun t => { t with locked := false, good := 0, slew := 0, bitsIn := [] })

/-! ### The test access port (R518) -/

/-- An instruction of the test port is selected, with what it shifts out. -/
def State.tap (s : State) (n out : Nat) : State := s.modPins fun p => { p with jtag := n, jtagOut := out }
/-- An instruction that takes effect only while RESET_N is low; BYPASS at any other time. -/
def State.tapLow (s : State) (n : Nat) : State := s.tap (if s.pins.resetN then 0 else n) 0

/-- BYPASS (R518). -/
def execBypass (s : State) : Host.Outcome State Fault Refusal := done (s.tap 0 0)
/-- IDCODE (R518). -/
def execIdcode (s : State) : Host.Outcome State Fault Refusal := done (s.tap 1 0x1A4E04D3)
/-- SAMPLE/PRELOAD (R518): the boundary register's contents are free (log 9). -/
def execSamplePreload (s : State) : Host.Outcome State Fault Refusal :=
  done ({ s with freeCtr := s.freeCtr + 1 }.tap 2 ((Config.freeWord s.freeCtr).toNat % 2 ^ 32))
/-- EXTEST (R518). -/
def execExtest (s : State) : Host.Outcome State Fault Refusal := done (s.tapLow 3)
/-- CLAMP (R518). -/
def execClamp (s : State) : Host.Outcome State Fault Refusal := done (s.tapLow 4)
/-- HIGHZ (R518). -/
def execHighz (s : State) : Host.Outcome State Fault Refusal := done (s.tapLow 5)

end Sys2Proof.Machine
end

