-- ==== Sys2Proof/Machine/RegisterStore.lean ====
section
/-!
DEFINITION. What a store to reel register space does (R12 to R14, R39 to R41), uncached accesses at the hub (R187, R272, R284),
and the serial-output gate (R188).
-/

namespace Sys2Proof.Machine

/-! ### Stores to registers -/

/-- A store of n bytes of d at an offset, as the 8-byte word it writes and the mask of the bits it writes (R40). -/
def storeWord (o n : Nat) (d : BitVec 128) : Word × Word :=
  let w : Word := d.setWidth 64
  if n ≠ 4 then (w, ~~~(0 : Word))
  else if o % 8 = 0 then (w &&& 0xFFFFFFFF, 0xFFFFFFFF) else (w <<< 32, 0xFFFFFFFF00000000)

/-- A register's bits after a store: those of the written field bits change (R12, R13). -/
def setBits (old w mask field : Word) : Word := (old &&& ~~~(mask &&& field)) ||| (w &&& mask &&& field)

/-- The bits lo to lo + n - 1 of a word. -/
def fieldMask (lo n : Nat) : Word := BitVec.ofNat 64 ((2 ^ n - 1) * 2 ^ lo)

/-- The mask without the fields whose written value is reserved, each given by its lowest bit, its width and the values it accepts;
the flag says that one was reserved (R14). -/
def dropReserved (w mask : Word) (fs : List (Nat × Nat × (Nat → Bool))) : Word × Bool :=
  fs.foldl (fun a f =>
    let m := fieldMask f.1 f.2.1
    if mask &&& m != 0 && !f.2.2 (bits w.toNat f.1 f.2.1) then (a.1 &&& ~~~m, true) else a) (mask, false)

/-- PROBE_CTL after a store (R286). -/
def probeCtl (old w mask : Word) : Word × Bool :=
  let (m, bad) := dropReserved w mask [(9, 3, fun v => decide (v ≤ 5)), (15, 8, fun v => decide (v ≤ 239))]
  let new := setBits old w m 0x7FBFFF
  (if new.getLsbD 0 && !old.getLsbD 0 then new &&& ~~~(fieldMask 14 1) else new, bad)

/-- A store to a register of probe p at offset o of its block (R286). -/
def Probe.store (p : Probe) (o : Nat) (w m : Word) : Probe × Bool :=
  let half (x : BitVec 128) (hi : Bool) : BitVec 128 :=
    let a : Word := x.setWidth 64
    let b : Word := (x >>> 64).setWidth 64
    if hi then setBits b w m (~~~(0 : Word)) ++ a else b ++ setBits a w m (~~~(0 : Word))
  match o / 8 with
  | 0 => let (c, bad) := probeCtl p.ctl w m; ({ p with ctl := c }, bad)
  | 1 => ({ p with mtch := half p.mtch false }, false)
  | 2 => ({ p with mtch := half p.mtch true }, false)
  | 3 => ({ p with mask := half p.mask false }, false)
  | 4 => ({ p with mask := half p.mask true }, false)
  | 5 => ({ p with count := (setBits (BitVec.ofNat 64 p.count) w m 0xFFFFFFFFFFFF).toNat }, false)
  | 6 => ({ p with thresh := setBits p.thresh w m 0x1FFFFFFFFFFFFFF }, false)
  | _ => (p, false)

/-- A store to a die's probe block, at offset o from its probe 0; reg is the offset from the base of register space (R286). -/
def State.probeStore (s : State) (die o reg : Nat) (w m : Word) : State :=
  if o < 0x800 then
    let (p, bad) := (s.probe die (o / 0x40)).store (o % 0x40) w m
    let s1 := s.setProbe die (o / 0x40) p
    if bad then s1.reservedWrite 5 die reg else s1
  else if o / 8 = 0x100 ∧ (w &&& m).getLsbD 12 then s.modTrace die fun t => { t with wrapped := false }
  else s

/-- A store to a skein's register block (R239, R286). -/
def State.skeinStore (s : State) (k o reg : Nat) (w m : Word) : State :=
  if o / 8 = 0x840 ∧ (w &&& m).getLsbD 63 then s.modSk k fun z => { z with errLog := z.errLog &&& ~~~(fieldMask 63 1) }
  else if 0x8000 ≤ o ∧ o < 0x8808 then s.probeStore k (o - 0x8000) reg w m
  else s

/-- A store to a channel's register block (R318, R329). -/
def State.memStore (s : State) (c o : Nat) (w m : Word) : State :=
  let valid := (w &&& m).getLsbD 63
  let keep : Word := ~~~(fieldMask 63 1)
  match o / 8 with
  | 1 => if valid then s.modMch c fun x => { x with errLog := x.errLog &&& keep } else s
  | 4 => s.flipCtl c (setBits ((s.mch c).flipCtl &&& 0x3FFC) w m (~~~(0 : Word)))
  | 5 => if s.faults.service then s.modMch c fun x => { x with flip0 := setBits x.flip0 w m (~~~(0 : Word)) } else s
  | 6 => if s.faults.service then s.modMch c fun x => { x with flip1 := setBits x.flip1 w m (~~~(0 : Word)) } else s
  | 7 => if s.faults.service then s.modMch c fun x => { x with flipAddr := setBits x.flipAddr w m (fieldMask 0 45) } else s
  | 8 => if valid then s.modMch c fun x => { x with flipLast := x.flipLast &&& keep } else s
  | _ => s

/-- A store to the hub's register blocks, by its offset from 0x2_0000_0000 (R39, R266, R295, R365, R447). -/
def State.hubStore (s : State) (o reg : Nat) (w m : Word) : State :=
  let n := o % 0x1000000 / 0x1000
  let q := o % 0x1000
  let valid := (w &&& m).getLsbD 63
  let keep : Word := ~~~(fieldMask 63 1)
  match o / 0x1000000 with
  | 0x00 => if o / 0x100000 < 4 ∧ o % 0x100000 / 8 = 1 ∧ valid then s.modHome (o / 0x100000) fun x => { x with valid := false } else s
  | 0x01 => if n < 2 ∧ q / 8 = 1 ∧ valid then s.modSite n fun x => { x with log := x.log &&& keep } else s
  | 0x02 => if o - 0x2000000 < 0x808 then s.probeStore 12 (o - 0x2000000) reg w m else s
  | 0x04 => if n < 16 then s.memStore n q w m else s
  | 0x05 => if (o - 0x5000000) / 8 = 1 ∧ valid then { s with chan := { s.chan with ledgerLog := s.chan.ledgerLog &&& keep } } else s
  | 0x08 => (match (o - 0x8000000) / 8 with
    | 0 => if (w &&& m).getLsbD 13 then (s.modFaults fun f => { f with overflow := false }).setErr else s
    | 1 => s.faultForce (w &&& m)
    | 3 => s.carryClear (w &&& m)
    | _ => s)
  | 0x09 => if (o - 0x9000000) / 8 = 0 then s.snapCtl (w &&& m) else s
  | _ => s

/-- A store to a mailbox page (R451, R452). -/
def State.mailStore (s : State) (pg q n : Nat) (d : BitVec 128) (tag : Bool) : State :=
  let w : Word := d.setWidth 64
  if q < 0x200 then
    let g := 4 * (q / 0x80) + q % 0x80 / 16
    if 0x40 ≤ q % 0x80 then s
    else s.modMbox pg fun m =>
      let old := (tget Cap.zero m.req g).bits
      let new : Cap := if n = 16 then ⟨d, tag⟩
        else if q % 16 = 0 then ⟨(old >>> 64).setWidth 64 ++ w, false⟩ else ⟨w ++ old.setWidth 64, false⟩
      { m with req := tset Cap.zero m.req g new }
  else if q < 0x220 then s.doorbell pg ((q - 0x200) / 8) w
  else if q / 8 = 0x46 then s.noticeCons pg w
  else s

/-- A store to a press and cipher page (R394 to R396). -/
def State.pageStore (s : State) (pg q reg : Nat) (d : BitVec 128) (tag : Bool) : State :=
  let w : Word := d.setWidth 64
  let all : Word := ~~~(0 : Word)
  let note (bad : Bool) (t : State) : State := if bad then t.reservedWrite 9 (256 + pg) reg else t
  if q = 0x008 then
    let (m, bad) := dropReserved w all [(0, 2, fun v => decide (v ≤ 2)), (16, 16, fun v => decide (v ≤ 32768))]
    note bad (s.modTenant pg fun t => { t with pressCfg := setBits t.pressCfg w m 0xFFFF001F })
  else if q = 0x010 then
    let (m, bad) := dropReserved w all [(2, 2, fun v => decide (v ≤ 2)), (8, 5, between 12 16), (16, 4, between 9 16)]
    note bad (s.modTenant pg fun t => { t with cipherCfg := setBits t.cipherCfg w m 0xFFFFFFFF000F1F1F })
  else if q = 0x018 then s.modTenant pg fun t => { t with iv := (t.iv >>> 64).setWidth 64 ++ w }
  else if q = 0x020 then s.modTenant pg fun t => { t with iv := w ++ t.iv.setWidth 64 }
  else if q = 0x040 then s.histStore pg ⟨d, tag⟩
  else if 0x100 ≤ q ∧ q < 0x140 then s.modTenant pg fun t => { t with keyData := tset 0 t.keyData ((q - 0x100) / 8) w }
  else if q = 0x140 then s.keyCtl pg w
  else s

/-- A store of spindle i to reel register space at offset o (R39); false while it waits: a SUBMIT whose operation block is not
yet read, or whose rejection has no room (R336). -/
def State.regStore (s : State) (i o n : Nat) (d : BitVec 128) (tag : Bool) : Bool × State :=
  let w : Word := d.setWidth 64
  let pg := o % 0x1000000 / 0x1000
  let q := o % 0x1000
  let (v, m) := storeWord o n d
  if between 0x10000 0x40FFF o then (true, s.mailStore ((o - 0x10000) / 0x1000) q n d tag)
  else if between 0x1000000 0x1FFFFFF o then
    (if q = 0 then s.submit pg ((s.partOf i).getD 63) (bits w.toNat 0 32) ((d >>> 64).setWidth 64)
      else if q = 0x10 then (true, s.cancel pg (bits w.toNat 0 48))
      else if 0x100 ≤ q ∧ q < 0x200 then (true, s.slotStore pg ((q - 0x100) / 16) ⟨d, tag⟩)
      else (true, s))
  else if between 0x3000000 0x3FFFFFF o then (true, s.pageStore pg q o d tag)
  else if between 0x100000000 0x1BFFFFFFF o then (true, s.skeinStore ((o - 0x100000000) / 0x10000000) (o % 0x10000000) o v m)
  else if between 0x200000000 0x2FFFFFFFF o then (true, s.hubStore (o - 0x200000000) o v m)
  else (true, s)

/-- REGISTER_WRITE (R12 to R14): a store that reaches a register; one of a width or alignment that the page does not take has no
effect (R40). -/
def execRegisterWrite (r : Uc) (s : State) : Host.Outcome State Fault Refusal :=
  done (if s.addrKind r.addr = .register ∧ regAccessOk r.addr r.size true then
      (s.regStore r.sp (r.addr - regBase) r.size r.data r.tag).2
    else s)

/-! ### The serial-output gate (R187, R188) -/

/-- The register block of a skein that is draining, fenced or not admitted lies at the offset (R282, R284). -/
def State.regFenced (s : State) (o : Nat) : Option Nat :=
  match skeinBlock o with
  | some k => if (s.fence k).st ≠ 0 ∨ !s.skeinUp k then some k else none
  | none => none

/-- The gate accepts the pending output q of spindle i. -/
def State.gateAccept (s : State) (i : Nat) (q : Serial) : State :=
  { s with home := { s.home with gate := tset {} s.home.gate i { seq := q.seq, done := false } } }.modSp i fun x =>
    { x with serial := some { q with sent := true, sentAt := s.time } }

/-- A request sent to a guest site under a hub tag (R271, R272). -/
def State.openGuest (s : State) (g i : Nat) (p : Packet) : State :=
  s.modSite g fun x =>
    let used := x.opens.map (·.tag) ++ x.ended
    let t := ((List.range (used.length + 1)).find? fun n => !used.contains n).getD 0
    { x with opens := x.opens ++ [{ p with
      tag := t, src := 12, dst := 13 + g, part := (s.partOf i).getD 63, lines := [i], since := s.time }] }

/-- The code of an access size in AUX (R272). -/
def sizeCode (n : Nat) : Nat := match n with | 4 => 0 | 8 => 1 | _ => 2

/-- A site takes a partition's requests: its link is up, it is not fenced, and rung 2 does not hold the partition (R284, R292,
R433). -/
def State.siteTakes (s : State) (g i : Nat) : Bool :=
  (s.site g).state == 2 && (s.fence (16 + g)).st == 0 && !s.partCut ((s.partOf i).getD 63)

/-- An accepted uncached store or load on its way (R272, R284, R291, R371). -/
def State.sendUc (s : State) (i : Nat) (q : Serial) (load : Bool) : State :=
  match s.addrKind q.addr with
  | .flexWindow =>
    let up := match s.flexWinOf q.addr with
      | some w => (s.flexP w.port).state == 2 && (s.fence (32 + w.port)).st == 0
      | none => false
    if up then s else s.refuseSpindle i 12
  | .guest g =>
    if s.siteTakes g i then
      s.openGuest g i { cmd := if load then 0x28 else 0x29, line := lineOf q.addr, aux := bits q.addr 2 5 + 32 * sizeCode q.size,
                        len := if load then 0 else 1, val := { data := q.data.setWidth 1024, tags := 0, poison := false } }
    else s.refuseSpindle i (13 + g)
  | _ => s

/-- A coprocessor request leaves for the guest that the partition's binding names, or is refused at once (R284, R292); none while
the partition's rate holds it back. -/
def State.copLeave (s : State) (i : Nat) (q : Serial) : Option State :=
  let u := q.addr / 16
  let b := s.copBinding i u
  let part := (s.partOf i).getD 63
  if 0 < b ∧ s.siteTakes (b - 1) i then
    (flowTake s.time (s.param 0x0946 part) 4 (tget (0, 0) s.fab.copFlow part)).map fun f =>
      { s with fab := { s.fab with copFlow := tset (0, 0) s.fab.copFlow part f } }.openGuest (b - 1) i {
        cmd := 0x2C, line := i, aux := q.addr, len := 3,
        val := { data := q.data.setWidth 1024 ||| q.extra.setWidth 1024 <<< 256, tags := 0, poison := false } }
  else some (s.copRefuse i (u - 80))

/-- The requests of a partition that the firewall holds (R292). -/
def State.copHeldOf (s : State) (part : Nat) : List (Nat × Serial) :=
  s.fab.copHeld.filter fun e => (s.partOf e.1).getD 63 == part

/-- An accepted coprocessor request: the spindle goes on, and the request leaves, or is held behind those of its partition and for
its rate (R73, R75, R292). -/
def State.sendCop (s : State) (i : Nat) (q : Serial) : State :=
  let s1 := s.modSp i Spindle.endSerial
  let hold : State := { s1 with fab := { s1.fab with copHeld := s1.fab.copHeld ++ [(i, q)] } }
  if (s.copHeldOf ((s.partOf i).getD 63)).isEmpty then (s1.copLeave i q).getD hold else hold

/-- The requests held leave, oldest first, as the rates of their partitions allow (R292). -/
def State.copPump (s : State) : State :=
  foldS s.fab.copHeld (fun e t =>
    if (t.copHeldOf ((t.partOf e.1).getD 63)).head? = some e then
      match { t with fab := { t.fab with copHeld := t.fab.copHeld.erase e } }.copLeave e.1 e.2 with
      | some u => u
      | none => t
    else t) s

/-- The held response of an output that the gate has already accepted and answered (R188): a second sending changes nothing else. -/
def State.gateRepeat (s : State) (i : Nat) (q : Serial) : State :=
  let g := tget {} s.home.gate i
  match q.kind with
  | .ucStore => (s.modSp i Spindle.endSerial).afterDone i
  | .ucLoad => (s.modSp i fun x => { x with serial := some { q with sent := true } }).ucAnswer i q.addr g.resp false
  | .cop => (s.modSp i fun x => { x with serial := some { q with sent := true } }).copAnswer i (q.addr / 16 - 80) g.resp g.timedOut
      |>.afterDone i
  | .cacheop =>
    (s.modSp i fun x => match x.ops.find? OpRec.isCacheop with
      | some r => (x.arrive r { r with res := ⟨g.resp, false⟩ }).endSerial
      | none => x.endSerial).afterDone i

/-- The output may leave its skein: the fasten that covers it has completed, or none is needed (R75, R187), and what an
uncached access follows is performed (R257, R259, R260). -/
def State.mayLeave (s : State) (i : Nat) (q : Serial) : Bool :=
  let x := s.sp i
  match x.host with
  | some h => s.running && s.skeinUp h.skein && (q.waitEpoch == 0 || decide (q.waitEpoch ≤ (s.sk h.skein).committed)) &&
      (match q.kind with
        | .ucStore => x.mayPerform .ucStore q.order
        | .ucLoad => x.mayPerform .ucLoad q.order
        | _ => true)
  | none => false

/-- SERIAL_OUTPUT_GATE (R187, R188): the pending serial output of a spindle reaches the gate and is performed once. -/
def State.gate (s : State) (i : Nat) : State :=
  match (s.sp i).serial with
  | none => s
  | some q =>
    if q.sent || !s.mayLeave i q then s
    else if (tget {} s.home.gate i).seq = q.seq then
      (if (tget {} s.home.gate i).done then s.gateRepeat i q
        else s.modSp i fun x => if q.kind = .cop ∨ q.kind = .cacheop then x.endSerial else { x with serial := some { q with sent := true } })
    else match q.kind with
      | .ucStore =>
        if s.addrKind q.addr ≠ .register then (s.gateAccept i q).sendUc i q false
        else match s.regFenced (q.addr - regBase) with
          | some k => (s.gateAccept i q).ucRefuseStore i k
          | none => match s.regStore i (q.addr - regBase) q.size (q.data.setWidth 128) q.tag with
            | (false, t) => t
            | (true, t) => (t.gateAccept i q).ucAck i
      | .ucLoad => (s.gateAccept i q).sendUc i q true
      | .cop => if 64 ≤ (s.copHeldOf ((s.partOf i).getD 63)).length then s else (s.gateAccept i q).sendCop i q
      | .cacheop => (s.gateAccept i q).modSp i Spindle.endSerial

/-- SERIAL_OUTPUT_GATE. -/
def execSerialOutputGate (sp : SpId) (s : State) : Host.Outcome State Fault Refusal := done (s.gate sp)

/-- The pending serial output is the access r. -/
def State.isPending (s : State) (r : Uc) (k : SerialKind) : Bool :=
  match (s.sp r.sp).serial with
  | some q => q.kind == k && q.addr == r.addr && q.size == r.size &&
      (k == SerialKind.ucLoad || (q.data == r.data.setWidth 256 && q.tag == r.tag))
  | none => false

/-- UC_ST (R40, R187, R272, R284): the pending store of a spindle; what no spindle has pending does not arrive. -/
def execUcSt (r : Uc) (s : State) : Host.Outcome State Fault Refusal :=
  done (if s.isPending r .ucStore then s.gate r.sp else s)

/-- The uncached load of spindle i at address a may be performed (R257, R259, R260). -/
def State.ucLoadReady (s : State) (i a : Nat) : Bool :=
  match s.ucLoadAt i a with
  | some r => match r.kind with
    | .answer _ _ _ o => (s.sp i).mayPerform .ucLoad o
    | _ => false
  | none => false

/-- UC_LD (R13, R40, R187, R284, R371): a load from register space is answered with the register as it stands, or refused where the
skein is fenced; one from a window is the spindle's pending output. -/
def execUcLd (r : Uc) (s : State) : Host.Outcome State Fault Refusal :=
  done (
    let i := r.sp.val
    let o := r.addr - regBase
    if s.isPending r .ucLoad then s.gate i
    else if s.addrKind r.addr ≠ .register ∨ !s.ucLoadReady i r.addr then s
    else match s.regFenced o with
      | some k => s.ucRefuse i r.addr k
      | none =>
        if inConfigSpace o then
          { s with freeCtr := s.freeCtr + 1 }.ucAnswer i r.addr ((Config.configSpace o s.freeCtr).setWidth 128) false
        else s.ucAnswer i r.addr (BitVec.ofNat 128 (s.regBytes o r.size)) false)

/-- REFUSED (R272, R284): the request that the packet answers ends, with the die that refused it as the fault's INSTANCE; one of a
channel engine is a failed path; a guest's leaves with the packet. -/
def State.refused (s : State) (p : Packet) : State :=
  let s1 := { s with fab := { s.fab with net := s.fab.net.erase p } }
  let open_ := [0, 1].findSome? fun g => ((s1.site g).opens.find? fun q => q.tag == p.tag && q.part == p.part && p.src == 13 + g).map
    fun q => (g, q)
  if 13 ≤ p.dst then s1
  else match open_ with
    | some (g, q) =>
      let i := q.lines.headD 480
      let s2 := s1.modSite g fun x => { x with opens := x.opens.erase q }
      if q.cmd = 0x2C then s2.copRefuse i (q.aux / 16 - 80) else s2.refuseSpindle i p.src
    | none => match p.lines with
      | i :: _ => s1.refuseSpindle i p.src
      | [] => if p.dst = 12 ∧ (s1.entry p.tag).attempting then s1.failAttempt p.tag 0x0120 else s1

/-- REFUSED. -/
def execRefused (p : Packet) (s : State) : Host.Outcome State Fault Refusal := done (s.refused p)

end Sys2Proof.Machine
end

