-- ==== Sys2Proof/Machine/System.lean ====
section
/-!
DEFINITION. The triggers of the system unit (R63, R131, R135, R138, R225, R259, R190), each issued as R50 gives.
-/

namespace Sys2Proof.Machine

/-- TRAP (R131): A system call delivered through descriptor t after the bundle's other moves. -/
def execTrap (sp : SpId) (a : Word) (s : State) : Host.Outcome State Fault Refusal :=
  done (s.issueTrig sp 15 4 0 (ofWord a))

/-- ERET_TSB (R138): ERET variant 0 or 3 restores the state from the TSB and continues at SAVED_BA. -/
def execEretTsb (sp : SpId) (resume : Bool) (s : State) : Host.Outcome State Fault Refusal :=
  done (s.issueTrig sp 15 5 0 (capNum (if resume then 3 else 0)))

/-- ERET_SLOT_TO_TSB (R138): ERET variant 1 writes the save-slot state to the TSB and clears SLOT_BUSY. -/
def execEretSlotToTsb (sp : SpId) (s : State) : Host.Outcome State Fault Refusal :=
  done (s.issueTrig sp 15 5 0 (capNum 1))

/-- ERET_SLOT (R138): ERET variant 2 restores the state from the save slot. -/
def execEretSlot (sp : SpId) (s : State) : Host.Outcome State Fault Refusal :=
  done (s.issueTrig sp 15 5 0 (capNum 2))

/-- SYNC (R103): waits for earlier operations and delivers any pending imprecise arithmetic event. -/
def execSync (sp : SpId) (s : State) : Host.Outcome State Fault Refusal :=
  done (s.issueTrig sp 15 6 0 Cap.zero)

/-- FENCE_ORDER (R259): FENCE variant 0 orders the spindle's earlier accesses before its later ones. -/
def execFenceOrder (sp : SpId) (s : State) : Host.Outcome State Fault Refusal :=
  done (s.issueTrig sp 15 7 0 (capNum 0))

/-- FENCE_VISIBLE (R259): FENCE variant 1 also waits until the spindle's earlier stores are globally visible. -/
def execFenceVisible (sp : SpId) (s : State) : Host.Outcome State Fault Refusal :=
  done (s.issueTrig sp 15 7 0 (capNum 1))

/-- TIME (R135): returns the timebase and, when a is non-zero, sets DEADLINE. -/
def execTime (sp : SpId) (a : Word) (s : State) : Host.Outcome State Fault Refusal :=
  done (s.issueTrig sp 15 8 0 (ofWord a))

/-- ENTROPY (R150): returns a single-sampled entropy value. -/
def execEntropy (sp : SpId) (s : State) : Host.Outcome State Fault Refusal :=
  done (s.issueTrig sp 15 9 0 Cap.zero)

/-- WAIT (R135): stalls the spindle until the timebase reaches a or a deliverable event is pending. -/
def execWaitUntil (sp : SpId) (a : Word) (s : State) : Host.Outcome State Fault Refusal :=
  done (s.issueTrig sp 15 10 0 (ofWord a))

/-- FASTEN (R190): requests a fasten; the result is the committed epoch that covers the trigger bundle. -/
def execFasten (sp : SpId) (s : State) : Host.Outcome State Fault Refusal :=
  done (s.issueTrig sp 15 12 0 Cap.zero)

/-- CLEAN (R227): CACHEOP COP 0 writes back the dirty lines of the range in the skein. -/
def execClean (sp : SpId) (a : Word) (s : State) : Host.Outcome State Fault Refusal :=
  done (s.issueTrig sp 15 11 0 (ofWord a))

/-- INVAL (R227): CACHEOP COP 1 writes back and then invalidates the lines of the range. -/
def execInval (sp : SpId) (a : Word) (s : State) : Host.Outcome State Fault Refusal :=
  done (s.issueTrig sp 15 11 1 (ofWord a))

/-- DISCARD (R228): CACHEOP COP 2 invalidates the lines of the range without writeback. -/
def execDiscard (sp : SpId) (a : Word) (s : State) : Host.Outcome State Fault Refusal :=
  done (s.issueTrig sp 15 11 2 (ofWord a))

/-- LOCK_WAY (R232): CACHEOP COP 3 locks a way of the L2 or L3 for the partition. -/
def execLockWay (sp : SpId) (a : Word) (s : State) : Host.Outcome State Fault Refusal :=
  done (s.issueTrig sp 15 11 3 (ofWord a))

/-- LOCK_FILL (R233): CACHEOP COP 4 fills the range into a locked way with exclusive ownership. -/
def execLockFill (sp : SpId) (a : Word) (s : State) : Host.Outcome State Fault Refusal :=
  done (s.issueTrig sp 15 11 4 (ofWord a))

/-- UNLOCK_WAY (R232): CACHEOP COP 5 unlocks a way. -/
def execUnlockWay (sp : SpId) (a : Word) (s : State) : Host.Outcome State Fault Refusal :=
  done (s.issueTrig sp 15 11 5 (ofWord a))

end Sys2Proof.Machine
end

