-- ==== Sys2Proof/Machine/Dispatch.lean ====
section
/-!
DEFINITION. The dispatch of commands to their meanings: one arm for each constructor of Instr.
-/

namespace Sys2Proof.Machine

/-- The effect of a command on everything but the queue (R8: each row has the outcome its rules give). -/
def exec (i : Instr) (s : State) : Host.Outcome State Fault Refusal :=
  match i with
  | .bundleNormal sp => Sys2Proof.Machine.execBundleNormal sp s
  | .bundleLongImmediate sp => Sys2Proof.Machine.execBundleLongImmediate sp s
  | .bundleCoprocessor sp => Sys2Proof.Machine.execBundleCoprocessor sp s
  | .unitCompletion sp u => Sys2Proof.Machine.execUnitCompletion sp u s
  | .add sp u a => Sys2Proof.Machine.execAdd sp u a s
  | .sub sp u a => Sys2Proof.Machine.execSub sp u a s
  | .addt sp u a => Sys2Proof.Machine.execAddt sp u a s
  | .subt sp u a => Sys2Proof.Machine.execSubt sp u a s
  | .and sp u a => Sys2Proof.Machine.execAnd sp u a s
  | .or sp u a => Sys2Proof.Machine.execOr sp u a s
  | .xor sp u a => Sys2Proof.Machine.execXor sp u a s
  | .andn sp u a => Sys2Proof.Machine.execAndn sp u a s
  | .shl sp u a => Sys2Proof.Machine.execShl sp u a s
  | .shr sp u a => Sys2Proof.Machine.execShr sp u a s
  | .sar sp u a => Sys2Proof.Machine.execSar sp u a s
  | .addc sp u a => Sys2Proof.Machine.execAddc sp u a s
  | .mul sp a => Sys2Proof.Machine.execMul sp a s
  | .umul sp a => Sys2Proof.Machine.execUmul sp a s
  | .smul sp a => Sys2Proof.Machine.execSmul sp a s
  | .mult sp a => Sys2Proof.Machine.execMult sp a s
  | .udiv sp a => Sys2Proof.Machine.execUdiv sp a s
  | .sdiv sp a => Sys2Proof.Machine.execSdiv sp a s
  | .urem sp a => Sys2Proof.Machine.execUrem sp a s
  | .srem sp a => Sys2Proof.Machine.execSrem sp a s
  | .fadd sp u m a => Sys2Proof.Machine.execFadd sp u m a s
  | .fsub sp u m a => Sys2Proof.Machine.execFsub sp u m a s
  | .fmul sp u m a => Sys2Proof.Machine.execFmul sp u m a s
  | .fdiv sp u m a => Sys2Proof.Machine.execFdiv sp u m a s
  | .fsqrt sp u m a => Sys2Proof.Machine.execFsqrt sp u m a s
  | .fma sp u m a => Sys2Proof.Machine.execFma sp u m a s
  | .cvtfi sp u m a => Sys2Proof.Machine.execCvtfi sp u m a s
  | .cvtif sp u m a => Sys2Proof.Machine.execCvtif sp u m a s
  | .cvtff sp u m a => Sys2Proof.Machine.execCvtff sp u m a s
  | .fmin sp u m a => Sys2Proof.Machine.execFmin sp u m a s
  | .fmax sp u m a => Sys2Proof.Machine.execFmax sp u m a s
  | .fclass sp u m a => Sys2Proof.Machine.execFclass sp u m a s
  | .dadd sp m a => Sys2Proof.Machine.execDadd sp m a s
  | .dsub sp m a => Sys2Proof.Machine.execDsub sp m a s
  | .dmul sp m a => Sys2Proof.Machine.execDmul sp m a s
  | .ddiv sp m a => Sys2Proof.Machine.execDdiv sp m a s
  | .dfma sp m a => Sys2Proof.Machine.execDfma sp m a s
  | .dquant sp m a => Sys2Proof.Machine.execDquant sp m a s
  | .drrnd sp m a => Sys2Proof.Machine.execDrrnd sp m a s
  | .dcvtid sp m a => Sys2Proof.Machine.execDcvtid sp m a s
  | .dcvtdi sp m a => Sys2Proof.Machine.execDcvtdi sp m a s
  | .dcvtdd sp m a => Sys2Proof.Machine.execDcvtdd sp m a s
  | .dldiv sp m a => Sys2Proof.Machine.execDldiv sp m a s
  | .dsqrt sp m a => Sys2Proof.Machine.execDsqrt sp m a s
  | .extu sp a => Sys2Proof.Machine.execExtu sp a s
  | .exts sp a => Sys2Proof.Machine.execExts sp a s
  | .ins sp a => Sys2Proof.Machine.execIns sp a s
  | .clz sp a => Sys2Proof.Machine.execClz sp a s
  | .ctz sp a => Sys2Proof.Machine.execCtz sp a s
  | .popc sp a => Sys2Proof.Machine.execPopc sp a s
  | .perm sp a => Sys2Proof.Machine.execPerm sp a s
  | .bswap sp a => Sys2Proof.Machine.execBswap sp a s
  | .rol sp a => Sys2Proof.Machine.execRol sp a s
  | .ror sp a => Sys2Proof.Machine.execRor sp a s
  | .cmpEq sp m a => Sys2Proof.Machine.execCmpEq sp m a s
  | .cmpNe sp m a => Sys2Proof.Machine.execCmpNe sp m a s
  | .cmpLt sp m a => Sys2Proof.Machine.execCmpLt sp m a s
  | .cmpLe sp m a => Sys2Proof.Machine.execCmpLe sp m a s
  | .cmpLtu sp m a => Sys2Proof.Machine.execCmpLtu sp m a s
  | .cmpLeu sp m a => Sys2Proof.Machine.execCmpLeu sp m a s
  | .cmpFeq sp m a => Sys2Proof.Machine.execCmpFeq sp m a s
  | .cmpFlt sp m a => Sys2Proof.Machine.execCmpFlt sp m a s
  | .cmpFle sp m a => Sys2Proof.Machine.execCmpFle sp m a s
  | .cmpFun sp m a => Sys2Proof.Machine.execCmpFun sp m a s
  | .tbit sp m a => Sys2Proof.Machine.execTbit sp m a s
  | .ld8u sp u m a => Sys2Proof.Machine.execLd8u sp u m a s
  | .ld8s sp u m a => Sys2Proof.Machine.execLd8s sp u m a s
  | .ld16u sp u m a => Sys2Proof.Machine.execLd16u sp u m a s
  | .ld16s sp u m a => Sys2Proof.Machine.execLd16s sp u m a s
  | .ld32u sp u m a => Sys2Proof.Machine.execLd32u sp u m a s
  | .ld32s sp u m a => Sys2Proof.Machine.execLd32s sp u m a s
  | .ld64 sp u m a => Sys2Proof.Machine.execLd64 sp u m a s
  | .ld128 sp u m a => Sys2Proof.Machine.execLd128 sp u m a s
  | .ldcap sp u m a => Sys2Proof.Machine.execLdcap sp u m a s
  | .st sp u m a => Sys2Proof.Machine.execSt sp u m a s
  | .stcap sp u m a => Sys2Proof.Machine.execStcap sp u m a s
  | .atomCas sp u m a => Sys2Proof.Machine.execAtomCas sp u m a s
  | .atomFetchAdd sp u m a => Sys2Proof.Machine.execAtomFetchAdd sp u m a s
  | .atomSwap sp u m a => Sys2Proof.Machine.execAtomSwap sp u m a s
  | .atomBitSet sp u m a => Sys2Proof.Machine.execAtomBitSet sp u m a s
  | .atomBitClear sp u m a => Sys2Proof.Machine.execAtomBitClear sp u m a s
  | .br sp a => Sys2Proof.Machine.execBr sp a s
  | .bra sp a => Sys2Proof.Machine.execBra sp a s
  | .call sp a => Sys2Proof.Machine.execCall sp a s
  | .calla sp a => Sys2Proof.Machine.execCalla sp a s
  | .jcap sp c a => Sys2Proof.Machine.execJcap sp c a s
  | .callcap sp c a => Sys2Proof.Machine.execCallcap sp c a s
  | .loopPush sp a => Sys2Proof.Machine.execLoopPush sp a s
  | .breakLoop sp => Sys2Proof.Machine.execBreakLoop sp s
  | .narrow sp a => Sys2Proof.Machine.execNarrow sp a s
  | .pdrop sp a => Sys2Proof.Machine.execPdrop sp a s
  | .wrap sp a => Sys2Proof.Machine.execWrap sp a s
  | .unwrap sp a => Sys2Proof.Machine.execUnwrap sp a s
  | .tagq sp a => Sys2Proof.Machine.execTagq sp a s
  | .baseq sp a => Sys2Proof.Machine.execBaseq sp a s
  | .lenq sp a => Sys2Proof.Machine.execLenq sp a s
  | .infoq sp a => Sys2Proof.Machine.execInfoq sp a s
  | .untag sp a => Sys2Proof.Machine.execUntag sp a s
  | .mkentry sp a => Sys2Proof.Machine.execMkentry sp a s
  | .authq sp a => Sys2Proof.Machine.execAuthq sp a s
  | .trap sp a => Sys2Proof.Machine.execTrap sp a s
  | .eretTsb sp resume => Sys2Proof.Machine.execEretTsb sp resume s
  | .eretSlotToTsb sp => Sys2Proof.Machine.execEretSlotToTsb sp s
  | .eretSlot sp => Sys2Proof.Machine.execEretSlot sp s
  | .sync sp => Sys2Proof.Machine.execSync sp s
  | .fenceOrder sp => Sys2Proof.Machine.execFenceOrder sp s
  | .fenceVisible sp => Sys2Proof.Machine.execFenceVisible sp s
  | .time sp a => Sys2Proof.Machine.execTime sp a s
  | .entropy sp => Sys2Proof.Machine.execEntropy sp s
  | .waitUntil sp a => Sys2Proof.Machine.execWaitUntil sp a s
  | .waitEnd sp => Sys2Proof.Machine.execWaitEnd sp s
  | .deadlineReached sp => Sys2Proof.Machine.execDeadlineReached sp s
  | .clean sp a => Sys2Proof.Machine.execClean sp a s
  | .inval sp a => Sys2Proof.Machine.execInval sp a s
  | .discard sp a => Sys2Proof.Machine.execDiscard sp a s
  | .lockWay sp a => Sys2Proof.Machine.execLockWay sp a s
  | .lockFill sp a => Sys2Proof.Machine.execLockFill sp a s
  | .unlockWay sp a => Sys2Proof.Machine.execUnlockWay sp a s
  | .cacheopComplete sp => Sys2Proof.Machine.execCacheopComplete sp s
  | .fasten sp => Sys2Proof.Machine.execFasten sp s
  | .bmove sp src dst len => Sys2Proof.Machine.execBmove sp src dst len s
  | .bfill sp dst len fillByte => Sys2Proof.Machine.execBfill sp dst len fillByte s
  | .compress sp src dst len => Sys2Proof.Machine.execCompress sp src dst len s
  | .decompress sp src dst len => Sys2Proof.Machine.execDecompress sp src dst len s
  | .pressFinish sp src dst len => Sys2Proof.Machine.execPressFinish sp src dst len s
  | .encrypt sp src dst len => Sys2Proof.Machine.execEncrypt sp src dst len s
  | .decrypt sp src dst len => Sys2Proof.Machine.execDecrypt sp src dst len s
  | .cipherFinish sp src dst len => Sys2Proof.Machine.execCipherFinish sp src dst len s
  | .coprocessorRequest sp cop trig m a => Sys2Proof.Machine.execCoprocessorRequest sp cop trig m a s
  | .coprocessorResponse sp cop val => Sys2Proof.Machine.execCoprocessorResponse sp cop val s
  | .coprocessorTimeout sp cop => Sys2Proof.Machine.execCoprocessorTimeout sp cop s
  | .longOpProgressPoint sp => Sys2Proof.Machine.execLongOpProgressPoint sp s
  | .longOpComplete sp => Sys2Proof.Machine.execLongOpComplete sp s
  | .interruptDelivery sp => Sys2Proof.Machine.execInterruptDelivery sp s
  | .noticeDelivery sp => Sys2Proof.Machine.execNoticeDelivery sp s
  | .plyRetry sk pl ev => Sys2Proof.Machine.execPlyRetry sk pl ev s
  | .spareIssueStart sp => Sys2Proof.Machine.execSpareIssueStart sp s
  | .l2CleanTimeout sk pl => Sys2Proof.Machine.execL2CleanTimeout sk pl s
  | .agreementTimeout sk pl => Sys2Proof.Machine.execAgreementTimeout sk pl s
  | .checkpointUncorrectable sk pl region fibre => Sys2Proof.Machine.execCheckpointUncorrectable sk pl region fibre s
  | .draftWordUncorrectable sk pl => Sys2Proof.Machine.execDraftWordUncorrectable sk pl s
  | .splitPlyFailed sk pl => Sys2Proof.Machine.execSplitPlyFailed sk pl s
  | .comparatorTest sk pl flagged => Sys2Proof.Machine.execComparatorTest sk pl flagged s
  | .draftLoad sk pl crcOk => Sys2Proof.Machine.execDraftLoad sk pl crcOk s
  | .epochTick sk => Sys2Proof.Machine.execEpochTick sk s
  | .barrierComplete sk ns => Sys2Proof.Machine.execBarrierComplete sk ns s
  | .barrierTimeout sk pl fibre => Sys2Proof.Machine.execBarrierTimeout sk pl fibre s
  | .gatheringWindowClose sk => Sys2Proof.Machine.execGatheringWindowClose sk s
  | .dblLine sk line => Sys2Proof.Machine.execDblLine sk line s
  | .dblImage sk sp chunk => Sys2Proof.Machine.execDblImage sk sp chunk s
  | .epochCommit sk => Sys2Proof.Machine.execEpochCommit sk s
  | .dblAck sk => Sys2Proof.Machine.execDblAck sk s
  | .fastenDone slice p => Sys2Proof.Machine.execFastenDone slice p s
  | .journalWr p => Sys2Proof.Machine.execJournalWr p s
  | .journalCopyWriteback sk line => Sys2Proof.Machine.execJournalCopyWriteback sk line s
  | .release sk line => Sys2Proof.Machine.execRelease sk line s
  | .serialOutputGate sp => Sys2Proof.Machine.execSerialOutputGate sp s
  | .snoopHoldExpire sk line => Sys2Proof.Machine.execSnoopHoldExpire sk line s
  | .skeinLoss sk cause => Sys2Proof.Machine.execSkeinLoss sk cause s
  | .promotionWritebackComplete sk => Sys2Proof.Machine.execPromotionWritebackComplete sk s
  | .directorySweep slice line => Sys2Proof.Machine.execDirectorySweep slice line s
  | .rehostPlacement sp => Sys2Proof.Machine.execRehostPlacement sp s
  | .suspendedSpindlePlace sp => Sys2Proof.Machine.execSuspendedSpindlePlace sp s
  | .repairingComplete sk => Sys2Proof.Machine.execRepairingComplete sk s
  | .l1ParityError sk pl where_ line => Sys2Proof.Machine.execL1ParityError sk pl where_ line s
  | .cacheUncorrectable sk pl line => Sys2Proof.Machine.execCacheUncorrectable sk pl line s
  | .cacheTagDoubleFailure sk pl slot => Sys2Proof.Machine.execCacheTagDoubleFailure sk pl slot s
  | .buddyCopyLost sk line => Sys2Proof.Machine.execBuddyCopyLost sk line s
  | .prefetchIssue sk pl line => Sys2Proof.Machine.execPrefetchIssue sk pl line s
  | .prefetchAgeExpire sk pl line => Sys2Proof.Machine.execPrefetchAgeExpire sk pl line s
  | .cacheDrainComplete sk pl => Sys2Proof.Machine.execCacheDrainComplete sk pl s
  | .wayPowerOffComplete sk pl way => Sys2Proof.Machine.execWayPowerOffComplete sk pl way s
  | .cleanLimitTimeout sk pl => Sys2Proof.Machine.execCleanLimitTimeout sk pl s
  | .rdShared p => Sys2Proof.Machine.execRdShared p s
  | .rdOwn p => Sys2Proof.Machine.execRdOwn p s
  | .upgrade p => Sys2Proof.Machine.execUpgrade p s
  | .markM p => Sys2Proof.Machine.execMarkM p s
  | .wb p => Sys2Proof.Machine.execWb p s
  | .evictClean p => Sys2Proof.Machine.execEvictClean p s
  | .rdPeek p => Sys2Proof.Machine.execRdPeek p s
  | .wrFull p => Sys2Proof.Machine.execWrFull p s
  | .wrPart p => Sys2Proof.Machine.execWrPart p s
  | .snpShare p => Sys2Proof.Machine.execSnpShare p s
  | .snpInv p => Sys2Proof.Machine.execSnpInv p s
  | .snpPeek p => Sys2Proof.Machine.execSnpPeek p s
  | .recall p => Sys2Proof.Machine.execRecall p s
  | .holdRelease p => Sys2Proof.Machine.execHoldRelease p s
  | .data p => Sys2Proof.Machine.execData p s
  | .ack p => Sys2Proof.Machine.execAck p s
  | .nack p => Sys2Proof.Machine.execNack p s
  | .nackRetry p => Sys2Proof.Machine.execNackRetry p s
  | .evicting p => Sys2Proof.Machine.execEvicting p s
  | .grantS p => Sys2Proof.Machine.execGrantS p s
  | .grantE p => Sys2Proof.Machine.execGrantE p s
  | .grantUpg p => Sys2Proof.Machine.execGrantUpg p s
  | .wbAck p => Sys2Proof.Machine.execWbAck p s
  | .wrAck p => Sys2Proof.Machine.execWrAck p s
  | .peekData p => Sys2Proof.Machine.execPeekData p s
  | .progressLimit p => Sys2Proof.Machine.execProgressLimit p s
  | .dirEntryUncorrectable slice line => Sys2Proof.Machine.execDirEntryUncorrectable slice line s
  | .cxlBackInvalidate line shared => Sys2Proof.Machine.execCxlBackInvalidate line shared s
  | .cxlResponseLate line => Sys2Proof.Machine.execCxlResponseLate line s
  | .ucLd r => Sys2Proof.Machine.execUcLd r s
  | .ucSt r => Sys2Proof.Machine.execUcSt r s
  | .ucData sp val poisoned => Sys2Proof.Machine.execUcData sp val poisoned s
  | .ucAck sp => Sys2Proof.Machine.execUcAck sp s
  | .intr sp n => Sys2Proof.Machine.execIntr sp n s
  | .refused p => Sys2Proof.Machine.execRefused p s
  | .meshHeaderUncorrectable die => Sys2Proof.Machine.execMeshHeaderUncorrectable die s
  | .packetAgeIncrement p => Sys2Proof.Machine.execPacketAgeIncrement p s
  | .strandBlockReplay sk => Sys2Proof.Machine.execStrandBlockReplay sk s
  | .heartbeatMissing sk => Sys2Proof.Machine.execHeartbeatMissing sk s
  | .strandTraining sk hubMask buddyMask => Sys2Proof.Machine.execStrandTraining sk hubMask buddyMask s
  | .laneRetire sk buddy mask => Sys2Proof.Machine.execLaneRetire sk buddy mask s
  | .drain d => Sys2Proof.Machine.execDrain d s
  | .fenced d => Sys2Proof.Machine.execFenced d s
  | .forceFence d => Sys2Proof.Machine.execForceFence d s
  | .unfence d => Sys2Proof.Machine.execUnfence d s
  | .probeMatch die probe header payload => Sys2Proof.Machine.execProbeMatch die probe header payload s
  | .guestPacket site p => Sys2Proof.Machine.execGuestPacket site p s
  | .guestLinkLost site => Sys2Proof.Machine.execGuestLinkLost site s
  | .guestUcTimeout sp site => Sys2Proof.Machine.execGuestUcTimeout sp site s
  | .memoryReadComplete ch off r => Sys2Proof.Machine.execMemoryReadComplete ch off r s
  | .scrubRead ch r => Sys2Proof.Machine.execScrubRead ch r s
  | .scrubLapLate ch => Sys2Proof.Machine.execScrubLapLate ch s
  | .fill => Sys2Proof.Machine.execFill s
  | .fillComplete p0 => Sys2Proof.Machine.execFillComplete p0 s
  | .ddrTrainingComplete res => Sys2Proof.Machine.execDdrTrainingComplete res s
  | .channelLoss c => Sys2Proof.Machine.execChannelLoss c s
  | .channelRestoreComplete ch ok => Sys2Proof.Machine.execChannelRestoreComplete ch ok s
  | .arm ch w => Sys2Proof.Machine.execArm ch w s
  | .disarm ch => Sys2Proof.Machine.execDisarm ch s
  | .submit pg part w token => Sys2Proof.Machine.execSubmit pg part w token s
  | .cancel pg part tag => Sys2Proof.Machine.execCancel pg part tag s
  | .slotWrite pg k c => Sys2Proof.Machine.execSlotWrite pg k c s
  | .channelDispatch slot => Sys2Proof.Machine.execChannelDispatch slot s
  | .engineIssue slot => Sys2Proof.Machine.execEngineIssue slot s
  | .deviceAccept slot => Sys2Proof.Machine.execDeviceAccept slot s
  | .deviceCompletion slot attempt r => Sys2Proof.Machine.execDeviceCompletion slot attempt r s
  | .attemptTimeout slot => Sys2Proof.Machine.execAttemptTimeout slot s
  | .nvmeAbortComplete slot r => Sys2Proof.Machine.execNvmeAbortComplete slot r s
  | .attemptFailure slot => Sys2Proof.Machine.execAttemptFailure slot s
  | .pathWaitExpire slot => Sys2Proof.Machine.execPathWaitExpire slot s
  | .engineMismatch e => Sys2Proof.Machine.execEngineMismatch e s
  | .engineResetComplete e ok => Sys2Proof.Machine.execEngineResetComplete e ok s
  | .completionPost pg => Sys2Proof.Machine.execCompletionPost pg s
  | .consumedPoll pg => Sys2Proof.Machine.execConsumedPoll pg s
  | .coalesceTimeout pg => Sys2Proof.Machine.execCoalesceTimeout pg s
  | .ledgerWordUncorrectable slot w second both => Sys2Proof.Machine.execLedgerWordUncorrectable slot w second both s
  | .resetDrainExpire => Sys2Proof.Machine.execResetDrainExpire s
  | .flexPortTraining port r => Sys2Proof.Machine.execFlexPortTraining port r s
  | .inboundRequest r => Sys2Proof.Machine.execInboundRequest r s
  | .flexUncorrectableFatal port => Sys2Proof.Machine.execFlexUncorrectableFatal port s
  | .flexRetrain port r => Sys2Proof.Machine.execFlexRetrain port r s
  | .flexUcTimeout sp port => Sys2Proof.Machine.execFlexUcTimeout sp port s
  | .cxlCapacityEvent port rec => Sys2Proof.Machine.execCxlCapacityEvent port rec s
  | .rackBlockReplay r => Sys2Proof.Machine.execRackBlockReplay r s
  | .rackPortDown k => Sys2Proof.Machine.execRackPortDown k s
  | .rackRetrain k width => Sys2Proof.Machine.execRackRetrain k width s
  | .identityBlock k id => Sys2Proof.Machine.execIdentityBlock k id s
  | .opRead m => Sys2Proof.Machine.execOpRead m s
  | .opWrite m => Sys2Proof.Machine.execOpWrite m s
  | .opControl m => Sys2Proof.Machine.execOpControl m s
  | .opSense m => Sys2Proof.Machine.execOpSense m s
  | .abort m => Sys2Proof.Machine.execAbort m s
  | .rackData m => Sys2Proof.Machine.execRackData m s
  | .result m => Sys2Proof.Machine.execResult m s
  | .clear m => Sys2Proof.Machine.execClear m s
  | .retryLater m => Sys2Proof.Machine.execRetryLater m s
  | .dedupEntryExpire tag => Sys2Proof.Machine.execDedupEntryExpire tag s
  | .rackOperationTimeout slot => Sys2Proof.Machine.execRackOperationTimeout slot s
  | .histCap pg c => Sys2Proof.Machine.execHistCap pg c s
  | .keyCommit pg w => Sys2Proof.Machine.execKeyCommit pg w s
  | .keyClear pg w => Sys2Proof.Machine.execKeyClear pg w s
  | .pcUnitIdleOff sk u => Sys2Proof.Machine.execPcUnitIdleOff sk u s
  | .contextRecall pg u => Sys2Proof.Machine.execContextRecall pg u s
  | .unitMismatch sk u => Sys2Proof.Machine.execUnitMismatch sk u s
  | .entropyHealthFail sk => Sys2Proof.Machine.execEntropyHealthFail sk s
  | .contextUncorrectable pg => Sys2Proof.Machine.execContextUncorrectable pg s
  | .faultEvent e => Sys2Proof.Machine.execFaultEvent e s
  | .countdownExpire seq => Sys2Proof.Machine.execCountdownExpire seq s
  | .faultForce w => Sys2Proof.Machine.execFaultForce w s
  | .faultCarryClr w => Sys2Proof.Machine.execFaultCarryClr w s
  | .snapTrigger w => Sys2Proof.Machine.execSnapTrigger w s
  | .snapshotDrainComplete => Sys2Proof.Machine.execSnapshotDrainComplete s
  | .logSecondBoundary => Sys2Proof.Machine.execLogSecondBoundary s
  | .serviceLimitExpire => Sys2Proof.Machine.execServiceLimitExpire s
  | .jalifMismatch => Sys2Proof.Machine.execJalifMismatch s
  | .hubCompareMismatch block => Sys2Proof.Machine.execHubCompareMismatch block s
  | .paramRead mb id idx off => Sys2Proof.Machine.execParamRead mb id idx off s
  | .reelInfo mb => Sys2Proof.Machine.execReelInfo mb s
  | .faultAck mb seq => Sys2Proof.Machine.execFaultAck mb seq s
  | .faultClear mb seq => Sys2Proof.Machine.execFaultClear mb seq s
  | .faultRead mb buf first count => Sys2Proof.Machine.execFaultRead mb buf first count s
  | .openChange mb => Sys2Proof.Machine.execOpenChange mb s
  | .stage mb id idx val => Sys2Proof.Machine.execStage mb id idx val s
  | .check mb => Sys2Proof.Machine.execCheck mb s
  | .commit mb => Sys2Proof.Machine.execCommit mb s
  | .commitStagingAck die => Sys2Proof.Machine.execCommitStagingAck die s
  | .commitAckTimeout => Sys2Proof.Machine.execCommitAckTimeout s
  | .abortChange mb => Sys2Proof.Machine.execAbortChange mb s
  | .changeIdleExpire => Sys2Proof.Machine.execChangeIdleExpire s
  | .changeStatus mb => Sys2Proof.Machine.execChangeStatus mb s
  | .census mb => Sys2Proof.Machine.execCensus mb s
  | .freeze mb scope target => Sys2Proof.Machine.execFreeze mb scope target s
  | .freezeComplete scope target => Sys2Proof.Machine.execFreezeComplete scope target s
  | .thaw mb scope target => Sys2Proof.Machine.execThaw mb scope target s
  | .spindleSave mb sp key buf rel => Sys2Proof.Machine.execSpindleSave mb sp key buf rel s
  | .spindleRestore mb sp buf => Sys2Proof.Machine.execSpindleRestore mb sp buf s
  | .tenantSave mb c buf rel => Sys2Proof.Machine.execTenantSave mb c buf rel s
  | .tenantRestore mb c buf => Sys2Proof.Machine.execTenantRestore mb c buf s
  | .channelExport mb pg buf => Sys2Proof.Machine.execChannelExport mb pg buf s
  | .channelImport mb pg buf => Sys2Proof.Machine.execChannelImport mb pg buf s
  | .tagsSave mb addr len key buf => Sys2Proof.Machine.execTagsSave mb addr len key buf s
  | .tagsRestore mb addr len buf => Sys2Proof.Machine.execTagsRestore mb addr len buf s
  | .migrationKeySet mb key val => Sys2Proof.Machine.execMigrationKeySet mb key val s
  | .migrationKeyClear mb key => Sys2Proof.Machine.execMigrationKeyClear mb key s
  | .spindleRestart mb sp fromSlot => Sys2Proof.Machine.execSpindleRestart mb sp fromSlot s
  | .spindleRelease mb sp => Sys2Proof.Machine.execSpindleRelease mb sp s
  | .spindleSlotRead mb sp buf => Sys2Proof.Machine.execSpindleSlotRead mb sp buf s
  | .spindleMove mb sp sk dest => Sys2Proof.Machine.execSpindleMove mb sp sk dest s
  | .serviceEnter mb => Sys2Proof.Machine.execServiceEnter mb s
  | .serviceExit mb => Sys2Proof.Machine.execServiceExit mb s
  | .cmpTest mb sp => Sys2Proof.Machine.execCmpTest mb sp s
  | .cmpInject mb sp group bit count => Sys2Proof.Machine.execCmpInject mb sp group bit count s
  | .snapshot mb => Sys2Proof.Machine.execSnapshot mb s
  | .logRead mb log slot start count buf => Sys2Proof.Machine.execLogRead mb log slot start count buf s
  | .retirePage mb addr => Sys2Proof.Machine.execRetirePage mb addr s
  | .memChannelRetrain mb ch => Sys2Proof.Machine.execMemChannelRetrain mb ch s
  | .resetReelCold mb => Sys2Proof.Machine.execResetReelCold mb s
  | .resetReelWarm mb => Sys2Proof.Machine.execResetReelWarm mb s
  | .resetSkein mb sk => Sys2Proof.Machine.execResetSkein mb sk s
  | .resetRackPort mb k => Sys2Proof.Machine.execResetRackPort mb k s
  | .resetFlexGroup mb g => Sys2Proof.Machine.execResetFlexGroup mb g s
  | .bootRecordWrite mb buf => Sys2Proof.Machine.execBootRecordWrite mb buf s
  | .bootRecordRead mb buf => Sys2Proof.Machine.execBootRecordRead mb buf s
  | .firmwareWrite mb buf img => Sys2Proof.Machine.execFirmwareWrite mb buf img s
  | .ownerKeyFuse mb digest => Sys2Proof.Machine.execOwnerKeyFuse mb digest s
  | .firmwareRecover mb img => Sys2Proof.Machine.execFirmwareRecover mb img s
  | .noticeCons p w => Sys2Proof.Machine.execNoticeCons p w s
  | .tallyPulse => Sys2Proof.Machine.execTallyPulse s
  | .partitionRelease p => Sys2Proof.Machine.execPartitionRelease p s
  | .registerWrite r => Sys2Proof.Machine.execRegisterWrite r s
  | .beadGrant d => Sys2Proof.Machine.execBeadGrant d s
  | .grantWaitTimeout d => Sys2Proof.Machine.execGrantWaitTimeout d s
  | .stepChangeComplete sk pl => Sys2Proof.Machine.execStepChangeComplete sk pl s
  | .waitDrop sk pl => Sys2Proof.Machine.execWaitDrop sk pl s
  | .telemetrySample t => Sys2Proof.Machine.execTelemetrySample t s
  | .rebalance => Sys2Proof.Machine.execRebalance s
  | .domainPowerUpTimeout d => Sys2Proof.Machine.execDomainPowerUpTimeout d s
  | .thermalThrottle d => Sys2Proof.Machine.execThermalThrottle d s
  | .throttleRelease d => Sys2Proof.Machine.execThrottleRelease d s
  | .thermalTrip d => Sys2Proof.Machine.execThermalTrip d s
  | .refclkSwitch => Sys2Proof.Machine.execRefclkSwitch s
  | .bothReferencesLost => Sys2Proof.Machine.execBothReferencesLost s
  | .tallyMarkOut => Sys2Proof.Machine.execTallyMarkOut s
  | .tallyMarkIn bit off => Sys2Proof.Machine.execTallyMarkIn bit off s
  | .tallyMarkLoss => Sys2Proof.Machine.execTallyMarkLoss s
  | .pwrOkFall => Sys2Proof.Machine.execPwrOkFall s
  | .resetNFall => Sys2Proof.Machine.execResetNFall s
  | .resetNRise b => Sys2Proof.Machine.execResetNRise b s
  | .vddAonRise => Sys2Proof.Machine.execVddAonRise s
  | .pgCoreFall d => Sys2Proof.Machine.execPgCoreFall d s
  | .pgAuxFall rail => Sys2Proof.Machine.execPgAuxFall rail s
  | .pmbAlert rails => Sys2Proof.Machine.execPmbAlert rails s
  | .skeinReadmission sk r => Sys2Proof.Machine.execSkeinReadmission sk r s
  | .bypass => Sys2Proof.Machine.execBypass s
  | .idcode => Sys2Proof.Machine.execIdcode s
  | .samplePreload => Sys2Proof.Machine.execSamplePreload s
  | .extest => Sys2Proof.Machine.execExtest s
  | .clamp => Sys2Proof.Machine.execClamp s
  | .highz => Sys2Proof.Machine.execHighz s
  | .pwrOkRise b => Sys2Proof.Machine.execPwrOkRise b s
  | .resetBegin b => Sys2Proof.Machine.execResetBegin b s
  | .jalifWatchdogExpire => Sys2Proof.Machine.execJalifWatchdogExpire s
  | .retryLaterWaitEnd slot => Sys2Proof.Machine.execRetryLaterWaitEnd slot s
  | .pcieCorrectableError port => Sys2Proof.Machine.execPcieCorrectableError port s
  | .domainPowerOnComplete d => Sys2Proof.Machine.execDomainPowerOnComplete d s
  | .runtimeSelfTestComplete sk pl pass => Sys2Proof.Machine.execRuntimeSelfTestComplete sk pl pass s
  | .reservedWayCleanComplete sk => Sys2Proof.Machine.execReservedWayCleanComplete sk s
  | .entropyTestPass sk => Sys2Proof.Machine.execEntropyTestPass sk s
  | .guestLinkTraining site r => Sys2Proof.Machine.execGuestLinkTraining site r s

end Sys2Proof.Machine
end

