-- ==== Sys2Proof/Machine/Tick.lean ====
section
/-!
DEFINITION. What an idle step does: the timebase counts one tick, and the hub serves its endpoints' message rings.
-/

namespace Sys2Proof.Machine

/-- One tick of the timebase, which counts modulo 2^64 whenever the always-on domain has power (R492). Endpoint messages that
wait for room in their rings and their notifications (R387), the recall of retired pages (R320), and coprocessor requests held for
their partition's rate (R292), for which the table has no rows, are tried again; every other
effect of time is a command of its own (DESIGN CHOICE, log 4). -/
def idleTick (s : State) : State := { s with time := (s.time + 1) % 2 ^ 64 }.endpointTurn.retireFlush.copPump

end Sys2Proof.Machine
end

