-- ==== Sys2Proof/Machine/Step.lean ====
section
/-!
DEFINITION. One step of the reel: the command at the front of the queue, or one tick of the timebase when the queue is
empty (log 4).
-/

namespace Sys2Proof.Machine

/-- Take the command at the front of the queue and run it with the queue's rest; on an empty queue the timebase counts
one tick (R492; DESIGN CHOICE, log 4). -/
def step (s : State) : Host.Outcome State Fault Refusal :=
  match s.pending with
  | c :: rest => exec c { s with pending := rest }
  | [] => .next (idleTick s)

/-- s with the command that the word spells in front of its queue; the table gives no row a bit, so no word spells one
and s is unchanged. -/
def State.withFetchWord (s : State) (nbits w : Nat) : State :=
  match Sys2Proof.decodeTableWord nbits w with
  | some c => { s with pending := c :: s.pending }
  | none => s

end Sys2Proof.Machine
end

