-- ==== Sys2Proof/WellFormed.lean ====
section
/-!
DEFINITION. The operands that a command of this reel can carry: the widths of the fabric header (R271), of an uncached access
(R40, R272), of a rack message (R383), of a mailbox request (R451, R454) and of an event (R424, R426). The meanings hold for
every operand; a statement that is about commands as the reel can receive them takes wf as a premise.
-/

namespace Sys2Proof

/-- The fields of a header flit fit their widths, and LEN is at most 8 (R271). -/
def Packet.wf (p : Packet) : Bool :=
  decide (p.cmd < 2 ^ 6) && decide (p.age < 16) && decide (p.len ≤ 8) && decide (p.tag < 2 ^ 16) && decide (p.src ≤ 14) &&
    decide (p.dst ≤ 14) && decide (p.srcNode < 2 ^ 8) && decide (p.dstNode < 2 ^ 8) && decide (p.part < 2 ^ 6) &&
    decide (p.line < 2 ^ 45) && decide (p.aux < 2 ^ 8) && p.tenant.all (fun t => decide (t < 4096))

/-- An access of 4, 8 or 16 bytes at an address of 64 bits (R40, R272). -/
def Uc.wf (r : Uc) : Bool :=
  (r.size == 4 || r.size == 8 || r.size == 16) && decide (r.addr < 2 ^ 64)

/-- The fields of a rack message's header fit their widths (R383). -/
def RackMsg.wf (m : RackMsg) : Bool :=
  decide (m.attempt < 16) && decide (m.tag < 2 ^ 48) && decide (m.endpoint < 2 ^ 16) && decide (m.devaddr < 2 ^ 64) &&
    decide (m.total < 2 ^ 36) && decide (m.offset < 2 ^ 36) && decide (m.code < 2 ^ 16) && decide (m.incarnation < 2 ^ 32) &&
    decide (m.doneBytes < 2 ^ 36) && decide (m.hint < 2 ^ 32) && decide (m.data.length ≤ 128) && decide (m.seq < 2 ^ 20) &&
    decide (m.ack < 2 ^ 20) && decide (m.reqCredit < 2 ^ 12) && decide (m.rspCredit < 2 ^ 12)

/-- A mailbox page or the BMC mailbox, one of its four slots, and a SEQ of 32 bits (R451, R454). -/
def Mb.wf (m : Mb) : Bool := decide (m.page ≤ 49) && decide (m.slot < 4) && decide (m.seq < 2 ^ 32)

/-- A buffer's address and length are words (R454). -/
def Buf.wf (b : Buf) : Bool := decide (b.addr < 2 ^ 64) && decide (b.len < 2 ^ 64)

/-- An event's source ID and INSTANCE are 16 bits each, and it names a spindle of the reel if any (R424, R426). -/
def EventIn.wf (e : EventIn) : Bool :=
  decide (e.src < 2 ^ 16) && decide (e.inst < 2 ^ 16) && e.spindle.all (fun i => decide (i < 480))

/-- An upstream request moves at most 4,096 bytes (R372). -/
def Inbound.wf (r : Inbound) : Bool :=
  decide (r.rid < 2 ^ 16) && decide (r.addr < 2 ^ 64) && decide (r.len ≤ 4096) && decide (r.data.length ≤ 4096)

/-- A peer's reel number is 12 bits, its incarnation 32 (R382). -/
def RackIdentity.wf (r : RackIdentity) : Bool := decide (r.reel < 2 ^ 12) && decide (r.incarnation < 2 ^ 32)

/-- A sample reports each of the 13 dies (R483). -/
def Telemetry.wf (t : Telemetry) : Bool := t.dies.length == 13 && t.faults.all fun n => decide (n < 24)

/-- A failed comparator test is that of one of n plies, and one of its groups did not flag (R164). -/
def cmpBadOk (n : Nat) (e : Nat × Word) : Bool := decide (e.1 < n) && e.2 != BitVec.allOnes 64

/-- What re-admission finds of the 20 plies (R498). -/
def AdmitResult.wf (r : AdmitResult) : Bool := r.cmpBad.all (cmpBadOk 20)

/-- A bank's VERSION has 32 bits, and its draft image holds at most 24,576 bytes of code (R167, R449). -/
def BankImage.wf (i : BankImage) : Bool :=
  decide (i.version < 2 ^ 32) && decide (i.draft.length ≤ 24576) && decide (i.draft.version < 2 ^ 32) && decide (i.draft.crc < 2 ^ 32)

/-- Boot reports each of the 13 core regulators, of the 12 skeins and of the 240 plies (R500, R501, R508). -/
def BootIn.wf (b : BootIn) : Bool :=
  b.iout.length == 13 && b.hubMasks.length == 12 && b.hubFars.length == 12 && b.buddyMasks.length == 12 && b.plyGood.length == 12 && b.cmpBad.all (cmpBadOk 240) &&
    b.draftOk.length == 12 && b.plyErrors.length == 240

/-- Training reports each of the 16 channels (R298). -/
def wfTrain (r : List ChTrain) : Bool := r.length == 16 && r.all fun t => decide (t.rate < 4) && decide (t.dimms < 4)

/-- A command whose operands the reel can receive. -/
def Instr.wf : Instr → Bool
  | .bundleNormal _ => true
  | .bundleLongImmediate _ => true
  | .bundleCoprocessor _ => true
  | .unitCompletion _ _ => true
  | .add _ _ _ => true
  | .sub _ _ _ => true
  | .addt _ _ _ => true
  | .subt _ _ _ => true
  | .and _ _ _ => true
  | .or _ _ _ => true
  | .xor _ _ _ => true
  | .andn _ _ _ => true
  | .shl _ _ _ => true
  | .shr _ _ _ => true
  | .sar _ _ _ => true
  | .addc _ _ _ => true
  | .mul _ _ => true
  | .umul _ _ => true
  | .smul _ _ => true
  | .mult _ _ => true
  | .udiv _ _ => true
  | .sdiv _ _ => true
  | .urem _ _ => true
  | .srem _ _ => true
  | .fadd _ _ _ _ => true
  | .fsub _ _ _ _ => true
  | .fmul _ _ _ _ => true
  | .fdiv _ _ _ _ => true
  | .fsqrt _ _ _ _ => true
  | .fma _ _ _ _ => true
  | .cvtfi _ _ _ _ => true
  | .cvtif _ _ _ _ => true
  | .cvtff _ _ _ _ => true
  | .fmin _ _ _ _ => true
  | .fmax _ _ _ _ => true
  | .fclass _ _ _ _ => true
  | .dadd _ _ _ => true
  | .dsub _ _ _ => true
  | .dmul _ _ _ => true
  | .ddiv _ _ _ => true
  | .dfma _ _ _ => true
  | .dquant _ _ _ => true
  | .drrnd _ _ _ => true
  | .dcvtid _ _ _ => true
  | .dcvtdi _ _ _ => true
  | .dcvtdd _ _ _ => true
  | .dldiv _ _ _ => true
  | .dsqrt _ _ _ => true
  | .extu _ _ => true
  | .exts _ _ => true
  | .ins _ _ => true
  | .clz _ _ => true
  | .ctz _ _ => true
  | .popc _ _ => true
  | .perm _ _ => true
  | .bswap _ _ => true
  | .rol _ _ => true
  | .ror _ _ => true
  | .cmpEq _ _ _ => true
  | .cmpNe _ _ _ => true
  | .cmpLt _ _ _ => true
  | .cmpLe _ _ _ => true
  | .cmpLtu _ _ _ => true
  | .cmpLeu _ _ _ => true
  | .cmpFeq _ _ _ => true
  | .cmpFlt _ _ _ => true
  | .cmpFle _ _ _ => true
  | .cmpFun _ _ _ => true
  | .tbit _ _ _ => true
  | .ld8u _ _ _ _ => true
  | .ld8s _ _ _ _ => true
  | .ld16u _ _ _ _ => true
  | .ld16s _ _ _ _ => true
  | .ld32u _ _ _ _ => true
  | .ld32s _ _ _ _ => true
  | .ld64 _ _ _ _ => true
  | .ld128 _ _ _ _ => true
  | .ldcap _ _ _ _ => true
  | .st _ _ _ _ => true
  | .stcap _ _ _ _ => true
  | .atomCas _ _ _ _ => true
  | .atomFetchAdd _ _ _ _ => true
  | .atomSwap _ _ _ _ => true
  | .atomBitSet _ _ _ _ => true
  | .atomBitClear _ _ _ _ => true
  | .br _ _ => true
  | .bra _ _ => true
  | .call _ _ => true
  | .calla _ _ => true
  | .jcap _ _ _ => true
  | .callcap _ _ _ => true
  | .loopPush _ _ => true
  | .breakLoop _ => true
  | .narrow _ _ => true
  | .pdrop _ _ => true
  | .wrap _ _ => true
  | .unwrap _ _ => true
  | .tagq _ _ => true
  | .baseq _ _ => true
  | .lenq _ _ => true
  | .infoq _ _ => true
  | .untag _ _ => true
  | .mkentry _ _ => true
  | .authq _ _ => true
  | .trap _ _ => true
  | .eretTsb _ _ => true
  | .eretSlotToTsb _ => true
  | .eretSlot _ => true
  | .sync _ => true
  | .fenceOrder _ => true
  | .fenceVisible _ => true
  | .time _ _ => true
  | .entropy _ => true
  | .waitUntil _ _ => true
  | .waitEnd _ => true
  | .deadlineReached _ => true
  | .clean _ _ => true
  | .inval _ _ => true
  | .discard _ _ => true
  | .lockWay _ _ => true
  | .lockFill _ _ => true
  | .unlockWay _ _ => true
  | .cacheopComplete _ => true
  | .fasten _ => true
  | .bmove _ _ _ _ => true
  | .bfill _ _ _ _ => true
  | .compress _ _ _ _ => true
  | .decompress _ _ _ _ => true
  | .pressFinish _ _ _ _ => true
  | .encrypt _ _ _ _ => true
  | .decrypt _ _ _ _ => true
  | .cipherFinish _ _ _ _ => true
  | .coprocessorRequest _ _ _ _ _ => true
  | .coprocessorResponse _ _ _ => true
  | .coprocessorTimeout _ _ => true
  | .longOpProgressPoint _ => true
  | .longOpComplete _ => true
  | .interruptDelivery _ => true
  | .noticeDelivery _ => true
  | .plyRetry _ _ _ => true
  | .spareIssueStart _ => true
  | .l2CleanTimeout _ _ => true
  | .agreementTimeout _ _ => true
  | .checkpointUncorrectable _ _ _ _ => true
  | .draftWordUncorrectable _ _ => true
  | .splitPlyFailed _ _ => true
  | .comparatorTest _ _ _ => true
  | .draftLoad _ _ _ => true
  | .epochTick _ => true
  | .barrierComplete _ ns => decide (ns < 2 ^ 64)
  | .barrierTimeout _ _ _ => true
  | .gatheringWindowClose _ => true
  | .dblLine _ line => decide (line < 2 ^ 45)
  | .dblImage _ _ _ => true
  | .epochCommit _ => true
  | .dblAck _ => true
  | .fastenDone _ p => p.wf
  | .journalWr p => p.wf
  | .journalCopyWriteback _ line => decide (line < 2 ^ 45)
  | .release _ line => decide (line < 2 ^ 45)
  | .serialOutputGate _ => true
  | .snoopHoldExpire _ line => decide (line < 2 ^ 45)
  | .skeinLoss _ _ => true
  | .promotionWritebackComplete _ => true
  | .directorySweep _ line => decide (line < 2 ^ 45)
  | .rehostPlacement _ => true
  | .suspendedSpindlePlace _ => true
  | .repairingComplete _ => true
  | .l1ParityError _ _ _ line => decide (line < 2 ^ 45)
  | .cacheUncorrectable _ _ line => decide (line < 2 ^ 45)
  | .cacheTagDoubleFailure _ _ _ => true
  | .buddyCopyLost _ line => decide (line < 2 ^ 45)
  | .prefetchIssue _ _ line => decide (line < 2 ^ 45)
  | .prefetchAgeExpire _ _ line => decide (line < 2 ^ 45)
  | .cacheDrainComplete _ _ => true
  | .wayPowerOffComplete _ _ _ => true
  | .cleanLimitTimeout _ _ => true
  | .rdShared p => p.wf
  | .rdOwn p => p.wf
  | .upgrade p => p.wf
  | .markM p => p.wf
  | .wb p => p.wf
  | .evictClean p => p.wf
  | .rdPeek p => p.wf
  | .wrFull p => p.wf
  | .wrPart p => p.wf
  | .snpShare p => p.wf
  | .snpInv p => p.wf
  | .snpPeek p => p.wf
  | .recall p => p.wf
  | .holdRelease p => p.wf
  | .data p => p.wf
  | .ack p => p.wf
  | .nack p => p.wf
  | .nackRetry p => p.wf
  | .evicting p => p.wf
  | .grantS p => p.wf
  | .grantE p => p.wf
  | .grantUpg p => p.wf
  | .wbAck p => p.wf
  | .wrAck p => p.wf
  | .peekData p => p.wf
  | .progressLimit p => p.wf
  | .dirEntryUncorrectable _ line => decide (line < 2 ^ 45)
  | .cxlBackInvalidate line _ => decide (line < 2 ^ 45)
  | .cxlResponseLate line => decide (line < 2 ^ 45)
  | .ucLd r => r.wf
  | .ucSt r => r.wf
  | .ucData _ _ _ => true
  | .ucAck _ => true
  | .intr _ _ => true
  | .refused p => p.wf
  | .meshHeaderUncorrectable _ => true
  | .packetAgeIncrement p => p.wf
  | .strandBlockReplay _ => true
  | .heartbeatMissing _ => true
  | .strandTraining _ _ _ => true
  | .laneRetire _ _ _ => true
  | .drain _ => true
  | .fenced _ => true
  | .forceFence _ => true
  | .unfence _ => true
  | .probeMatch _ _ _ _ => true
  | .guestPacket _ p => p.wf
  | .guestLinkLost _ => true
  | .guestUcTimeout _ _ => true
  | .memoryReadComplete _ off _ => decide (off < 2 ^ 52)
  | .scrubRead _ _ => true
  | .scrubLapLate _ => true
  | .fill => true
  | .fillComplete _ => true
  | .ddrTrainingComplete res => wfTrain res
  | .channelLoss _ => true
  | .channelRestoreComplete _ _ => true
  | .arm _ _ => true
  | .disarm _ => true
  | .submit _ _ _ _ => true
  | .cancel _ _ _ => true
  | .slotWrite _ _ _ => true
  | .channelDispatch _ => true
  | .engineIssue _ => true
  | .deviceAccept _ => true
  | .deviceCompletion _ attempt _ => decide (attempt < 16)
  | .attemptTimeout _ => true
  | .nvmeAbortComplete _ _ => true
  | .attemptFailure _ => true
  | .pathWaitExpire _ => true
  | .engineMismatch _ => true
  | .engineResetComplete _ _ => true
  | .completionPost _ => true
  | .consumedPoll _ => true
  | .coalesceTimeout _ => true
  | .ledgerWordUncorrectable _ _ _ _ => true
  | .resetDrainExpire => true
  | .flexPortTraining _ _ => true
  | .inboundRequest r => r.wf
  | .flexUncorrectableFatal _ => true
  | .flexRetrain _ _ => true
  | .flexUcTimeout _ _ => true
  | .cxlCapacityEvent _ _ => true
  | .rackBlockReplay _ => true
  | .rackPortDown _ => true
  | .rackRetrain _ _ => true
  | .identityBlock _ id => id.wf
  | .opRead m => m.wf
  | .opWrite m => m.wf
  | .opControl m => m.wf
  | .opSense m => m.wf
  | .abort m => m.wf
  | .rackData m => m.wf
  | .result m => m.wf
  | .clear m => m.wf
  | .retryLater m => m.wf
  | .dedupEntryExpire tag => decide (tag < 2 ^ 48)
  | .rackOperationTimeout _ => true
  | .histCap _ _ => true
  | .keyCommit _ _ => true
  | .keyClear _ _ => true
  | .pcUnitIdleOff _ _ => true
  | .contextRecall _ _ => true
  | .unitMismatch _ _ => true
  | .entropyHealthFail _ => true
  | .contextUncorrectable _ => true
  | .faultEvent e => e.wf
  | .countdownExpire seq => decide (seq < 2 ^ 32)
  | .faultForce _ => true
  | .faultCarryClr _ => true
  | .snapTrigger _ => true
  | .snapshotDrainComplete => true
  | .logSecondBoundary => true
  | .serviceLimitExpire => true
  | .jalifMismatch => true
  | .hubCompareMismatch block => decide (block < 2 ^ 12)
  | .paramRead mb _ _ off => mb.wf && decide (off < 2 ^ 52)
  | .reelInfo mb => mb.wf
  | .faultAck mb seq => mb.wf && decide (seq < 2 ^ 32)
  | .faultClear mb seq => mb.wf && decide (seq < 2 ^ 32)
  | .faultRead mb buf _ _ => mb.wf && buf.wf
  | .openChange mb => mb.wf
  | .stage mb _ _ _ => mb.wf
  | .check mb => mb.wf
  | .commit mb => mb.wf
  | .commitStagingAck _ => true
  | .commitAckTimeout => true
  | .abortChange mb => mb.wf
  | .changeIdleExpire => true
  | .changeStatus mb => mb.wf
  | .census mb => mb.wf
  | .freeze mb _ _ => mb.wf
  | .freezeComplete _ _ => true
  | .thaw mb _ _ => mb.wf
  | .spindleSave mb _ _ buf _ => mb.wf && buf.wf
  | .spindleRestore mb _ buf => mb.wf && buf.wf
  | .tenantSave mb _ buf _ => mb.wf && buf.wf
  | .tenantRestore mb _ buf => mb.wf && buf.wf
  | .channelExport mb _ buf => mb.wf && buf.wf
  | .channelImport mb _ buf => mb.wf && buf.wf
  | .tagsSave mb addr len _ buf => mb.wf && decide (addr < 2 ^ 64) && decide (len < 2 ^ 64) && buf.wf
  | .tagsRestore mb addr len buf => mb.wf && decide (addr < 2 ^ 64) && decide (len < 2 ^ 64) && buf.wf
  | .migrationKeySet mb _ _ => mb.wf
  | .migrationKeyClear mb _ => mb.wf
  | .spindleRestart mb _ _ => mb.wf
  | .spindleRelease mb _ => mb.wf
  | .spindleSlotRead mb _ buf => mb.wf && buf.wf
  | .spindleMove mb _ _ _ => mb.wf
  | .serviceEnter mb => mb.wf
  | .serviceExit mb => mb.wf
  | .cmpTest mb _ => mb.wf
  | .cmpInject mb _ _ _ _ => mb.wf
  | .snapshot mb => mb.wf
  | .logRead mb _ _ _ _ buf => mb.wf && buf.wf
  | .retirePage mb addr => mb.wf && decide (addr < 2 ^ 64)
  | .memChannelRetrain mb _ => mb.wf
  | .resetReelCold mb => mb.wf
  | .resetReelWarm mb => mb.wf
  | .resetSkein mb _ => mb.wf
  | .resetRackPort mb _ => mb.wf
  | .resetFlexGroup mb _ => mb.wf
  | .bootRecordWrite mb buf => mb.wf && buf.wf
  | .bootRecordRead mb buf => mb.wf && buf.wf
  | .firmwareWrite mb buf img => mb.wf && buf.wf && img.wf
  | .ownerKeyFuse mb _ => mb.wf
  | .firmwareRecover mb img => mb.wf && img.wf
  | .noticeCons _ _ => true
  | .tallyPulse => true
  | .partitionRelease _ => true
  | .registerWrite r => r.wf
  | .beadGrant _ => true
  | .grantWaitTimeout _ => true
  | .stepChangeComplete _ _ => true
  | .waitDrop _ _ => true
  | .telemetrySample t => t.wf
  | .rebalance => true
  | .domainPowerUpTimeout _ => true
  | .thermalThrottle _ => true
  | .throttleRelease _ => true
  | .thermalTrip _ => true
  | .refclkSwitch => true
  | .bothReferencesLost => true
  | .tallyMarkOut => true
  | .tallyMarkIn _ _ => true
  | .tallyMarkLoss => true
  | .pwrOkFall => true
  | .resetNFall => true
  | .resetNRise b => b.wf
  | .vddAonRise => true
  | .pgCoreFall _ => true
  | .pgAuxFall _ => true
  | .pmbAlert _ => true
  | .skeinReadmission _ r => r.wf
  | .bypass => true
  | .idcode => true
  | .samplePreload => true
  | .extest => true
  | .clamp => true
  | .highz => true
  | .pwrOkRise b => b.wf
  | .resetBegin b => b.wf
  | .jalifWatchdogExpire => true
  | .retryLaterWaitEnd _ => true
  | .pcieCorrectableError _ => true
  | .domainPowerOnComplete _ => true
  | .runtimeSelfTestComplete _ _ _ => true
  | .reservedWayCleanComplete _ => true
  | .entropyTestPass _ => true
  | .guestLinkTraining _ _ => true

end Sys2Proof
end

