-- ==== Sys2Proof/Safety.lean ====
section
/-!
DEFINITION. The terms in which claims about the reel are made: a state between two commands, a spindle that may issue, and
what a command of one spindle leaves as it was.
-/

namespace Sys2Proof.Machine

/-- No reaction of the fault collector waits (R427): the state stands between two commands. -/
def State.Quiet (s : State) : Prop := s.faults.todo = []

/-- Spindle i may issue a bundle on place h, and nothing of an earlier one is in flight: no event is due, no operation, store
or serial output is under way, and no arithmetic record is pending (R60, R103, R136, R187). -/
structure State.Ready (s : State) (i : Nat) (h : Place) : Prop where
  issues : s.canIssue i = true
  place  : (s.sp i).host = some h
  calm   : s.takeEvents i = none
  ops    : (s.sp i).ops = []
  stores : (s.sp i).stores = []
  serial : (s.sp i).serial = none
  arith  : (s.sp i).arch.pendInfo = 0
  loose  : (s.sp i).arch.precise = false
  quiet  : s.Quiet

/-- Outside the spindles, the plies, the skeins and the fabric, and the MODEL's own counter of free values, t is s. -/
def State.SameOutside (s t : State) : Prop :=
  t.time = s.time ∧ t.life = s.life ∧ t.mem = s.mem ∧ t.mcs = s.mcs ∧ t.chan = s.chan ∧ t.links = s.links ∧
    t.tenants = s.tenants ∧ t.faults = s.faults ∧ t.jalif = s.jalif ∧ t.params = s.params ∧ t.power = s.power ∧
    t.pins = s.pins ∧ t.hubGen = s.hubGen ∧ t.pending = s.pending

/-- Nothing but spindle i differs: no other spindle, no ply, no skein, no line of memory, no home slice, no packet. -/
def State.OnlySpindle (s t : State) (i : Nat) : Prop :=
  s.SameOutside t ∧ (∀ j, j ≠ i → t.sp j = s.sp j) ∧ t.cores.plies = s.cores.plies ∧ (∀ k, t.sk k = s.sk k) ∧
    t.home = s.home ∧ t.fab = s.fab

/-- As OnlySpindle, but for the skein that hosts the spindle. -/
def State.OnlySpindleAndSkein (s t : State) (i k : Nat) : Prop :=
  s.SameOutside t ∧ (∀ j, j ≠ i → t.sp j = s.sp j) ∧ t.cores.plies = s.cores.plies ∧ (∀ j, j ≠ k → t.sk j = s.sk j) ∧
    t.home = s.home ∧ t.fab = s.fab

/-- Spindle x with operand 0 of unit u as a trigger move leaves it (R58). -/
def Spindle.withOperand (x : Spindle) (u : Nat) (a : Cap) : Spindle :=
  { x with arch := x.arch.modUnit u fun w => { w with o0 := a } }

/-- Spindle x after its bundle has retired (R68, R70): nothing is resumed, no system call is owed. -/
def Spindle.retired (x : Spindle) (jump : Option (Word × Cap)) : Spindle :=
  { x.retire jump with trapPend := none, resume := false }

end Sys2Proof.Machine
end

