-- ==== Sys2Proof/Certificates/Slice0/Obligations.lean ====
section
/-!
DEFINITION. What is claimed of the reel, for the provers: each statement says in its docstring which rules it formalises.
Every per-command statement concludes that exec answers a next state and says what that state holds.
-/

open Sys2Proof Sys2Proof.Machine

namespace Sys2Proof.Machine

/-- The unit and socket that a trigger command of the table starts, with its modifier and its operand 0 as the socket takes it
(R58, R63, R64); the spindle that issues it stands first. BFILL gives operand 1 as well and is not listed. -/
def triggerOf : Instr → Option (Nat × Trig)
  | .add sp u a => some (sp, { u := u, sock := 4, a := ofWord a })
  | .sub sp u a => some (sp, { u := u, sock := 5, a := ofWord a })
  | .addt sp u a => some (sp, { u := u, sock := 6, a := ofWord a })
  | .subt sp u a => some (sp, { u := u, sock := 7, a := ofWord a })
  | .and sp u a => some (sp, { u := u, sock := 8, a := ofWord a })
  | .or sp u a => some (sp, { u := u, sock := 9, a := ofWord a })
  | .xor sp u a => some (sp, { u := u, sock := 10, a := ofWord a })
  | .andn sp u a => some (sp, { u := u, sock := 11, a := ofWord a })
  | .shl sp u a => some (sp, { u := u, sock := 12, a := ofWord a })
  | .shr sp u a => some (sp, { u := u, sock := 13, a := ofWord a })
  | .sar sp u a => some (sp, { u := u, sock := 14, a := ofWord a })
  | .addc sp u a => some (sp, { u := u, sock := 15, a := ofWord a })
  | .mul sp a => some (sp, { u := 4, sock := 4, a := ofWord a })
  | .umul sp a => some (sp, { u := 4, sock := 5, a := ofWord a })
  | .smul sp a => some (sp, { u := 4, sock := 6, a := ofWord a })
  | .mult sp a => some (sp, { u := 4, sock := 7, a := ofWord a })
  | .udiv sp a => some (sp, { u := 5, sock := 4, a := ofWord a })
  | .sdiv sp a => some (sp, { u := 5, sock := 5, a := ofWord a })
  | .urem sp a => some (sp, { u := 5, sock := 6, a := ofWord a })
  | .srem sp a => some (sp, { u := 5, sock := 7, a := ofWord a })
  | .fadd sp u m a => some (sp, { u := 6 + u, sock := 4, mod := m.toNat, a := ⟨a, false⟩ })
  | .fsub sp u m a => some (sp, { u := 6 + u, sock := 5, mod := m.toNat, a := ⟨a, false⟩ })
  | .fmul sp u m a => some (sp, { u := 6 + u, sock := 6, mod := m.toNat, a := ⟨a, false⟩ })
  | .fdiv sp u m a => some (sp, { u := 6 + u, sock := 7, mod := m.toNat, a := ⟨a, false⟩ })
  | .fsqrt sp u m a => some (sp, { u := 6 + u, sock := 8, mod := m.toNat, a := ⟨a, false⟩ })
  | .fma sp u m a => some (sp, { u := 6 + u, sock := 9, mod := m.toNat, a := ⟨a, false⟩ })
  | .cvtfi sp u m a => some (sp, { u := 6 + u, sock := 10, mod := m.toNat, a := ⟨a, false⟩ })
  | .cvtif sp u m a => some (sp, { u := 6 + u, sock := 11, mod := m.toNat, a := ⟨a, false⟩ })
  | .cvtff sp u m a => some (sp, { u := 6 + u, sock := 12, mod := m.toNat, a := ⟨a, false⟩ })
  | .fmin sp u m a => some (sp, { u := 6 + u, sock := 13, mod := m.toNat, a := ⟨a, false⟩ })
  | .fmax sp u m a => some (sp, { u := 6 + u, sock := 14, mod := m.toNat, a := ⟨a, false⟩ })
  | .fclass sp u m a => some (sp, { u := 6 + u, sock := 15, mod := m.toNat, a := ⟨a, false⟩ })
  | .dadd sp m a => some (sp, { u := 8, sock := 4, mod := m.toNat, a := ⟨a, false⟩ })
  | .dsub sp m a => some (sp, { u := 8, sock := 5, mod := m.toNat, a := ⟨a, false⟩ })
  | .dmul sp m a => some (sp, { u := 8, sock := 6, mod := m.toNat, a := ⟨a, false⟩ })
  | .ddiv sp m a => some (sp, { u := 8, sock := 7, mod := m.toNat, a := ⟨a, false⟩ })
  | .dfma sp m a => some (sp, { u := 8, sock := 8, mod := m.toNat, a := ⟨a, false⟩ })
  | .dquant sp m a => some (sp, { u := 8, sock := 9, mod := m.toNat, a := ⟨a, false⟩ })
  | .drrnd sp m a => some (sp, { u := 8, sock := 10, mod := m.toNat, a := ⟨a, false⟩ })
  | .dcvtid sp m a => some (sp, { u := 8, sock := 11, mod := m.toNat, a := ⟨a, false⟩ })
  | .dcvtdi sp m a => some (sp, { u := 8, sock := 12, mod := m.toNat, a := ⟨a, false⟩ })
  | .dcvtdd sp m a => some (sp, { u := 8, sock := 13, mod := m.toNat, a := ⟨a, false⟩ })
  | .dldiv sp m a => some (sp, { u := 8, sock := 14, mod := m.toNat, a := ⟨a, false⟩ })
  | .dsqrt sp m a => some (sp, { u := 8, sock := 15, mod := m.toNat, a := ⟨a, false⟩ })
  | .extu sp a => some (sp, { u := 9, sock := 4, a := ofWord a })
  | .exts sp a => some (sp, { u := 9, sock := 5, a := ofWord a })
  | .ins sp a => some (sp, { u := 9, sock := 6, a := ofWord a })
  | .clz sp a => some (sp, { u := 9, sock := 7, a := ofWord a })
  | .ctz sp a => some (sp, { u := 9, sock := 8, a := ofWord a })
  | .popc sp a => some (sp, { u := 9, sock := 9, a := ofWord a })
  | .perm sp a => some (sp, { u := 9, sock := 10, a := ofWord a })
  | .bswap sp a => some (sp, { u := 9, sock := 11, a := ofWord a })
  | .rol sp a => some (sp, { u := 9, sock := 12, a := ofWord a })
  | .ror sp a => some (sp, { u := 9, sock := 13, a := ofWord a })
  | .cmpEq sp m a => some (sp, { u := 16, sock := 4, mod := m.toNat, a := ofWord a })
  | .cmpNe sp m a => some (sp, { u := 16, sock := 5, mod := m.toNat, a := ofWord a })
  | .cmpLt sp m a => some (sp, { u := 16, sock := 6, mod := m.toNat, a := ofWord a })
  | .cmpLe sp m a => some (sp, { u := 16, sock := 7, mod := m.toNat, a := ofWord a })
  | .cmpLtu sp m a => some (sp, { u := 16, sock := 8, mod := m.toNat, a := ofWord a })
  | .cmpLeu sp m a => some (sp, { u := 16, sock := 9, mod := m.toNat, a := ofWord a })
  | .cmpFeq sp m a => some (sp, { u := 16, sock := 10, mod := m.toNat, a := ⟨a, false⟩ })
  | .cmpFlt sp m a => some (sp, { u := 16, sock := 11, mod := m.toNat, a := ⟨a, false⟩ })
  | .cmpFle sp m a => some (sp, { u := 16, sock := 12, mod := m.toNat, a := ⟨a, false⟩ })
  | .cmpFun sp m a => some (sp, { u := 16, sock := 13, mod := m.toNat, a := ⟨a, false⟩ })
  | .tbit sp m a => some (sp, { u := 16, sock := 14, mod := m.toNat, a := ofWord a })
  | .ld8u sp u m a => some (sp, { u := 10 + u, sock := 4, mod := m.toNat, a := ofWord a })
  | .ld8s sp u m a => some (sp, { u := 10 + u, sock := 5, mod := m.toNat, a := ofWord a })
  | .ld16u sp u m a => some (sp, { u := 10 + u, sock := 6, mod := m.toNat, a := ofWord a })
  | .ld16s sp u m a => some (sp, { u := 10 + u, sock := 7, mod := m.toNat, a := ofWord a })
  | .ld32u sp u m a => some (sp, { u := 10 + u, sock := 8, mod := m.toNat, a := ofWord a })
  | .ld32s sp u m a => some (sp, { u := 10 + u, sock := 9, mod := m.toNat, a := ofWord a })
  | .ld64 sp u m a => some (sp, { u := 10 + u, sock := 10, mod := m.toNat, a := ofWord a })
  | .ld128 sp u m a => some (sp, { u := 10 + u, sock := 11, mod := m.toNat, a := ofWord a })
  | .ldcap sp u m a => some (sp, { u := 10 + u, sock := 12, mod := m.toNat, a := ofWord a })
  | .st sp u m a => some (sp, { u := 10 + u, sock := 13, mod := m.toNat, a := ofWord a })
  | .stcap sp u m a => some (sp, { u := 10 + u, sock := 14, mod := m.toNat, a := ofWord a })
  | .atomCas sp u m a => some (sp, { u := 10 + u, sock := 15, mod := aopMod 0 m, a := ofWord a })
  | .atomFetchAdd sp u m a => some (sp, { u := 10 + u, sock := 15, mod := aopMod 1 m, a := ofWord a })
  | .atomSwap sp u m a => some (sp, { u := 10 + u, sock := 15, mod := aopMod 2 m, a := ofWord a })
  | .atomBitSet sp u m a => some (sp, { u := 10 + u, sock := 15, mod := aopMod 3 m, a := ofWord a })
  | .atomBitClear sp u m a => some (sp, { u := 10 + u, sock := 15, mod := aopMod 4 m, a := ofWord a })
  | .br sp a => some (sp, { u := 12, sock := 4, a := ofWord a })
  | .bra sp a => some (sp, { u := 12, sock := 5, a := ofWord a })
  | .call sp a => some (sp, { u := 12, sock := 6, a := ofWord a })
  | .calla sp a => some (sp, { u := 12, sock := 7, a := ofWord a })
  | .jcap sp c a => some (sp, { u := 12, sock := 8, mod := c, a := ofWord a })
  | .callcap sp c a => some (sp, { u := 12, sock := 9, mod := c, a := ofWord a })
  | .loopPush sp a => some (sp, { u := 13, sock := 4, a := ofWord a })
  | .breakLoop sp => some (sp, { u := 13, sock := 5, a := Cap.zero })
  | .narrow sp a => some (sp, { u := 14, sock := 4, a := a })
  | .pdrop sp a => some (sp, { u := 14, sock := 5, a := a })
  | .wrap sp a => some (sp, { u := 14, sock := 6, a := a })
  | .unwrap sp a => some (sp, { u := 14, sock := 7, a := a })
  | .tagq sp a => some (sp, { u := 14, sock := 8, a := a })
  | .baseq sp a => some (sp, { u := 14, sock := 9, a := a })
  | .lenq sp a => some (sp, { u := 14, sock := 10, a := a })
  | .infoq sp a => some (sp, { u := 14, sock := 11, a := a })
  | .untag sp a => some (sp, { u := 14, sock := 12, a := a })
  | .mkentry sp a => some (sp, { u := 14, sock := 13, a := a })
  | .authq sp a => some (sp, { u := 14, sock := 14, a := a })
  | .trap sp a => some (sp, { u := 15, sock := 4, a := ofWord a })
  | .eretTsb sp r => some (sp, { u := 15, sock := 5, a := capNum (if r then 3 else 0) })
  | .eretSlotToTsb sp => some (sp, { u := 15, sock := 5, a := capNum 1 })
  | .eretSlot sp => some (sp, { u := 15, sock := 5, a := capNum 2 })
  | .sync sp => some (sp, { u := 15, sock := 6, a := Cap.zero })
  | .fenceOrder sp => some (sp, { u := 15, sock := 7, a := capNum 0 })
  | .fenceVisible sp => some (sp, { u := 15, sock := 7, a := capNum 1 })
  | .time sp a => some (sp, { u := 15, sock := 8, a := ofWord a })
  | .entropy sp => some (sp, { u := 15, sock := 9, a := Cap.zero })
  | .waitUntil sp a => some (sp, { u := 15, sock := 10, a := ofWord a })
  | .clean sp a => some (sp, { u := 15, sock := 11, mod := 0, a := ofWord a })
  | .inval sp a => some (sp, { u := 15, sock := 11, mod := 1, a := ofWord a })
  | .discard sp a => some (sp, { u := 15, sock := 11, mod := 2, a := ofWord a })
  | .lockWay sp a => some (sp, { u := 15, sock := 11, mod := 3, a := ofWord a })
  | .lockFill sp a => some (sp, { u := 15, sock := 11, mod := 4, a := ofWord a })
  | .unlockWay sp a => some (sp, { u := 15, sock := 11, mod := 5, a := ofWord a })
  | .fasten sp => some (sp, { u := 15, sock := 12, a := Cap.zero })
  | .bmove sp src dst len => some (sp, { u := 17, sock := 4, mod := srcDst src dst, a := ofWord len })
  | .compress sp src dst len => some (sp, { u := 18, sock := 4, mod := srcDst src dst, a := ofWord len })
  | .decompress sp src dst len => some (sp, { u := 18, sock := 5, mod := srcDst src dst, a := ofWord len })
  | .pressFinish sp src dst len => some (sp, { u := 18, sock := 6, mod := srcDst src dst, a := ofWord len })
  | .encrypt sp src dst len => some (sp, { u := 19, sock := 4, mod := srcDst src dst, a := ofWord len })
  | .decrypt sp src dst len => some (sp, { u := 19, sock := 5, mod := srcDst src dst, a := ofWord len })
  | .cipherFinish sp src dst len => some (sp, { u := 19, sock := 6, mod := srcDst src dst, a := ofWord len })
  | .coprocessorRequest sp cop tr m a => some (sp, { u := 80 + cop, sock := 4 + tr, mod := m.toNat, a := ofWord a })
  | _ => none

/-- The operation in flight that a compute trigger starts: what the unit computes from the operands, held until it completes
(R58, R60, R61). -/
def Spindle.withOp (x : Spindle) (r : OpRec) : Spindle := { x with ops := [r] }

end Sys2Proof.Machine

/-- R50, R58, R60, R63: with nothing in flight and no event due, a trigger of the ALUs, the multiplier, the divider, the
binary and decimal floating-point units (DLDIV, a long operation, apart), the bit unit or the compare unit COMPLETES its
issue: operand 0 takes the value moved, the unit's operation is in flight with the result it computes, the bundle retires,
and nothing but the spindle changes. It names ADD to ADDC, MUL to MULT, UDIV to SREM, FADD to FCLASS, DADD to DCVTDD, DSQRT,
EXTU to ROR and EQ to TBIT.
Commands whose completion, with its effect, it states: ADD, SUB, ADDT, SUBT, AND, OR, XOR, ANDN, SHL, SHR, SAR, ADDC, MUL, UMUL,
SMUL, MULT, UDIV, SDIV, UREM, SREM, FADD, FSUB, FMUL, FDIV, FSQRT, FMA, CVTFI, CVTIF, CVTFF, FMIN, FMAX, FCLASS, DADD, DSUB,
DMUL, DDIV, DFMA, DQUANT, DRRND, DCVTID, DCVTDI, DCVTDD, DSQRT, EXTU, EXTS, INS, CLZ, CTZ, POPC, PERM, BSWAP, ROL, ROR, EQ, NE,
LT, LE, LTU, LEU, FEQ, FLT, FLE, FUN, TBIT. -/
def Obligations.ComputeTriggerStartsItsOperation : Prop :=
  ∀ (c : Instr) (i : Nat) (t : Trig) (s : State) (h : Place), triggerOf c = some (i, t) → (t.u ≤ 9 ∨ t.u = 16) →
    longTrigger t.u t.sock = false → modMisuse t.u t.sock t.mod = false → s.Ready i h →
    ∃ s', exec c s = .next s' ∧
      s'.sp i = (startCompute ((s.sp i).withOperand t.u t.a) t false (s.sp i).arch.constTime).retired none ∧
      s.OnlySpindle s' i

/-- R116: with nothing in flight, a capability operation whose requirements hold is in flight with its result, and nothing but
the spindle changes. It names NARROW, PDROP, WRAP, UNWRAP, TAGQ, BASEQ, LENQ, INFOQ, UNTAG, MKENTRY and AUTHQ.
Commands whose completion, with its effect, it states: NARROW, PDROP, WRAP, UNWRAP, TAGQ, BASEQ, LENQ, INFOQ, UNTAG, MKENTRY,
AUTHQ. -/
def Obligations.CapabilityTriggerStartsItsOperation : Prop :=
  ∀ (c : Instr) (i : Nat) (t : Trig) (s : State) (h : Place) (r : Cap), triggerOf c = some (i, t) → t.u = 14 →
    capOp t.sock t.a ((s.sp i).arch.unit 14).o1 = .ok r → s.Ready i h →
    ∃ s' lat, exec c s = .next s' ∧
      s'.sp i = (((s.sp i).withOperand 14 t.a).withOp
        { unit := 14, trig := t.sock, res := r, ba := (s.sp i).ba, lat := lat }).retired none ∧
      s.OnlySpindle s' i

/-- R68, R117, R118: what a control transfer of a ready spindle leaves. BR goes to BA + 16 × a, a signed; BRA to the CODECAP
base + 16 × a; CALL and CALLA write the link besides; JCAP and CALLCAP go where the capability register leads and replace
CODECAP, CALLCAP leaving a return entry capability. Nothing but the spindle changes. -/
def Sys2Proof.Machine.ControlTransferOfReadySpindle : Prop :=
  ∀ (sp : SpId) (a : Word) (s : State) (h : Place), s.Ready sp h →
    let x := (s.sp sp).withOperand 12 (ofWord a)
    let rel : Word := BitVec.ofInt 64 ((s.sp sp).ba.toNat + 16 * a.toInt)
    let abs : Word := BitVec.ofNat 64 (capBase (s.sp sp).arch.codecap + 16 * a.toNat)
    let link : Nat := linkOf (s.sp sp).ba (s.sp sp).arch.codecap
    let linked (k : Nat) (v : Cap) : Spindle := x.withOp { unit := 12, trig := k, res := v, ba := (s.sp sp).ba }
    (∃ t, exec (.br sp a) s = .next t ∧ t.sp sp = x.retired (some (rel, (s.sp sp).arch.codecap)) ∧ s.OnlySpindle t sp) ∧
    (∃ t, exec (.bra sp a) s = .next t ∧ t.sp sp = x.retired (some (abs, (s.sp sp).arch.codecap)) ∧ s.OnlySpindle t sp) ∧
    (∃ t, exec (.call sp a) s = .next t ∧
      t.sp sp = (linked 6 (ofWord (BitVec.ofNat 64 link))).retired (some (rel, (s.sp sp).arch.codecap)) ∧ s.OnlySpindle t sp) ∧
    (∃ t, exec (.calla sp a) s = .next t ∧
      t.sp sp = (linked 7 (ofWord (BitVec.ofNat 64 link))).retired (some (abs, (s.sp sp).arch.codecap)) ∧ s.OnlySpindle t sp) ∧
    (∀ (c : CapReg) (g : Nat) (code : Cap), capTarget ((s.sp sp).arch.getC c) a = .ok (g, code) →
      (∃ t, exec (.jcap sp c a) s = .next t ∧ t.sp sp = x.retired (some (BitVec.ofNat 64 g, code)) ∧ s.OnlySpindle t sp) ∧
      (link ≤ 4095 → ∃ t, exec (.callcap sp c a) s = .next t ∧
        t.sp sp = (linked 9 (mkCap (capBase (s.sp sp).arch.codecap) (capLen (s.sp sp).arch.codecap)
          (capPerms (s.sp sp).arch.codecap) link 2 (s.sp sp).arch.codecap.tag)).retired (some (BitVec.ofNat 64 g, code)) ∧
        s.OnlySpindle t sp))

/-- R69, R70: LOOP with a count other than 0 and a body of 1 to 65,536 bundles pushes a level, at most four deep; with a count
of 0 it skips the body; BREAK pops the innermost level. Nothing but the spindle changes. -/
def Sys2Proof.Machine.LoopTriggersOfReadySpindle : Prop :=
  ∀ (sp : SpId) (a : Word) (s : State) (h : Place), s.Ready sp h →
    let m : Nat := (Cap64 ((s.sp sp).arch.unit 13).o1).toNat
    let x := (s.sp sp).withOperand 13 (ofWord a)
    let k := (s.sp sp).arch.loopDepth
    (1 ≤ m → m ≤ 65536 → a ≠ 0 → k < 4 → ∃ t, exec (.loopPush sp a) s = .next t ∧
      t.sp sp = { x with arch := { x.arch with
        loopStart := tset 0 x.arch.loopStart k ((s.sp sp).ba + 16),
        loopEnd := tset 0 x.arch.loopEnd k ((s.sp sp).ba + BitVec.ofNat 64 (16 * m)),
        loopCount := tset 0 x.arch.loopCount k a, loopDepth := k + 1 } }.retired none ∧ s.OnlySpindle t sp) ∧
    (1 ≤ m → m ≤ 65536 → a = 0 → ∃ t, exec (.loopPush sp a) s = .next t ∧
      t.sp sp = x.retired (some ((s.sp sp).ba + BitVec.ofNat 64 (16 * (m + 1)), (s.sp sp).arch.codecap)) ∧ s.OnlySpindle t sp) ∧
    (0 < k → ∃ t y, exec (.breakLoop sp) s = .next t ∧ y = (s.sp sp).withOperand 13 Cap.zero ∧
      t.sp sp = { y with arch := { y.arch with loopDepth := k - 1 } }.retired none ∧ s.OnlySpindle t sp)

/-- R112, R113, R246: an authorised load of coherent memory by a ready spindle is in flight at its address. Where the skein
holds the line, nothing but the spindle changes; where it does not and has not asked for it, RD_SHARED leaves for the line's
home slice. It names LD8U to LDCAP. -/
def Sys2Proof.Machine.LoadIsInFlightOrAsksForItsLine : Prop :=
  ∀ (c : Instr) (i : Nat) (t : Trig) (s : State) (h : Place), triggerOf c = some (i, t) → (t.u = 10 ∨ t.u = 11) → t.sock ≤ 12 →
    modMisuse t.u t.sock t.mod = false → s.Ready i h → s.lsCapCause (s.sp i) t = none → s.lsMemCause (s.sp i) t = none →
    uncachedKind (s.addrKind (lsAddrN (s.sp i) t)) = false →
    let a := lsAddrN (s.sp i) t
    let signed := t.sock == 5 || t.sock == 7 || t.sock == 9
    let r : OpRec := { unit := t.u, trig := t.sock, ba := (s.sp i).ba, lat := 4, kind := .load a (lsSize t) signed (t.sock == 12) (s.sp i).memSeq }
    let y := { ((s.sp i).withOperand t.u t.a).withOp r with memSeq := (s.sp i).memSeq + 1 }
    ∃ s', exec c s = .next s' ∧ s'.sp i = y.retired none ∧
      ((s.skl h.skein (lineOf a)).held = true → s.OnlySpindle s' i) ∧
      ((s.skl h.skein (lineOf a)).held = false → (∀ r ∈ (s.sk h.skein).reqs, r.pkt.line ≠ lineOf a) →
        s.SameOutside s' ∧ ∃ p, s'.fab.net = s.fab.net ++ [p] ∧ p.cmd = 1 ∧ p.src = h.skein ∧ p.line = lineOf a)

/-- R114, R145, R246, R256: an authorised store to coherent memory of which the skein does not hold the line retires and waits,
and RD_OWN leaves for the line's home slice; an authorised atomic is in flight with its operation. Memory does not change. It
names ST, STCAP and the five ATOM operations. -/
def Sys2Proof.Machine.StoreAndAtomicWaitForOwnership : Prop :=
  ∀ (c : Instr) (i : Nat) (t : Trig) (s : State) (h : Place), triggerOf c = some (i, t) → (t.u = 10 ∨ t.u = 11) → 13 ≤ t.sock →
    modMisuse t.u t.sock t.mod = false → s.Ready i h → s.lsCapCause (s.sp i) t = none → s.lsMemCause (s.sp i) t = none →
    uncachedKind (s.addrKind (lsAddrN (s.sp i) t)) = false →
    (s.skl h.skein (lineOf (lsAddrN (s.sp i) t))).held = false →
    (∀ r ∈ (s.sk h.skein).reqs, r.pkt.line ≠ lineOf (lsAddrN (s.sp i) t)) →
    let a := lsAddrN (s.sp i) t
    let d := lsData (s.sp i) t
    let x := { (s.sp i).withOperand t.u t.a with memSeq := (s.sp i).memSeq + 1 }
    ∃ s', exec c s = .next s' ∧ s.SameOutside s' ∧
      (∃ p, s'.fab.net = s.fab.net ++ [p] ∧ p.cmd = 2 ∧ p.src = h.skein ∧ p.line = lineOf a) ∧
      (t.sock ≠ 15 → s'.sp i = { x with
          stores := [{
            addr := a, order := (s.sp i).memSeq, n := lsSize t, data := d.bits.setWidth 1024,
            tag := d.tag && t.sock == 14, isCap := t.sock == 14 }] }.retired none) ∧
      (t.sock = 15 → s'.sp i = (x.withOp {
          unit := t.u, trig := 15, ba := (s.sp i).ba, lat := 4,
          kind := .atomic (bits t.mod 9 3) a (lsSize t) d.bits ((s.sp i).arch.unit t.u).r.bits (s.sp i).memSeq }).retired none)

/-- R103, R135, R190, R259: the system operations of a ready spindle. SYNC, FENCE and FASTEN are in flight with what they
await; TIME is in flight with the timebase and sets DEADLINE from a value other than 0; ENTROPY is in flight with the next
value of the entropy source; WAIT stalls the spindle. On a Fastened skein FENCE_VISIBLE opens a gathering window and FASTEN begins a
barrier, or while a fasten is doubling has its tick held; on a Loose skein it is an ordering fence.
Commands whose completion, with its effect, it states: SYNC, FENCE_ORDER, FENCE_VISIBLE, TIME, ENTROPY, WAIT, FASTEN. -/
def Obligations.SystemTriggersOfReadySpindle : Prop :=
  ∀ (sp : SpId) (s : State) (h : Place), s.Ready sp h →
    let x (k : Nat) (a : Cap) (r : OpRec) : Spindle :=
      ((s.sp sp).withOperand 15 a).withOp { r with unit := 15, trig := k, ba := (s.sp sp).ba }
    let o := (s.sp sp).memSeq
    (∃ t, exec (.sync sp) s = .next t ∧ t.sp sp = { x 6 Cap.zero { kind := .sync } with ahead := [] }.retired none ∧ s.OnlySpindle t sp) ∧
    (∃ t, exec (.fenceOrder sp) s = .next t ∧
      t.sp sp = { x 7 (capNum 0) { kind := .fence o 0 } with memSeq := o + 1 }.retired none ∧ s.OnlySpindle t sp) ∧
    ((s.sk h.skein).loose = true → ∃ t, exec (.fenceVisible sp) s = .next t ∧
      t.sp sp = { x 7 (capNum 1) { kind := .fence o 0 } with memSeq := o + 1 }.retired none ∧ s.OnlySpindle t sp) ∧
    ((s.sk h.skein).loose = false → ∃ t, exec (.fenceVisible sp) s = .next t ∧
      t.sp sp = { x 7 (capNum 1) { kind := .fence o (s.sk h.skein).openEpoch } with memSeq := o + 1 }.retired none ∧
      (t.sk h.skein).gather.isSome = true ∧ s.OnlySpindleAndSkein t sp h.skein) ∧
    (∃ t, exec (.time sp 0) s = .next t ∧
      t.sp sp = (x 8 (ofWord 0) { res := ofWord (BitVec.ofNat 64 s.time), lat := 20 }).retired none ∧ s.OnlySpindle t sp) ∧
    (∀ a : Word, a ≠ 0 → ∃ t y, exec (.time sp a) s = .next t ∧
      y = x 8 (ofWord a) { res := ofWord (BitVec.ofNat 64 s.time), lat := 20 } ∧
      t.sp sp = { y with arch := { y.arch with deadline := a } }.retired none ∧ s.OnlySpindle t sp) ∧
    (∃ t, exec (.entropy sp) s = .next t ∧
      t.sp sp = (x 9 Cap.zero { res := ofWord (Config.entropy s.freeCtr), lat := 40 }).retired none ∧ s.OnlySpindle t sp) ∧
    (∀ a : Word, ∃ t, exec (.waitUntil sp a) s = .next t ∧
      t.sp sp = { x 10 (ofWord a) { kind := .wait a } with waitUntil := some a.toNat, waitFrom := s.time }.retired none ∧ s.OnlySpindle t sp) ∧
    ((s.sk h.skein).loose = true → ∃ t, exec (.fasten sp) s = .next t ∧
      t.sp sp = { x 12 Cap.zero { kind := .fence o 0 } with memSeq := o + 1 }.retired none ∧ s.OnlySpindle t sp) ∧
    ((s.sk h.skein).loose = false → (s.sk h.skein).closingEpoch ≠ 0 → ∃ t, exec (.fasten sp) s = .next t ∧
      t.sp sp = (x 12 Cap.zero { kind := .fasten (s.sk h.skein).openEpoch, res := capNum (s.sk h.skein).openEpoch }).retired none ∧
      (t.sk h.skein).early = true ∧ (t.sk h.skein).tickHeld = true ∧ s.OnlySpindleAndSkein t sp h.skein) ∧
    ((s.sk h.skein).loose = false → (s.sk h.skein).closingEpoch = 0 → (s.sk h.skein).resvClean = false → (s.sk h.skein).pair = 0 →
      s.hosted h.skein = [sp.val] → ∃ t, exec (.fasten sp) s = .next t ∧
      t.sp sp = (x 12 Cap.zero { kind := .fasten (s.sk h.skein).openEpoch, res := capNum (s.sk h.skein).openEpoch }).retired none ∧
      (t.sk h.skein).inBarrier = true ∧ (t.sk h.skein).barrierAt = s.time ∧ s.OnlySpindleAndSkein t sp h.skein)

/-- R225, R226, R230: a cache operation whose capability authorises it, on an operand without reserved bits, is in flight over
the capability's range at the way and level it names, DISCARD over whole lines only; CLEAN and INVAL are serial outputs
besides. It names CLEAN, INVAL, DISCARD, LOCK_WAY, LOCK_FILL and UNLOCK_WAY. -/
def Sys2Proof.Machine.CacheOperationIsInFlight : Prop :=
  ∀ (c : Instr) (i cop : Nat) (a : Word) (s : State) (h : Place),
    triggerOf c = some (i, { u := 15, sock := 11, mod := cop, a := ofWord a }) → cop ≤ 5 → s.Ready i h →
    bits a.toNat 12 52 = 0 → bitAt a.toNat 7 = false →
    let r := (s.sp i).arch.getC (bits a.toNat 0 6)
    cacheopCause r cop = none → (cop = 4 → s.memRange (capBase r) (capLen r) = true) →
    (cop = 2 → capBase r % 128 = 0 ∧ capLen r % 128 = 0) →
    let y := ((s.sp i).withOperand 15 (ofWord a)).withOp {
      unit := 15, trig := 11, ba := (s.sp i).ba,
      kind := .cacheop cop (capBase r) (capLen r) (bits a.toNat 8 4) (bitAt a.toNat 6) h.skein h.ply,
      ser := if cop ≤ 1 then (s.sp i).serialSeq + 1 else 0 }
    ∃ t, exec c s = .next t ∧ s.OnlySpindleAndSkein t i h.skein ∧
      (2 ≤ cop → t.sp i = y.retired none) ∧
      (cop ≤ 1 → t.sp i = (s.withSerial y { kind := .cacheop, addr := capBase r, size := 0 }).retired none)

/-- R72, R139, R522: a long operation of a ready spindle begins with its operands latched, its progress at 0 and its bundle not
yet retired. It names BMOVE, BFILL, COMPRESS, DECOMPRESS, ENCRYPT, DECRYPT and DLDIV; units 18 and 19 need the capabilities
that R399 asks for, which the hypothesis on the events they raise says. -/
def Sys2Proof.Machine.LongOperationBegins : Prop :=
  (∀ (c : Instr) (i : Nat) (t : Trig) (s : State) (h : Place), triggerOf c = some (i, t) → longTrigger t.u t.sock = true →
    modMisuse t.u t.sock t.mod = false → s.Ready i h → s.trigFails i (s.sp i) t = [] →
    ∃ s', exec c s = .next s' ∧ (s'.sp i).longOn = true ∧ (s'.sp i).ba = (s.sp i).ba ∧ (s'.sp i).longTrig = t.sock ∧
      (s'.sp i).arch.progress.unit = t.u ∧ (s'.sp i).arch.progress.done = 0 ∧
      (t.u ≠ 8 → (s'.sp i).arch.progress.remain = t.w.toNat ∧
        (s'.sp i).arch.progress.src = (s.sp i).arch.getC (bits t.mod 0 6) ∧
        (s'.sp i).arch.progress.dst = (s.sp i).arch.getC (bits t.mod 6 6)) ∧ s.OnlySpindle s' i) ∧
  (∀ (sp : SpId) (dst : CapReg) (len : Word) (b : Byte) (s : State) (h : Place), s.Ready sp h →
    ∃ t, exec (.bfill sp dst len b) s = .next t ∧ (t.sp sp).longOn = true ∧ (t.sp sp).ba = (s.sp sp).ba ∧
      (t.sp sp).arch.progress.unit = 17 ∧ (t.sp sp).arch.progress.remain = len.toNat ∧
      (t.sp sp).arch.progress.dst = (s.sp sp).arch.getC dst ∧
      (t.sp sp).arch.progress.ustate = b.setWidth 1536 ∧ s.OnlySpindle t sp)

/-- R73, R75, R187, R403: a FINISH of the press or cipher unit is in flight on its page with its capabilities latched; a
coprocessor request of a ready spindle whose partition has the unit bound is in flight, and its output waits, on a Fastened
skein for the fasten of the open epoch. It names FINISH of both units and the request of units 80 to 95. -/
def Sys2Proof.Machine.FinishAndCoprocessorRequestAreInFlight : Prop :=
  (∀ (c : Instr) (i : Nat) (t : Trig) (s : State) (h : Place), triggerOf c = some (i, t) → (t.u = 18 ∨ t.u = 19) → t.sock = 6 →
    modMisuse t.u t.sock t.mod = false → s.Ready i h → s.trigFails i (s.sp i) t = [] →
    let pg := capOtype ((s.sp i).arch.unit t.u).o1
    ∃ s', exec c s = .next s' ∧ s.OnlySpindle s' i ∧
      s'.sp i = (((s.sp i).withOperand t.u t.a).withOp {
        unit := t.u, trig := 6, ba := (s.sp i).ba,
        kind := .finish pg (s.tenant pg).gen ((s.sp i).arch.getC (bits t.mod 0 6)) ((s.sp i).arch.getC (bits t.mod 6 6)) }).retired none) ∧
  (∀ (sp : SpId) (cop : CopId) (tr : TrigId) (m : Modifier) (a : Word) (s : State) (h : Place), s.Ready sp h →
    s.copBinding sp (80 + cop) ≠ 0 →
    ∃ t q, exec (.coprocessorRequest sp cop tr m a) s = .next t ∧ s.OnlySpindleAndSkein t sp h.skein ∧
      (t.sp sp).ops = [{ unit := 80 + cop, trig := 4 + tr, kind := .answer 0 0 false 0, ser := (s.sp sp).serialSeq + 1, ba := (s.sp sp).ba }] ∧
      (t.sp sp).serial = some q ∧ q.kind = .cop ∧ q.addr = (80 + cop) * 16 + 4 + tr ∧ q.sent = false ∧
      q.seq = (s.sp sp).serialSeq + 1 ∧
      q.waitEpoch = (if (s.sk h.skein).loose then 0 else (s.sk h.skein).openEpoch))

namespace Sys2Proof.Machine

/-- Every line of the list is in the L2 of place h's ply and holds no poison. -/
def State.LinesHere (s : State) (h : Place) (ls : List Nat) : Prop :=
  ∀ l ∈ ls, (s.skl h.skein l).l2.getLsbD h.ply = true ∧ (s.skl h.skein l).val.poison = false

/-- The delivery of event n to spindle i on place h finds a free TSB that fulfils R121 and, through TDT, descriptor d, which fulfils
R124; the skein holds the descriptor's lines and not the TSB's first. -/
structure State.Delivers (s : State) (i n : Nat) (h : Place) (d : Descr) : Prop where
  tsb   : s.tsbOk (s.sp i) = true
  free  : tsbBusy (s.sp i) = false
  save  : (s.skl h.skein (lineOf (capBase (s.sp i).tsb))).held = false
  tdt   : capMem (s.sp i).tdt = true ∧ capHasAll (s.sp i).tdt [pLOAD, pLOADCAP] = true ∧
            capCovers (s.sp i).tdt (capBase (s.sp i).tdt + 64 * n) 64 = true
  map   : s.memRange (capBase (s.sp i).tdt + 64 * n) 64 = true
  lines : s.LinesHere h (linesOf (capBase (s.sp i).tdt + 64 * n) 64)
  what  : let a := capBase (s.sp i).tdt + 64 * n
          let o := (s.sp i).memSeq
          d = ⟨s.viewGranule i h a o, s.viewGranule i h (a + 16) o, s.viewGranule i h (a + 32) o,
            (s.viewGranule i h (a + 48) o).bits.toNat % 2 ^ 64⟩
  fit   : d.cause = 0

/-- What the delivery of event n through descriptor d leaves of spindle i, whose state was x (R122, R125, R126): the state saved to
the TSB as stores that wait in its order, the handler entered, IMASK as the descriptor gives it with TSB_BUSY 1. -/
def State.EntersHandler (s t : State) (i n : Nat) (d : Descr) (x : Spindle) (e : EvInfo) : Prop :=
  (t.sp i).arch.codecap = (if capKind d.entry = 2 then capEnter d.entry else d.entry) ∧
  (t.sp i).ba = BitVec.ofNat 64 (capBase d.entry + (if capKind d.entry = 2 then 16 * capOtype d.entry else 0)) ∧
  (t.sp i).arch.imask = imaskOf (bits d.flags 4 5) (bitAt d.flags 9) true (slotBusy x) ∧
  (t.sp i).arch.getC 62 = d.stack ∧ (bitAt d.flags 1 = false → (t.sp i).arch.getC 0 = d.data) ∧
  (t.sp i).stores = saveStores (x.image n e) (s.modeWord x) (capBase x.tsb) x.memSeq ∧
  (∀ j, j ≠ i → t.sp j = s.sp j) ∧ s.SameOutside t

/-- Spindle i stands on place h at a bundle boundary with nothing in flight, and no event of ranks 1 and 2 is due (R136). -/
structure State.Boundary (s : State) (i : Nat) (h : Place) : Prop where
  issues : s.canIssue i = true
  place  : (s.sp i).host = some h
  ops    : (s.sp i).ops = []
  stores : (s.sp i).stores = []
  calm   : (s.sp i).trapPend = none ∧ (s.sp i).exhausted = false ∧ (s.sp i).precPend = none
  quiet  : s.Quiet

/-- The data plane of spindle i works on place h, no store of it waits, and no freeze of it is under way. -/
structure State.Runs (s : State) (i : Nat) (h : Place) : Prop where
  data   : s.dataRuns i = true
  place  : (s.sp i).host = some h
  stores : (s.sp i).stores = []
  free   : (s.sp i).freezeReq = false
  quiet  : s.Quiet

/-- Every line of the list is in the L2 of place h's ply, which serves, and the skein may write it. -/
def State.LinesOwned (s : State) (h : Place) (ls : List Nat) : Prop :=
  s.l2Up h.skein h.ply = true ∧ ∀ l ∈ ls, (s.skl h.skein l).l2.getLsbD h.ply = true ∧ (s.skl h.skein l).own ≠ .shared ∧
    (s.skl h.skein l).stalled = false

end Sys2Proof.Machine

/-- R123, R125, R126, R131: TRAP of a ready spindle with a value of at most 4,095 retires its bundle and delivers the system call
through that descriptor: the saved state is the state after the bundle, and execution goes on at the handler. -/
def Sys2Proof.Machine.TrapDeliversSystemCall : Prop :=
  ∀ (sp : SpId) (a : Word) (s : State) (h : Place) (d : Descr), s.Ready sp h → a.toNat ≤ 4095 → s.Delivers sp a.toNat h d →
    let x := ((s.sp sp).withOperand 15 (ofWord a)).retired none
    ∃ t, exec (.trap sp a) s = .next t ∧ s.EntersHandler t sp a.toNat d x { ba := x.ba }

/-- R128, R129, R133, R136: at a boundary with no event of higher rank, INTERRUPT_DELIVERY delivers the deliverable interrupt of
highest number through descriptor 4,096 plus the number and clears its pending bit; NOTICE_DELIVERY enters the hardware event of
the notice that is due, at EVENT_BASE plus 32 times its number, and consumes it. -/
def Sys2Proof.Machine.DueEventsAreDelivered : Prop :=
  ∀ (sp : SpId) (n : Nat) (s : State) (h : Place), s.Boundary sp h →
    let x := s.sp sp
    (∀ d : Descr, dueNotice x = none → dueInterrupt x = some n → s.Delivers sp (4096 + n) h d →
      ∃ t, exec (.interruptDelivery sp) s = .next t ∧ s.EntersHandler t sp (4096 + n) d x { ba := x.ba, resume := x.resume } ∧
        (t.sp sp).intPending = x.intPending &&& ~~~(BitVec.ofNat 256 (2 ^ n))) ∧
    (dueNotice x = some n → s.tsbOk x = true → tsbBusy x = false → eventBaseOk x = true →
      (s.skl h.skein (lineOf (capBase x.tsb))).held = false →
      ∃ t, exec (.noticeDelivery sp) s = .next t ∧ s.SameOutside t ∧
        (t.sp sp).ba = BitVec.ofNat 64 (capBase x.eventBase + 32 * n) ∧ (t.sp sp).arch.codecap = x.eventBase ∧
        (t.sp sp).arch.imask = imaskOf 16 true true (slotBusy x) ∧
        (t.sp sp).stores = saveStores (x.image (n + 2 ^ 13)
          { ba := x.ba, fa := if n = 5 then x.notice5.getD 0 else 0, resume := x.resume }) (s.modeWord x) (capBase x.tsb) x.memSeq ∧
        (n = 1 → (t.sp sp).notice1 = false) ∧ (n = 2 → (t.sp sp).notice2 = false) ∧ (n = 5 → (t.sp sp).notice5 = none))

/-- R138: ERET of a ready spindle. Variants 0 and 3 restore every register from the TSB, clear TSB_BUSY and continue at SAVED_BA;
variant 1 writes the save slot's state to the TSB, clears SLOT_BUSY and sets TSB_BUSY; variant 2 restores from the save slot.
Commands whose completion, with its effect, it states: ERET_TSB, ERET_SLOT_TO_TSB, ERET_SLOT. -/
def Obligations.EretRestoresSavedState : Prop :=
  ∀ (sp : SpId) (s : State) (h : Place), s.Ready sp h →
    (∀ r : Bool, s.tsbOk (s.sp sp) = true → s.LinesHere h (linesOf (capBase (s.sp sp).tsb) 6144) →
      let y := (s.sp sp).withOperand 15 (capNum (if r then 3 else 0))
      let f (g : Nat) : Cap := s.viewGranule sp h (capBase y.tsb + 16 * g) y.memSeq
      (loWord (f 6)).toNat ≤ 4 → ∃ t, exec (.eretTsb sp r) s = .next t ∧ s.SameOutside t ∧
        t.sp sp = y.restore (imageSaved f y.arch) false (slotBusy y) ∧ (t.sp sp).ba = (imageSaved f y.arch).savedBa ∧
        tsbBusy (t.sp sp) = false) ∧
    (∀ v : Saved, (s.sp sp).slot = some v → slotBusy (s.sp sp) = true →
      (s.tsbOk (s.sp sp) = true → (s.skl h.skein (lineOf (capBase (s.sp sp).tsb))).held = false →
        ∃ t, exec (.eretSlotToTsb sp) s = .next t ∧ s.SameOutside t ∧ (t.sp sp).slot = none ∧
          tsbBusy (t.sp sp) = true ∧ slotBusy (t.sp sp) = false ∧
          (t.sp sp).stores = saveStores v (s.savedMode (s.sp sp) v) (capBase (s.sp sp).tsb) (s.sp sp).memSeq) ∧
      (∃ t, exec (.eretSlot sp) s = .next t ∧ s.OnlySpindle t sp ∧ (t.sp sp).slot = none ∧ (t.sp sp).ba = v.savedBa ∧
        (t.sp sp).arch.g = v.arch.g ∧ (t.sp sp).arch.c = v.arch.c ∧ (t.sp sp).arch.codecap = v.arch.codecap ∧
        slotBusy (t.sp sp) = false ∧ tsbBusy (t.sp sp) = tsbBusy (s.sp sp)))

namespace Sys2Proof.Machine

/-- Triggers of computing units started in slot order: each value becomes its unit's operand 0, and the operation is in flight (R50,
R58, R60). -/
def Spindle.computes (x : Spindle) (ts : List Trig) (ct : Bool) : Spindle :=
  ts.foldl (fun y t => startCompute (y.withOperand t.u t.a) t false ct) x

end Sys2Proof.Machine

/-- R42, R50, R73, R74: a ready spindle whose bundle at BA lies in memory that it may fetch and its skein holds issues it by the command
of its KIND: BUNDLE_NORMAL, BUNDLE_LONG_IMMEDIATE and BUNDLE_COPROCESSOR each COMPLETE. With nothing to wait for and no event raised,
the three phases of R50 take effect on the values that the sources held before the bundle, the triggers of a normal and of a
long-immediate bundle being those of ALUs, if any; of the spindle only what it has fetched ahead is left unsaid. A coprocessor bundle
forwards slot 0's trigger with both operands, its modifier and its 84 opaque bits as a request, whose answer is in flight; one whose
guard is false does nothing.
Commands whose completion, with its effect, it states: BUNDLE_NORMAL, BUNDLE_LONG_IMMEDIATE, BUNDLE_COPROCESSOR. -/
def Obligations.BundleIssuesByItsKind : Prop :=
  ∀ (sp : SpId) (s : State) (h : Place), s.Ready sp h → (s.sp sp).resume = false → s.fetchFail (s.sp sp) = none →
    (s.sp sp).ahead = [] →
    let x := s.sp sp
    let l := lineOf x.ba.toNat
    let b := lineGet (s.skl h.skein l).val (x.ba.toNat % 128) 16
    let ms := s.liveMoves sp x b
    let y := (phase3 x ms).retired none
    let ts := ms.filterMap Live.trigger
    let z := ((phase3 x ms).computes ts x.arch.constTime).retired none
    s.LinesHere h [l] → illegalOf b = none → ms.flatMap (Live.fails x) = [] →
    ((∀ r ∈ ts, r.u ≤ 3) →
      (bundleKind b = 0 → ∃ t, exec (.bundleNormal sp) s = .next t ∧ s.SameOutside t ∧
        { t.sp sp with ahead := [] } = z ∧ (∀ j, j ≠ sp → t.sp j = s.sp j)) ∧
      (bundleKind b = 1 → ∃ t, exec (.bundleLongImmediate sp) s = .next t ∧ s.SameOutside t ∧
        { t.sp sp with ahead := [] } = z ∧ (∀ j, j ≠ sp → t.sp j = s.sp j))) ∧
    (bundleKind b = 2 →
      (ts = [] → ∃ t, exec (.bundleCoprocessor sp) s = .next t ∧ s.SameOutside t ∧
        { t.sp sp with ahead := [] } = y ∧ (∀ j, j ≠ sp → t.sp j = s.sp j)) ∧
      (∀ r : Trig, ts = [r] → 80 ≤ r.u → s.copBinding sp r.u ≠ 0 →
        ∃ t q, exec (.bundleCoprocessor sp) s = .next t ∧ s.SameOutside t ∧ (∀ j, j ≠ sp → t.sp j = s.sp j) ∧
          (∀ k, k ≠ h.skein → t.sk k = s.sk k) ∧
          (t.sp sp).ops = [{ unit := r.u, trig := r.sock, kind := .answer 0 0 false 0, ser := x.serialSeq + 1, ba := x.ba }] ∧
          (t.sp sp).ba = y.ba ∧ (t.sp sp).serial = some q ∧ q.kind = .cop ∧ q.addr = r.u * 16 + r.sock ∧ q.sent = false ∧
          q.seq = x.serialSeq + 1 ∧ q.data = (x.arch.unit r.u).o1.bits ++ r.a.bits ∧
          q.extra = BitVec.ofNat 128 (r.sock + r.mod * 2 ^ 4 + opaqueBits b * 2 ^ 17) ∧
          q.waitEpoch = (if (s.sk h.skein).loose then 0 else (s.sk h.skein).openEpoch)))

/-- R60, R63, R114: UNIT_COMPLETION enters the result of the oldest operation of the unit in its result socket and status: one whose
value is there, and a load whose line is in the ply's L2, zero- or sign-extended from the bytes at its address. -/
def Sys2Proof.Machine.UnitCompletionDeliversResult : Prop :=
  ∀ (sp : SpId) (u : UnitId) (s : State) (h : Place) (r : OpRec), s.Runs sp h → (s.sp sp).frontOp u = some r →
    (r.kind = .value → ∃ t, exec (.unitCompletion sp u) s = .next t ∧ t.sp sp = (s.sp sp).complete r ∧ s.OnlySpindle t sp) ∧
    (∀ (a n o : Nat) (signed keep : Bool), r.kind = .load a n signed keep o → (u.val = 10 ∨ u.val = 11) →
      (s.sp sp).mayPerform .load o = true → s.LinesHere h [lineOf a] →
      ∃ t, exec (.unitCompletion sp u) s = .next t ∧ s.SameOutside t ∧
        ((t.sp sp).arch.unit u).r = loadValue (s.skl h.skein (lineOf a)).val (a % 128) n signed keep ∧
        ((t.sp sp).arch.unit u).poison = none ∧ (t.sp sp).ops = (s.sp sp).ops.erase r ∧ (∀ k, (t.sp sp).arch.getG k = (s.sp sp).arch.getG k))

/-- R135: WAIT_END ends a WAIT whose value the timebase has reached, with result 0; DEADLINE_REACHED raises interrupt 255 and clears
a deadline that the timebase has reached.
Commands whose completion, with its effect, it states: WAIT_END, DEADLINE_REACHED. -/
def Obligations.TimebaseEndsWaitsAndDeadlines : Prop :=
  ∀ (sp : SpId) (s : State), s.Quiet →
    (∀ (w : Nat) (ba : Word), s.alive sp = true → (s.sp sp).waitUntil = some w → w ≤ s.time → (s.sp sp).freezeReq = false →
      (s.sp sp).ops = [{ unit := 15, trig := 10, kind := .wait (BitVec.ofNat 64 w), ba := ba }] →
      ∃ t, exec (.waitEnd sp) s = .next t ∧ (t.sp sp).waitUntil = none ∧ (t.sp sp).ops = [] ∧
        ((t.sp sp).arch.unit 15).r = capNum 0 ∧ (t.sp sp).ba = (s.sp sp).ba ∧ t.mem = s.mem) ∧
    (s.dataRuns sp = true → (s.sp sp).arch.deadline ≠ 0 → (s.sp sp).arch.deadline.toNat ≤ s.time →
      ∃ t, exec (.deadlineReached sp) s = .next t ∧ (t.sp sp).arch.deadline = 0 ∧ (t.sp sp).intPending.getLsbD 255 = true ∧
        (∀ k, k < 255 → (t.sp sp).intPending.getLsbD k = (s.sp sp).intPending.getLsbD k) ∧ s.SameOutside t)

/-- R230, R232: CACHEOP_COMPLETE ends a LOCK_WAY of a free way of the ply's L2 with code 0 and the way locked for the spindle's
partition, while the lock limit and four free ways allow it, and an UNLOCK_WAY of the partition's own way with code 0 and the way
unlocked. -/
def Sys2Proof.Machine.CacheOperationCompletesWithResult : Prop :=
  ∀ (sp : SpId) (s : State) (h : Place) (r : OpRec) (cop a n w : Nat), s.Runs sp h → (s.sp sp).serial = none →
    (s.sp sp).ops = [r] → r.unit = 15 → r.kind = .cacheop cop a n w false h.skein h.ply → (s.sp sp).serialNext = [] →
    let part := (s.partOf sp).getD 0
    let locks := (s.ply h.skein h.ply).l2Lock
    (cop = 3 → tget 0 locks w = 0 → s.wayUp h.skein h.ply false w = true →
      ((List.range 16).filter fun v => tget 0 locks v != 0).length < s.param 0x0703 0 →
      4 ≤ ((List.range 16).filter fun v => v != w && s.wayOn h.skein h.ply false v && tget 0 locks v == 0).length →
      ∃ t, exec (.cacheopComplete sp) s = .next t ∧ ((t.sp sp).arch.unit 15).r = capNum 0 ∧ (t.sp sp).ops = [] ∧
        tget 0 (t.ply h.skein h.ply).l2Lock w = part + 1 ∧ s.SameOutside t) ∧
    (cop = 5 → tget 0 locks w = part + 1 →
      ∃ t, exec (.cacheopComplete sp) s = .next t ∧ ((t.sp sp).arch.unit 15).r = capNum 0 ∧ (t.sp sp).ops = [] ∧
        tget 0 (t.ply h.skein h.ply).l2Lock w = 0 ∧ s.SameOutside t)

/-- R65, R72, R97, R139, R522: a long operation between two progress points and at its end. A progress point of BFILL whose lines
the skein owns fills the bytes to the next 4 KiB and advances the progress by them; one of DLDIV counts 512 digits. LONG_OP_COMPLETE fills
the last piece, enters the bytes done, clears the progress and retires the bundle.
Commands whose completion, with its effect, it states: LONG_OP_PROGRESS_POINT, LONG_OP_COMPLETE. -/
def Obligations.LongOperationProgressesAndCompletes : Prop :=
  ∀ (sp : SpId) (s : State) (h : Place), s.alive sp = true → s.Runs sp h → (s.sp sp).longOn = true → (s.sp sp).ops = [] →
    (s.sp sp).longCt = false →
    let x := s.sp sp
    let p := x.arch.progress
    let d := capBase p.dst + p.done
    let n := pointBytes x s.freeCtr
    (s.takeDue sp x.ba true = none → p.unit = 8 → ∃ t, exec (.longOpProgressPoint sp) s = .next t ∧
      (t.sp sp).arch.progress = dldivAfter x 512 ∧ s.OnlySpindle t sp) ∧
    (p.unit = 17 → x.longTrig = 5 → s.admitted p.dst pSTORE d n = (n, none) → s.LinesOwned h (linesOf d n) →
      (n < p.remain → s.takeDue sp x.ba true = none → ∃ t, exec (.longOpProgressPoint sp) s = .next t ∧
        (t.sp sp).arch.progress = { p with done := p.done + n, remain := p.remain - n } ∧ (t.sp sp).ba = x.ba ∧
        (∀ j, j < n → t.heldByte h.skein (d + j) = p.ustate.toNat % 256)) ∧
      (n = p.remain → ∃ t, exec (.longOpComplete sp) s = .next t ∧
        ((t.sp sp).arch.unit 17).r = capNum (p.done + n) ∧ (t.sp sp).arch.progress = {} ∧ (t.sp sp).longOn = false ∧
        (t.sp sp).ba = (x.retire x.longJump).ba ∧
        (∀ j, j < n → t.heldByte h.skein (d + j) = p.ustate.toNat % 256))) ∧
    (p.unit = 8 → ∃ t, exec (.longOpComplete sp) s = .next t ∧ (t.sp sp).longOn = false ∧ (t.sp sp).arch.progress = {} ∧
      ((t.sp sp).arch.unit 8).r = (s.longRecord sp 0).res ∧ s.OnlySpindle t sp)

/-- R76, R188: the answer of a guest enters the result socket of the coprocessor unit that waits for it, and the gate keeps it; an
answer that does not come within the binding's limit is 0 with TO set, and fault 0x0D01 of the spindle is raised. -/
def Sys2Proof.Machine.CoprocessorRequestIsAnswered : Prop :=
  ∀ (sp : SpId) (cop : CopId) (s : State) (h : Place) (r : OpRec) (g : Nat) (p : Packet), s.Runs sp h →
    s.copWaits sp cop = some r → s.copOpen sp cop = some (g, p) →
    (∀ v : BitVec 128, ∃ t, exec (.coprocessorResponse sp cop v) s = .next t ∧
      (t.sp sp).arch.unit (80 + cop) = { (s.sp sp).arch.unit (80 + cop) with
        r := ⟨v, false⟩, poison := r.poison, st := ((s.sp sp).arch.unit (80 + cop)).st &&& ~~~r.clrSt } ∧
      (t.sp sp).ops = (s.sp sp).ops.erase r ∧ (tget {} t.home.gate sp).resp = v ∧ (tget {} t.home.gate sp).done = true ∧
      t.mem = s.mem) ∧
    (p.since + bits (s.param 0x0945 (16 * p.part + cop)) 16 16 * 1000 ≤ s.time → ∃ u : State,
      exec (.coprocessorTimeout sp cop) s = .next ((u.raise 0x0D01 sp (some sp.val)).afterDone sp).settle ∧ ((u.sp sp).arch.unit (80 + cop)).r = capNum 0 ∧
      ((u.sp sp).arch.unit (80 + cop)).st.getLsbD 0 = true ∧ (u.sp sp).ops = (s.sp sp).ops.erase r)

namespace Sys2Proof.Machine

/-- The command completes: exec answers a next state, which is u after the reactions that the fault collector has queued are
carried out (R427, R433; u itself where none is queued), and u satisfies P. -/
def Leaves (c : Instr) (s : State) (P : State → Prop) : Prop := ∃ u : State, exec c s = .next u.settle ∧ P u

/-- Ply p of skein k holds nothing in its L1s. -/
def State.L1Empty (s : State) (k p : Nat) : Prop :=
  ∀ l, (s.skl k l).l1d &&& fibreBits p = 0 ∧ (s.skl k l).l1i &&& fibreBits p = 0

/-- No retired store of a spindle that skein k hosts waits. -/
def State.NoStoresOn (s : State) (k : Nat) : Prop := ∀ i ∈ s.hosted k, (s.sp i).stores = []

/-- The packet p, with the command cmd, comes to its end: no earlier packet of its stream is still under way (R270). -/
def State.Comes (s : State) (cmd : Nat) (p : Packet) : Prop := s.heldUp (s.underWay { p with cmd := cmd }) = false

/-- An early fasten is asked for on skein k, or its barrier has begun (R175, R184). -/
def State.Fastens (s : State) (k : Nat) : Prop := (s.sk k).early = true ∨ (s.sk k).inBarrier = true

/-- The loss of skein k as the hub has handled it (R197): the skein is lost, its record cleared, its plies are off, and no
spindle has a place on it. -/
def State.LostSkein (s u : State) (k : Nat) : Prop :=
  (u.sk k).lost = true ∧ (u.sk k).present = false ∧ (u.sk k).lines = [] ∧ (∀ p, p < 20 → (u.ply k p).step = 15) ∧
    (∀ i ∈ s.hosted k, (u.sp i).host = none)

end Sys2Proof.Machine

/-- R149, R156, R157, R169: an error that a Twin ply detects makes it retry below its limit: the retry is counted and stamped with
the time, the L1s hold nothing, the ply stays as it was, and no bundle address changes. It names PLY_RETRY, AGREEMENT_TIMEOUT and
DRAFT_WORD_UNCORRECTABLE; a mismatch that a comparator test injects is that test's own outcome (R164). -/
def Sys2Proof.Machine.PlyErrorsAreRetriedBelowLimit : Prop :=
  ∀ (sk : SkId) (pl : PlId) (s : State), s.compares sk pl = true →
    let y := s.ply sk pl
    let limit := s.param 0x0500 0
    1 < limit → y.stamps.length + 1 < limit →
    let retried (u : State) : Prop := (u.ply sk pl).retryTotal = satBits 32 (y.retryTotal + 1) ∧ (u.ply sk pl).state = y.state ∧
      (u.ply sk pl).stamps = (s.time :: y.stamps).take (limit - 1) ∧ u.L1Empty sk pl ∧ (∀ i, (u.sp i).ba = (s.sp i).ba) ∧ u.mem = s.mem
    Leaves (.plyRetry sk pl .parity) s retried ∧ Leaves (.plyRetry sk pl .hang) s retried ∧
    Leaves (.draftWordUncorrectable sk pl) s retried ∧
    (y.testPend = false → Leaves (.agreementTimeout sk pl) s retried ∧
      ∀ g : Word, Leaves (.plyRetry sk pl (.mismatch g)) s retried)

/-- R157, R164, R168, R172: what declares a ply failed. A retry at the limit of a ply that hosts nothing, a comparator test in
which a group did not flag, a second failed load of a draft image, and, on a Loose Split skein, a ply failure or an uncorrectable
draft word each leave the ply in the state failed. -/
def Sys2Proof.Machine.PlyFailuresAreDeclared : Prop :=
  ∀ (sk : SkId) (pl : PlId) (s : State),
    let y := s.ply sk pl
    (s.compares sk pl = true → s.param 0x0500 0 ≤ 1 → s.spindlesOn sk pl = [] → s.targets = [] →
      Leaves (.plyRetry sk pl .parity) s fun u => (u.ply sk pl).state = 3 ∧ (u.ply sk pl).step = 15) ∧
    (s.skeinUp sk = true → (s.sk sk).split = false → y.testPend = true → s.spindlesOn sk pl = [] → s.targets = [] →
      ∀ m : Word, m ≠ BitVec.allOnes 64 → Leaves (.comparatorTest sk pl m) s fun u => (u.ply sk pl).state = 3 ∧ (u.ply sk pl).cmpMask = m) ∧
    (s.skeinUp sk = true → y.step < 9 → y.state < 6 → y.state ≠ 3 → y.draftVersion ≠ s.jalif.draftVer → s.spindlesOn sk pl = [] → s.targets = [] →
      (y.draftLoads = 0 → Leaves (.draftLoad sk pl false) s fun u => u.ply sk pl = { y with draftLoads := 1 }) ∧
      (y.draftLoads ≠ 0 → Leaves (.draftLoad sk pl false) s fun u => (u.ply sk pl).state = 3)) ∧
    (s.skeinUp sk = true → (s.sk sk).split = true → (s.sk sk).loose = true → y.state ≤ 2 → s.targets = [] →
      Leaves (.splitPlyFailed sk pl) s (fun u => (u.ply sk pl).state = 3) ∧
      (y.step < 9 → Leaves (.draftWordUncorrectable sk pl) s fun u => (u.ply sk pl).state = 3))

/-- R154, R162, R172, R197: what makes a Fastened skein lost: a failed Split ply, a used region of a checkpoint array that cannot be
corrected, and an L2 of a failed ply that is not clean 100 us after the failure. SKEIN_LOSS names any other cause. On a Loose skein
the checkpoint's loss stops the ply's spindles and the L2 is taken as failed, the skein staying up; an unused region is rewritten. -/
def Sys2Proof.Machine.SkeinLossFollowsItsCauses : Prop :=
  ∀ (sk : SkId) (pl : PlId) (s : State), s.skeinUp sk = true → s.life ≠ .off → s.life ≠ .halt →
    (∀ why : LossCause, Leaves (.skeinLoss sk why) s fun u => s.LostSkein u sk) ∧
    ((s.sk sk).loose = false →
      ((s.sk sk).split = true → (s.ply sk pl).state ≤ 2 → s.targets = [] → Leaves (.splitPlyFailed sk pl) s fun u => (u.sk sk).lost = true) ∧
      (∀ (r : Fin 4) (f : Fin 2), s.regionUsed sk pl r = true →
        Leaves (.checkpointUncorrectable sk pl r f) s fun u => s.LostSkein u sk) ∧
      ((s.ply sk pl).state = 3 → s.dirtyInL2 sk pl ≠ [] → (s.ply sk pl).failedAt + 100000 ≤ s.time →
        Leaves (.l2CleanTimeout sk pl) s fun u => s.LostSkein u sk)) ∧
    ((s.sk sk).loose = true →
      (∀ (r : Fin 4) (f : Fin 2), s.regionUsed sk pl r = true →
        Leaves (.checkpointUncorrectable sk pl r f) s fun u => (u.sk sk).lost = false ∧
          ∀ i ∈ s.spindlesOn sk pl, (u.sp i).stopped ≠ 0) ∧
      ((s.ply sk pl).state = 3 → s.dirtyInL2 sk pl ≠ [] → (s.ply sk pl).failedAt + 100000 ≤ s.time →
        Leaves (.l2CleanTimeout sk pl) s fun u => (u.sk sk).lost = false ∧ (u.ply sk pl).l2Failed = true)) ∧
    (∀ (r : Fin 4) (f : Fin 2), s.regionUsed sk pl r = false →
      Leaves (.checkpointUncorrectable sk pl r f) s fun u => u = s.raise 0x010A (20 * sk + pl))

/-- R160, R163 to R165, R168, R170: how a ply comes back into service. A test in which all groups flag ends with the mask held and
notice 5 for the spindle that asked; a good load gives the ply the held image; a ply that passes the run-time self-test becomes a
warm or cold spare as ply.spare_state gives, one that fails it stays failed, and a Split ply woken for a move has passed its own; a
prepared spare takes over its spindle once the old ply is fenced.
Commands whose completion, with its effect, it states: SPARE_ISSUE_START, COMPARATOR_TEST, DRAFT_LOAD,
RUNTIME_SELF_TEST_COMPLETE. -/
def Obligations.PliesReturnToService : Prop :=
  ∀ (sk : SkId) (pl : PlId) (s : State), s.Quiet → s.skeinUp sk = true →
    let y := s.ply sk pl
    ((s.sk sk).split = false → y.testPend = true → y.testMb = none → ∃ t, exec (.comparatorTest sk pl (BitVec.allOnes 64)) s = .next t ∧
      (t.ply sk pl).testPend = false ∧ (t.ply sk pl).cmpMask = BitVec.allOnes 64 ∧ (t.ply sk pl).state = y.state ∧
      (∀ i, y.testFor = some i → (t.sp i).notice5 = some (BitVec.allOnes 64))) ∧
    (y.step < 9 → y.state < 6 → y.state ≠ 3 → y.draftVersion ≠ s.jalif.draftVer → s.jalif.draftCrcOk = true →
      ∃ t, exec (.draftLoad sk pl true) s = .next t ∧
        t.ply sk pl = { y with draftVersion := s.jalif.draftVer, draft := s.jalif.draftCode, draftLoads := 0 }) ∧
    ((s.sk sk).split = true → y.state = 5 → y.testPend = true → ∃ t, exec (.runtimeSelfTestComplete sk pl true) s = .next t ∧
      t.ply sk pl = { y with testPend := false }) ∧
    (y.state = 4 → y.testMb = none → (∃ t, exec (.runtimeSelfTestComplete sk pl false) s = .next t ∧ (t.ply sk pl).state = 3) ∧
      (y.testPend = false → y.step < 9 → s.param 0x0503 0 = 1 → ∃ t, exec (.runtimeSelfTestComplete sk pl true) s = .next t ∧
        t.ply sk pl = { y with state := 1 }) ∧
      (y.testPend = false → s.param 0x0503 0 ≠ 1 → ∃ t, exec (.runtimeSelfTestComplete sk pl true) s = .next t ∧
        (t.ply sk pl).state = 2 ∧ (t.ply sk pl).step = 15)) ∧
    (∀ (sp : SpId) (p f : Nat), (s.sp sp).host = some ⟨sk, pl, 0⟩ → (s.sp sp).target = some ⟨sk, p, f⟩ → p ≠ pl →
      (s.sp sp).moving = true → s.placeReady ⟨sk, p, f⟩ = true → s.spindlesOn sk pl = [sp.val] → s.cleanL2 sk pl = some s →
      (s.fence (plyKey sk pl)).st = 2 → (s.sk sk).inBarrier = false → (s.sp sp).stores = [] → (s.sp sp).freezeReq = false → (s.sp sp).moveMb = none → y.testMb = none →
      ∃ t, exec (.spareIssueStart sp) s = .next t ∧ (t.sp sp).host = some ⟨sk, p, f⟩ ∧ (t.sp sp).moving = false ∧
        (t.sp sp).notice1 = true ∧ (t.sp sp).arch = (s.sp sp).arch ∧ (t.sp sp).ba = (s.sp sp).ba ∧
        (t.ply sk p).state = 0 ∧ (t.ply sk pl).step = 15 ∧ (t.ply sk pl).state = (if y.state = 3 then 3 else 2))

/-- R175, R177, R179, R180, R189: the epoch of a Fastened skein. A tick, once the epoch count has expired or an early fasten is
asked for, begins a barrier, or is held while a fasten is doubling; the close of a gathering window after its 64 cycles is such a tick; the completed barrier closes the open epoch and opens the next; the commit, once
everything of the epoch is doubled, makes it the committed one; the acknowledgement ends the fasten. -/
def Sys2Proof.Machine.EpochsCloseAndCommit : Prop :=
  ∀ (sk : SkId) (s : State), s.Quiet → s.running = true → s.skeinUp sk = true →
    let z := s.sk sk
    (z.loose = false → z.resvClean = false → z.inBarrier = false →
      (z.closingEpoch = 0 → s.NoStoresOn sk → z.pair = 0 →
        (s.epochOver sk = true ∨ z.early = true →
          ∃ t, exec (.epochTick sk) s = .next t ∧ (t.sk sk).inBarrier = true ∧ (t.sk sk).barrierAt = s.time ∧ (t.sk sk).gather = none) ∧
        (∀ since, z.gather = some since → since + plyTicks (s.topStep sk) 64 ≤ s.time →
          ∃ t, exec (.gatheringWindowClose sk) s = .next t ∧ (t.sk sk).inBarrier = true ∧
            (t.sk sk).forced = satBits 64 (z.forced + 1))) ∧
      (z.closingEpoch ≠ 0 → s.epochOver sk = true ∨ z.early = true → ∃ t, exec (.epochTick sk) s = .next t ∧ t.sk sk = { z with tickHeld := true })) ∧
    (z.inBarrier = true → z.closingEpoch = 0 → z.ctxDirty = [] → ∀ ns : Nat, ∃ t, exec (.barrierComplete sk ns) s = .next t ∧
      (t.sk sk).closingEpoch = z.openEpoch ∧ (t.sk sk).openEpoch = (z.openEpoch + 1) % 2 ^ 64 ∧ (t.sk sk).inBarrier = false ∧
      (t.sk sk).lastBarrier = satBits 16 ns ∧ (t.sk sk).imgSend = s.hosted sk) ∧
    (z.closingEpoch ≠ 0 → z.committed ≠ z.closingEpoch → z.toSend = [] → z.imgSend = [] → z.spillOpen = 0 →
      ∃ t, exec (.epochCommit sk) s = .next t ∧ (t.sk sk).committed = z.closingEpoch ∧ (t.sk sk).closingEpoch = z.closingEpoch) ∧
    (z.closingEpoch ≠ 0 → z.committed = z.closingEpoch → z.looseAt = none → z.tickHeld = false → z.ctxDirty = [] →
      s.NoStoresOn sk → s.mcs.retired = [] → s.home.biHeld = [] →
      ∃ t, exec (.dblAck sk) s = .next t ∧ (t.sk sk).closingEpoch = 0 ∧ (t.sk sk).fastens = satBits 64 (z.fastens + 1) ∧
        (∀ l, (s.skl sk l).fst = .closing → s.toBuddy sk = true → (t.skl sk l).fst = .fastenedDirty))

/-- R178, R191, R192, R195: the doubling engine. A line of the closing epoch goes into a reserved way of the buddy as its pending
copy; the last chunk of an image makes it the buddy's pending image; a release frees the committed copy in the buddy; a hold on a
timer ends fasten.snoop_hold_cycles after it began. -/
def Sys2Proof.Machine.DoublingEngineSendsLinesAndImages : Prop :=
  ∀ (sk : SkId) (line : Nat) (s : State), s.Quiet → s.skeinUp sk = true →
    let z := s.sk sk
    let b := buddyOf sk
    (z.closingEpoch ≠ 0 → z.toSend.contains line = true → z.releases.contains line = false → s.toBuddy sk = true →
      s.NoStoresOn sk → (s.sendFirst sk = [] ∨ (s.sendFirst sk).contains line = true) → (s.skl sk line).fst = .closing → l3SetOf line < 12048 → s.resvCount b line < 4 →
      ∃ t, exec (.dblLine sk line) s = .next t ∧ (tget {} (t.sk b).dbl line).pVal = some (s.skl sk line).val ∧
        (t.sk sk).toSend = z.toSend.filter (· != line) ∧ ((s.skl sk line).held = true → (t.skl sk line).due = false)) ∧
    (∀ sp : SpId, z.closingEpoch ≠ 0 → z.imgSend.contains sp.val = true → s.toBuddy sk = true →
      ∃ t, exec (.dblImage sk sp 31) s = .next t ∧ tget {} (t.sk b).imgP sp = tget {} z.imgOwn sp ∧
        (t.sk sk).imgSend = z.imgSend.filter (· != sp.val)) ∧
    (z.releases.contains line = true → ∃ t, exec (.release sk line) s = .next t ∧ (t.sk sk).releases = z.releases.erase line ∧
      (tget {} (t.sk b).dbl line).cVal = none ∧ (tget {} (t.sk b).dbl line).pVal = (tget {} (s.sk b).dbl line).pVal) ∧
    ((s.skl sk line).hold = 1 → (s.skl sk line).holdAt + fabricTicks (s.param 0x0603 0) ≤ s.time → s.NoStoresOn sk → ∃ t, exec (.snoopHoldExpire sk line) s = .next t ∧
      t.skl sk line = { s.skl sk line with hold := 0 })

/-- R193, R196, R253: the home slices in a fasten. FASTEN_DONE turns the skein's Modified entries of its lines into Owned-doubled
ones and, with the last packet of its list, lets the journal copies of the epoch serve; JOURNAL_WR keeps a copy and marks the entry;
the writeback of the copy that serves a line puts it in memory. -/
def Sys2Proof.Machine.HomeSlicesTakePartInFastens : Prop :=
  (∀ (h : SliceId) (p : Packet) (s : State) (l : Nat), s.Quiet → s.Comes 0x22 p → (s.homeOf h).topq = [] →
    l ∈ p.lines → homeSlice l = h.val → (s.dirOf l).state = 3 → (s.dirOf l).owner = p.owner →
    ∃ t, exec (.fastenDone h p) s = .next t ∧ (t.dirOf l).state = 4 ∧ (t.dirOf l).owner = p.owner ∧
      (p.aux % 2 = 0 → (t.dirOf l).inelig = false ∧
        (∀ j ∈ t.home.journal, j.skein = p.owner → j.epoch = p.epoch → homeSlice j.line = h.val → j.done = true))) ∧
  (∀ (p : Packet) (s : State), s.Quiet → s.Comes 0x27 p → ∃ t, exec (.journalWr p) s = .next t ∧
    ({ skein := p.owner, epoch := p.epoch, line := p.line, val := p.val } : JEntry) ∈ t.home.journal ∧
    (t.dirOf p.line).journaled = true ∧ (t.sk p.owner).spillOpen = (s.sk p.owner).spillOpen - 1 ∧ t.mem = s.mem) ∧
  (∀ (sk : SkId) (l : Nat) (s : State) (j : JEntry), s.home.journal = [j] → j.skein = sk.val → j.line = l → j.done = true →
    (s.homeOf (homeSlice l)).topq = [] →
    Leaves (.journalCopyWriteback sk l) s fun u => u.home.journal = [] ∧ (u.dirOf l).journaled = false ∧
      u.mem = (s.memWrite l j.val).mem)

/-- R181: a fibre of a hosting ply that has not joined the barrier within fasten.barrier_limit_cycles makes its Twin ply retry and fails its Split ply; the event
0x0200 of the skein is raised. -/
def Sys2Proof.Machine.BarrierTimeoutActsOnThePly : Prop :=
  ∀ (sk : SkId) (pl : PlId) (f : Fin 2) (s : State), s.skeinUp sk = true → (s.sk sk).inBarrier = true → (s.ply sk pl).state = 0 →
    (s.sk sk).barrierAt + plyTicks (s.ply sk pl).step (s.param 0x0602 0) ≤ s.time → s.targets = [] →
    ((s.sk sk).split = true → Leaves (.barrierTimeout sk pl f) s fun u =>
      if (s.sk sk).loose = true ∨ s.life = .off ∨ s.life = .halt then (u.ply sk pl).state = 3 else (u.sk sk).lost = true) ∧
    ((s.sk sk).split = false → 1 < s.param 0x0500 0 → (s.ply sk pl).stamps.length + 1 < s.param 0x0500 0 →
      Leaves (.barrierTimeout sk pl f) s fun u => (u.ply sk pl).retryTotal = satBits 32 ((s.ply sk pl).retryTotal + 1) ∧
        u.L1Empty sk pl)

/-- R197, R198, R202 to R205, R208: what follows a loss. A sweep resolves the entries that name a lost skein; the buddy's promoted
lines are in memory and clean; a spindle for which there is no place is suspended, one whose place is ready takes it; a pair whose
skeins have each committed into the other is paired; ways that have been cleaned let the first barriers begin. -/
def Sys2Proof.Machine.RecoveryAfterSkeinLoss : Prop :=
  (∀ (h : SliceId) (l : Nat) (k : SkId) (s : State), s.Quiet → (s.homeOf h).topq = [] → (s.homeOf h).sweep = true → homeSlice l = h.val → (s.sk k).lost = true →
    ∃ t, exec (.directorySweep h l) s = .next t ∧ (t.dirOf l).owner ≠ k.val ∧ (t.dirOf l).sharers.getLsbD k = false ∧ t.mem = s.mem) ∧
  (∀ (k : SkId) (s : State), Leaves (.promotionWritebackComplete k) s fun t => (t.sk k).promo = [] ∧
    (∀ l ∈ (s.sk k).promo, (s.skl k l).held = true → (s.skl k l).fst = .fastenedDirty →
      t.skl k l = { s.skl k l with fst := .clean })) ∧
  (∀ (sp : SpId) (s : State), s.running = true →
    (s.jalif.rehost = [sp.val] → (s.sp sp).target = none → s.choosePlace = none →
      Leaves (.rehostPlacement sp) s fun u => (u.sp sp).suspended = true ∧ u.jalif.rehost = [] ∧ (u.sp sp).host = (s.sp sp).host) ∧
    (∀ (d : Place) (m : Image), (s.sp sp).target = some d → s.placeReady d = true → s.jalif.heldImg = [(sp.val, m)] → m.bad = false →
      (s.sk d.skein).loose = false → s.home.router = [] → m.sp.stores = [] →
      (s.jalif.rehost = [sp.val] → Leaves (.rehostPlacement sp) s fun u => (u.sp sp).host = some d ∧ (u.sp sp).ba = m.sp.ba ∧
        (u.sp sp).arch.g = m.sp.arch.g ∧ (u.sp sp).notice2 = true ∧ (u.sp sp).saved2 = m.epoch ∧ u.jalif.rehost = []) ∧
      ((s.sp sp).suspended = true → (s.sp sp).moving = false →
        Leaves (.suspendedSpindlePlace sp) s fun u => (u.sp sp).host = some d ∧ (u.sp sp).ba = m.sp.ba ∧
          (u.sp sp).suspended = false))) ∧
  (∀ (k : SkId) (s : State), s.Quiet → (s.sk k).pair = 2 → (s.sk (buddyOf k)).pair = 2 →
    (s.sk k).pairFirst = true → (s.sk (buddyOf k)).pairFirst = true →
    ∃ t, exec (.repairingComplete k) s = .next t ∧ (t.sk k).pair = 0 ∧ (t.sk (buddyOf k)).pair = 0) ∧
  (∀ (k : SkId) (s : State), s.Quiet → (s.sk k).resvClean = true → (s.sk k).l3 = [] →
    let b := buddyOf k
    let begins (n : Nat) : Prop := s.skeinUp n = true ∧ (s.sk n).loose = false ∧ (s.sk n).inBarrier = false ∧
      (s.sk n).closingEpoch = 0 ∧ (s.sk n).pair = 0 ∧ s.NoStoresOn n
    ((s.sk b).resvClean = true → ∃ t, exec (.reservedWayCleanComplete k) s = .next t ∧ t.sk k = { s.sk k with resvClean := false }) ∧
    ((s.sk b).resvClean = false → s.running = true → begins k → begins b →
      ∃ t, exec (.reservedWayCleanComplete k) s = .next t ∧ (t.sk k).resvClean = false ∧ (t.sk k).inBarrier = true ∧
        (t.sk b).inBarrier = true))

namespace Sys2Proof.Machine

/-- A request p of an agent that may be served at once (R247, R250, R252, R254): its skein, if it is one, is up, no transaction is
open on the line or recalls for it, none for the line waits in a reserved slot, its slice has a plain slot, and its set has a way. -/
structure State.Servable (s : State) (p : Packet) : Prop where
  agent : p.src < 12 → s.skeinUp p.src = true
  alone : s.txnOn p.line = none
  still : s.recalling p.line = false
  first : ((s.homeOf (homeSlice p.line)).topq.any fun q => q.line == p.line) = false
  plain : topAge p = false ∧ s.slotsUsed (homeSlice p.line) false < s.plainSlots
  way   : (s.waysHeld p.line).length < 20

/-- A packet that answers the agent of request p about its line. -/
def Answers (u : State) (p : Packet) (cmd : Nat) (P : Packet → Prop) : Prop :=
  ∃ q ∈ u.fab.net, q.cmd = cmd ∧ q.dst = p.src ∧ q.line = p.line ∧ q.tag = p.tag ∧ P q

/-- Skein k has one request open, r, no prefetch or lock-fill, for the line of packet p, and p, addressed to it, carries its tag;
no back-invalidate response waits. -/
structure State.Asked (s : State) (k : Nat) (r : Req) (p : Packet) : Prop where
  plain : r.pf = false ∧ r.lock = false
  held  : s.home.biHeld = []
  skein : p.dst = k ∧ k < 12 ∧ s.skeinUp k = true
  only  : (s.sk k).reqs = [r]
  tag   : r.pkt.tag = p.tag ∧ r.pkt.line = p.line

/-- A snoop of line p.line for skein k finds the line there, neither on its way out nor on its way in. -/
structure State.Snoops (s : State) (k : Nat) (p : Packet) : Prop where
  skein : p.dst = k ∧ k < 12 ∧ s.skeinUp k = true
  here  : (s.skl k p.line).held = true
  stays : (s.sk k).leaving p.line = false
  still : s.granting p.dst p.line = false
  calm  : s.NoStoresOn k

/-- One transaction is open, t, for a skein's request, and awaits the answer p of another skein alone, which names it by its TAG;
nothing waits for it at its home slice. -/
structure State.Awaits (s : State) (p : Packet) (t : Txn) : Prop where
  only  : s.home.txns = [t]
  names : t.tag = p.tag ∧ homeNode (homeSlice t.line) = p.dstNode ∧ t.req.line = t.line
  lone  : t.await = skBit p.src ∧ t.evicting = 0 ∧ t.got = [] ∧ t.kept = 0 ∧ t.nack = false ∧ t.recallFor = false ∧ t.data = none
  who   : p.src < 12 ∧ t.req.src < 12 ∧ t.req.src ≠ p.src
  rest  : (s.homeOf (homeSlice t.line)).topq = [] ∧ s.home.biHeld = [] ∧ s.recalling t.line = false

end Sys2Proof.Machine

/-- R222, R223, R239: a cache error is entered in CACHE_ERR_LOG and recovered where it can be: a line with a parity error leaves the
L1s of its fibre, a clean line leaves the L2, a fastened-dirty line takes the buddy's copy, any other dirty line is poisoned; the
buddy whose copy is lost drops it and the owner doubles it again; two failed tag copies poison a dirty line of an L2, and in the L3
of a Fastened skein lose the skein.
Commands whose completion, with its effect, it states: L1_PARITY_ERROR, CACHE_UNCORRECTABLE, CACHE_TAG_DOUBLE_FAILURE,
BUDDY_COPY_LOST. -/
def Obligations.CacheErrorsAreLoggedAndRecovered : Prop :=
  ∀ (sk : SkId) (pl : PlId) (line : Nat) (s : State),
    let x := s.skl sk line
    let logged (u : State) : Prop := (u.sk sk).errLog.getLsbD 63 = true
    let mine (f : Fin 2) : BitVec 40 := if (s.sk sk).split then BitVec.ofNat 40 (2 ^ (2 * pl.val + f.val)) else fibreBits pl
    (∀ f : Fin 2, x.l1d &&& mine f ≠ 0 → Leaves (.l1ParityError sk pl (.l1d f) line) s fun u =>
      (u.skl sk line).l1d &&& mine f = 0 ∧ (u.skl sk line).val = x.val ∧ logged u) ∧
    (x.l2.getLsbD pl = true →
      (x.fst = .clean → Leaves (.cacheUncorrectable sk (some pl) line) s fun u => (u.skl sk line).l2.getLsbD pl = false ∧ logged u) ∧
      (∀ v : LineVal, x.fst = .fastenedDirty → (s.sk sk).loose = false → (tget {} (s.sk (buddyOf sk)).dbl line).cVal = some v →
        Leaves (.cacheUncorrectable sk (some pl) line) s fun u => u.skl sk line = { x with val := v } ∧ logged u) ∧
      (x.fst = .unfastened ∨ x.fst = .closing → Leaves (.cacheUncorrectable sk (some pl) line) s fun u =>
        u.skl sk line = { x with val := { x.val with poison := true } } ∧ logged u)) ∧
    (∀ v : LineVal, (tget {} (s.sk sk).dbl line).cVal = some v → Leaves (.buddyCopyLost sk line) s fun u =>
      (tget {} (u.sk sk).dbl line).cVal = none ∧ line ∈ (u.sk (buddyOf sk)).redouble ∧ logged u) ∧
    (s.skeinUp sk = true →
      (∀ slot : Nat, (tget {} (s.ply sk pl).l2 slot).line = line + 1 → x.dirty = true →
        Leaves (.cacheTagDoubleFailure sk (some pl) slot) s fun u => (u.skl sk line).held = false ∧ logged u) ∧
      (∀ slot : Nat, (s.sk sk).loose = false → s.life ≠ .off → s.life ≠ .halt →
        Leaves (.cacheTagDoubleFailure sk none slot) s fun u => s.LostSkein u sk))

/-- R218, R219, R235 to R237: prefetches and the cleaning of caches. A prefetch asks for a Shared copy of a line that continues a
stride and that the skein lacks; a line not used for cache.prefetch_age_cycles leaves the side buffer; a draining cache that holds no unfastened or closing line becomes disabled, and a way
that is to be powered down goes off; a cleaning beyond its limit raises event 0x0309.
Commands whose completion, with its effect, it states: PREFETCH_ISSUE, PREFETCH_AGE_EXPIRE, CACHE_DRAIN_COMPLETE,
WAY_POWER_OFF_COMPLETE, CLEAN_LIMIT_TIMEOUT. -/
def Obligations.PrefetchAndCacheMaintenance : Prop :=
  ∀ (sk : SkId) (pl : PlId) (line : Nat) (s : State), s.Quiet →
    let y := s.ply sk pl
    let settled (o : Option Nat) (c : Nat → Bool) : Prop :=
      ∀ l ∈ s.slotLines sk o c, (s.skl sk l).fst ≠ .unfastened ∧ (s.skl sk l).fst ≠ .closing
    (s.running = true → s.skeinUp sk = true → y.state = 0 → s.l2Up sk pl = true → s.param 0x0700 (20 * sk + pl) = 1 →
      y.strideHit line = true → s.memRange (128 * line) 128 = true → (s.skl sk line).held = false → (s.sk sk).leaving line = false →
      (∀ r ∈ (s.sk sk).reqs, r.pkt.line ≠ line) →
      ∃ t p, exec (.prefetchIssue sk pl line) s = .next t ∧ t.fab.net = s.fab.net ++ [p] ∧ p.cmd = 1 ∧ p.line = line ∧ p.src = sk.val ∧
        (t.sk sk).reqs = (s.sk sk).reqs ++ [{ pkt := p, ply := pl, pf := true }]) ∧
    ((s.skl sk line).sbh.getLsbD pl = true → tget 0 y.sbAt line + plyTicks y.step (s.param 0x0701 0) ≤ s.time + 1 →
      ∃ t, exec (.prefetchAgeExpire sk pl line) s = .next t ∧
      (t.skl sk line).sbh.getLsbD pl = false ∧ t.mem = s.mem) ∧
    (y.l2State = 1 → settled (some pl) (fun _ => true) → ∃ t, exec (.cacheDrainComplete sk (some pl)) s = .next t ∧
      (t.ply sk pl).l2State = 2) ∧
    ((s.sk sk).l3State = 1 → settled none (fun _ => true) → ∃ t, exec (.cacheDrainComplete sk none) s = .next t ∧
      (t.sk sk).l3State = 2) ∧
    (∀ w : Fin 16, y.l2Off.getLsbD w = true → settled (some pl) (fun n => n % 16 == w.val) →
      ∃ t, exec (.wayPowerOffComplete sk (some pl) w) s = .next t ∧ (t.ply sk pl).l2On.getLsbD w = false ∧
        (t.ply sk pl).l2Off.getLsbD w = false) ∧
    (y.cleaning = true → y.cleanAt + s.param 0x0709 0 * 1000 ≤ s.time →
      Leaves (.cleanLimitTimeout sk (some pl)) s fun u => u = s.raise 0x0309 (20 * sk + pl)) ∧
    ((s.sk sk).cleaning = true → (s.sk sk).cleanAt + s.param 0x0709 0 * 1000 ≤ s.time →
      Leaves (.cleanLimitTimeout sk none) s fun u => u = s.raise 0x0309 (240 + sk))

/-- R246, R254: requests for a line that the directory does not hold. RD_SHARED makes the skein its Exclusive holder, RD_OWN its
Modified one, each with the value the home has for it; RD_PEEK answers that value and changes no entry; WR_FULL and WR_PART write
the bytes they carry. A request for a line that another skein owns has that skein snooped first. -/
def Sys2Proof.Machine.HomeServesRequests : Prop :=
  ∀ (p : Packet) (s : State), s.Servable p → s.dirOf p.line = {} →
    let v := s.homeVal p.line
    (p.src < 12 →
      (s.Comes 0x01 p → Leaves (.rdShared p) s (fun u => (u.dirOf p.line).state = 2 ∧ (u.dirOf p.line).owner = p.src ∧
        Answers u p 0x1D fun q => q.val = v ∧ q.len = 8)) ∧
      (s.Comes 0x02 p → Leaves (.rdOwn p) s (fun u => (u.dirOf p.line).state = 3 ∧ (u.dirOf p.line).owner = p.src ∧
        Answers u p 0x1D fun q => q.val = v ∧ q.len = 8))) ∧
    (s.Comes 0x07 p → Leaves (.rdPeek p) s fun u => u.dirOf p.line = {} ∧ u.mem = s.mem ∧ Answers u p 0x21 fun q => q.val = v) ∧
    (s.Comes 0x08 p → Leaves (.wrFull p) s fun u => (u.dirOf p.line).state = 0 ∧ Answers u p 0x20 (fun _ => True) ∧
      u.mem = (s.memWrite p.line (lineMerge v (BitVec.allOnes 128) p.val.data)).mem) ∧
    (s.Comes 0x09 p → p.aux % 2 = 0 → s.firstPart { p with cmd := 0x09 } = none → Leaves (.wrPart p) s fun u => (u.dirOf p.line).state = 0 ∧ Answers u p 0x20 (fun _ => True) ∧
      u.mem = (s.memWrite p.line (lineMerge v p.mask p.val.data)).mem)

/-- R243, R246, R247, R254, R255: requests and notices for a line that the directory holds. UPGRADE of the only sharer makes it the
Modified holder; RD_SHARED and RD_OWN of a line with another owner snoop the owner; a request for a line with an open transaction
is refused for CONFLICT; MARK_M makes an Exclusive entry Modified; WB writes the owner's data and frees the entry, EVICT_CLEAN frees
that of a last sharer, and both are acknowledged. -/
def Sys2Proof.Machine.HomeFollowsHolders : Prop :=
  ∀ (p : Packet) (s : State), p.src < 12 → s.skeinUp p.src = true →
    let d := s.dirOf p.line
    (s.Servable p → s.Comes 0x03 p → d.state = 1 → d.owner = 15 → d.sharers = skBit p.src → Leaves (.upgrade p) s fun u =>
      (u.dirOf p.line).state = 3 ∧ (u.dirOf p.line).owner = p.src ∧ Answers u p 0x1E fun _ => True) ∧
    (s.Servable p → 2 ≤ d.state → d.owner < 12 → s.skeinUp d.owner = true →
      (s.Comes 0x01 p → Leaves (.rdShared p) s fun u => ∃ q ∈ u.fab.net, q.cmd = 0x10 ∧ q.dst = d.owner ∧ q.line = p.line) ∧
      (s.Comes 0x02 p → Leaves (.rdOwn p) s fun u => ∃ q ∈ u.fab.net, q.cmd = 0x11 ∧ q.dst = d.owner ∧ q.line = p.line)) ∧
    ((s.txnOn p.line).isSome = true → topAge p = false →
      (s.Comes 0x01 p → Leaves (.rdShared p) s fun u => Answers u p 0x1A fun q => q.aux = 1) ∧
      (s.Comes 0x02 p → Leaves (.rdOwn p) s fun u => Answers u p 0x1A fun q => q.aux = 1) ∧
      (s.Comes 0x03 p → Leaves (.upgrade p) s fun u => Answers u p 0x1A fun q => q.aux = 1)) ∧
    (s.Comes 0x04 p → d.state = 2 → d.owner = p.src → Leaves (.markM p) s fun u => u.dirOf p.line = { d with state := 3 }) ∧
    (s.txnAt p.line = none → (s.homeOf (homeSlice p.line)).topq = [] → s.home.biHeld = [] → p.hint ≠ 1 →
      (s.Comes 0x05 p → 2 ≤ d.state → d.owner = p.src → Leaves (.wb p) s fun u => (u.dirOf p.line).state = 0 ∧ Answers u p 0x1F (fun _ => True) ∧
        u.mem = (s.memWrite p.line p.val).mem) ∧
      (s.Comes 0x06 p → d.state = 1 → d.owner = 15 → d.sharers = skBit p.src → Leaves (.evictClean p) s fun u =>
        (u.dirOf p.line).state = 0 ∧ Answers u p 0x1F (fun _ => True) ∧ u.mem = s.mem))

/-- R184, R185, R195, R255, R264: a snoop at a skein. A line that is unfastened or closing answers NACK for UNFASTENED and stays, and
an unfastened one calls for an early fasten. Another line answers SNP_SHARE and SNP_PEEK with its value, staying Shared or as it was
but for an ended hold, and leaves at SNP_INV, dirty data going with the answer (a line whose CLEAN is not yet acknowledged is supplied
as dirty data: the model's choice, log 23). A recall of a set of which the skein holds nothing is acknowledged; HOLD_RELEASE ends a hold. -/
def Sys2Proof.Machine.SkeinsAnswerSnoops : Prop :=
  ∀ (p : Packet) (k : SkId) (s : State),
    let x := s.skl k p.line
    let back (u : State) (cmd : Nat) (P : Packet → Prop) : Prop :=
      ∃ q ∈ u.fab.net, q.cmd = cmd ∧ q.src = k.val ∧ q.line = p.line ∧ q.tag = p.tag ∧ P q
    (s.Snoops k p →
      (x.fst = .unfastened ∨ x.fst = .closing →
        let refused (u : State) : Prop := back u 0x1A (fun q => q.aux = 4) ∧ (u.skl k p.line).held = true ∧
          (u.skl k p.line).val = x.val ∧ (x.fst = .unfastened → (s.sk k).loose = false → u.Fastens k)
        (s.Comes 0x10 p → Leaves (.snpShare p) s refused) ∧ (s.Comes 0x11 p → Leaves (.snpInv p) s refused) ∧
          (s.Comes 0x12 p → Leaves (.snpPeek p) s refused)) ∧
      (x.fst = .clean ∨ x.fst = .fastenedDirty →
        let dirty : Bool := x.fst == .fastenedDirty || (s.sk k).cleans p.line
        (s.Comes 0x10 p → Leaves (.snpShare p) s fun u => back u 0x18 (fun q => q.val = x.val ∧ q.dirty = dirty) ∧
          (u.skl k p.line).own = .shared ∧ (u.skl k p.line).val = x.val ∧ (u.skl k p.line).fst = .clean) ∧
        (s.Comes 0x12 p → Leaves (.snpPeek p) s fun u => back u 0x18 (fun q => q.val = x.val) ∧
          u.skl k p.line = (if x.hold = 0 then x else { x with hold := 0, nacked := 0 })) ∧
        (s.Comes 0x11 p → Leaves (.snpInv p) s fun u => (u.skl k p.line).held = false ∧
          (if dirty then back u 0x18 (fun q => q.val = x.val ∧ q.dirty = true) else back u 0x19 (fun _ => True))))) ∧
    (p.dst = k.val → p.cmd = 0x13 → s.skeinUp k = true → s.linesInSet k (p.aux % 4) (bits p.line 0 18) = [] → s.fab.net = [p] →
      Leaves (.recall p) s fun u => back u 0x19 fun q => q.aux = 8 + p.aux % 4) ∧
    (p.dst = k.val → s.Comes 0x14 p → x.held = true → s.NoStoresOn k → Leaves (.holdRelease p) s fun u =>
      (u.skl k p.line) = { x with hold := 0, nacked := 0 })

/-- R246, R247, R254, R255: the answer of the last skein awaited ends the transaction. An ACK to a RD_OWN makes the requester the
Modified holder with a grant; DATA to a RD_SHARED makes both sharers and grants the value it carries; a NACK refuses the request for
UNFASTENED; EVICTING leaves the transaction to wait for the line's own notice. -/
def Sys2Proof.Machine.SnoopAnswersEndTransactions : Prop :=
  ∀ (p : Packet) (t : Txn) (s : State), s.Awaits p t →
    let q := t.req
    let d := s.dirOf t.line
    (s.Comes 0x19 p → q.cmd = 0x02 → p.aux < 8 → Leaves (.ack p) s fun u => u.home.txns = [] ∧ (u.dirOf t.line).state = 3 ∧
      (u.dirOf t.line).owner = q.src ∧ Answers u q 0x1D fun _ => True) ∧
    (s.Comes 0x18 p → q.cmd = 0x01 → d.owner = p.src → Leaves (.data p) s fun u => u.home.txns = [] ∧ (u.dirOf t.line).state = 1 ∧
      (u.dirOf t.line).sharers.getLsbD p.src = true ∧ (u.dirOf t.line).sharers.getLsbD q.src = true ∧
      Answers u q 0x1C fun r => r.val = p.val) ∧
    (s.Comes 0x1A p → 12 ≤ p.dst → Leaves (.nack p) s fun u => u.home.txns = [] ∧ u.dirOf t.line = d ∧
      Answers u q 0x1A fun r => r.aux = 4) ∧
    (s.Comes 0x1B p → Leaves (.evicting p) s fun u => u.home.txns = [{ t with evicting := skBit p.src }] ∧ u.dirOf t.line = d)

/-- R183, R246 to R249, R254, R255: what an answer of the home leaves at the skein that asked. A grant brings the line into the ply's
L2 with the ownership it gives; GRANT_UPG makes the held line Modified; a NACK leaves the request waiting for the hint with its age raised, and
NACK_RETRY then sends it again; WB_ACK clears the eviction record; the answers to a hub agent are received. -/
def Sys2Proof.Machine.SkeinsTakeAnswers : Prop :=
  ∀ (p : Packet) (k : SkId) (r : Req) (s : State),
    (s.Asked k r p → s.NoStoresOn k → s.l2Up k r.ply = true → (s.ply k r.ply).l2 = [] → s.l2Allowed k r.ply 0 = true →
      r.ply < 20 →
      (s.Comes 0x1C p → Leaves (.grantS p) s fun u => (u.skl k p.line).val = p.val ∧ (u.skl k p.line).own = .shared ∧
        (u.skl k p.line).l2.getLsbD r.ply = true ∧ (u.sk k).reqs = []) ∧
      (s.Comes 0x1D p → Leaves (.grantE p) s fun u => (u.skl k p.line).val = p.val ∧ (u.sk k).reqs = [] ∧ (u.skl k p.line).l2.getLsbD r.ply = true ∧
        (u.skl k p.line).own = (if r.pkt.cmd = 1 then .exclusive else .modified)) ∧
      (s.Comes 0x1E p → (s.skl k p.line).held = true → Leaves (.grantUpg p) s fun u =>
        u.skl k p.line = { s.skl k p.line with own := .modified } ∧ (u.sk k).reqs = [])) ∧
    (s.Asked k r p → s.Comes 0x1A p → Leaves (.nack p) s fun u => (u.sk k).reqs =
      [{ r with wait := true, until_ := s.time + fabricTicks p.hint,
                pkt := { r.pkt with age := min 15 (max r.pkt.age p.age + s.param 0x0800 0) } }]) ∧
    (p.src = k.val → s.skeinUp k = true → (s.sk k).reqs = [r] → r.wait = true → r.pkt.tag = p.tag → r.pkt.line = p.line →
      r.until_ ≤ s.time → topAge r.pkt = false → Leaves (.nackRetry p) s fun u =>
        u.fab.net = s.fab.net ++ [{ r.pkt with agedAt := s.time }] ∧
        (u.sk k).reqs = [{ r with wait := false, pkt := { r.pkt with agedAt := s.time } }]) ∧
    (∀ e : Packet, p.dst = k.val → s.Comes 0x1F p → (s.sk k).evicts = [e] → e.line = p.line → e.tag = p.tag →
      Leaves (.wbAck p) s fun u => (u.sk k).evicts = []) ∧
    (s.Comes 0x20 p → Leaves (.wrAck p) s fun u => u = s.received (s.underWay { p with cmd := 0x20 })) ∧
    (s.Comes 0x21 p → Leaves (.peekData p) s fun u => u = s.received (s.underWay { p with cmd := 0x21 }))

/-- R251, R262, R264: what the home slices do by themselves. A request of the top age that waits beyond its limit raises event
0x0402; a directory entry that cannot be corrected has its set recalled from every skein that is up; a device's back-invalidate of
a line that no skein owns takes the line from every skein, and one of a line that is unfastened waits, held, for an early fasten.
Commands whose completion, with its effect, it states: PROGRESS_LIMIT, DIR_ENTRY_UNCORRECTABLE, CXL_BACK_INVALIDATE. -/
def Obligations.HomeSlicesActOnErrors : Prop :=
  (∀ (p : Packet) (k : SkId) (r : Req) (s : State), p.src = k.val → r ∈ (s.sk k).reqs → r.pkt.src = k.val → topAge r.pkt = true → r.pkt.line = p.line →
    r.pkt.tag = p.tag → r.pkt.since + s.param 0x0802 0 * 1000 ≤ s.time →
    Leaves (.progressLimit p) s fun u => u = s.raise 0x0402 (homeSlice p.line)) ∧
  (∀ (h : SliceId) (line : Nat) (k : SkId) (s : State), homeSlice line = h.val → (s.homeOf h).recallOn = false → s.skeinUp k = true →
    Leaves (.dirEntryUncorrectable h line) s fun u => (u.homeOf h).awaits.getLsbD k = true ∧ (u.homeOf h).recallSet = dirSet line ∧
      (u.homeOf h).uncorr = true ∧ ∃ q ∈ u.fab.net, q.cmd = 0x13 ∧ q.dst = k.val ∧ q.line = dirSet line) ∧
  (∀ (line : Nat) (r : CxlRange) (s : State), s.cxlOf (128 * line) = some r → r.shared = true → s.txnOn line = none →
    s.recalling line = false → s.granting 12 line = false → s.home.biHeld = [] →
    (s.ownerOfLine line = none → Leaves (.cxlBackInvalidate line false) s fun u =>
      (∀ k : SkId, (u.skl k line).held = false) ∧ (u.dirOf line).state = 0) ∧
    (∀ k : Nat, s.ownerOfLine line = some k → (s.skl k line).fst = .unfastened → (s.skl k line).held = true →
      (s.sk k).loose = false → s.NoStoresOn k → Leaves (.cxlBackInvalidate line false) s fun u =>
        u.Fastens k ∧ (u.skl k line).val = (s.skl k line).val ∧ (u.home.biHeld.any fun e => e.1 == line) = true ∧
        (u.home.biRsp = s.home.biRsp)))

namespace Sys2Proof.Machine

/-- The load result that n bytes of a value deliver (R63, R114). -/
def ucValue (v : BitVec 128) (n : Nat) (signed : Bool) : Cap :=
  loadValue { data := v.setWidth 1024, tags := 0, poison := false } 0 n signed false

/-- Spindle i has the uncached load r of n bytes at address a in flight, first of its unit, with nothing before it that it must
follow (R60, R257 to R260), and its serial output is q. -/
structure State.Loads (s : State) (i a n : Nat) (signed : Bool) (r : OpRec) (q : Option Serial) : Prop where
  here : s.ucLoadAt i a = some r
  kind : (∃ o, r.kind = .answer a n signed o ∧ (s.sp i).mayPerform .ucLoad o = true) ∧ 0 < n ∧ (r.unit = 10 ∨ r.unit = 11)
  first : (s.sp i).frontOp r.unit = some r
  out  : (s.sp i).serial = q

/-- A pending output of spindle i that has left its skein: its kind and address. -/
def Serial.Left (q : Serial) (k : SerialKind) (a : Nat) : Prop := q.kind = k ∧ q.addr = a ∧ q.sent = true

/-- The reply of the load r in spindle i: its result socket takes v, and it is no more in flight. -/
def State.Loaded (s u : State) (i : Nat) (r : OpRec) (v : Cap) : Prop :=
  ((u.sp i).arch.unit r.unit).r = v ∧ (u.sp i).ops = (s.sp i).ops.erase r

end Sys2Proof.Machine

/-- R13, R40, R272, R284: the answers of an uncached access. A load of a register that is not fenced delivers the register's bytes,
one of a fenced skein's register all ones with event 0x0507; UC_DATA delivers what the window returned; UC_ACK ends the store; a
REFUSED load, and one that a guest does not answer in time, deliver all ones. The gate holds the response.
Commands whose completion, with its effect, it states: UC_LD, UC_DATA, UC_ACK, REFUSED, GUEST_UC_TIMEOUT. -/
def Obligations.UncachedAccessesAreAnswered : Prop :=
  ∀ (sp : SpId) (s : State) (h : Place) (a n : Nat) (signed : Bool) (r : OpRec), s.Runs sp h →
    let refused (u : State) : Prop := s.Loaded u sp r (ucValue (BitVec.allOnes 128) n signed)
    (s.Loads sp a n signed r none → s.addrKind a = .register →
      ∀ x : Uc, x.sp = sp → x.addr = a → x.size = n →
      (s.regFenced (a - regBase) = none → inConfigSpace (a - regBase) = false →
        Leaves (.ucLd x) s fun u => s.Loaded u sp r (ucValue (BitVec.ofNat 128 (s.regBytes (a - regBase) n)) n signed)) ∧
      (∀ k : Nat, s.regFenced (a - regBase) = some k → Leaves (.ucLd x) s refused)) ∧
    (∀ q : Serial, s.Loads sp a n signed r (some q) → q.Left .ucLoad a →
      (∀ v : BitVec 128, (tget {} s.home.gate sp).seq = r.ser → Leaves (.ucData sp v false) s fun u =>
        s.Loaded u sp r (ucValue v n signed) ∧ (u.sp sp).serial = (s.sp sp).serialNext.head? ∧ (tget {} u.home.gate sp).resp = v ∧ (tget {} u.home.gate sp).done = true) ∧
      (∀ p : Packet, p.dst = 12 → p.lines = [sp.val] → (∀ g : Nat, (s.site g).opens = []) → Leaves (.refused p) s refused) ∧
      (∀ (g : SiteId) (p : Packet), (s.site g).opens = [p] → p.cmd = 0x28 → p.lines = [sp.val] →
        p.since + s.param 0x0942 g * 1000 ≤ s.time →
        Leaves (.guestUcTimeout sp g) s fun u => refused u ∧ (u.site g).opens = [] ∧ p.tag ∈ (u.site g).ended)) ∧
    (∀ q : Serial, (s.sp sp).serial = some q → q.Left .ucStore a → (tget {} s.home.gate sp).seq = q.seq → Leaves (.ucAck sp) s fun u =>
      (u.sp sp).serial = (s.sp sp).serialNext.head? ∧ (tget {} u.home.gate sp).done = true ∧ (u.sp sp).ops = (s.sp sp).ops)

/-- R12, R40, R187, R188, R394: a store of 8 bytes to the IV of a tenant page is performed: by REGISTER_WRITE, and when it is the
pending output of a spindle that may leave its skein, by UC_ST and by SERIAL_OUTPUT_GATE, once: the gate then keeps its number. A
load from a guest's window leaves as a request to the guest.
Commands whose completion, with its effect, it states: SERIAL_OUTPUT_GATE, UC_ST, REGISTER_WRITE. -/
def Obligations.SerialOutputIsPerformedOnce : Prop :=
  ∀ (sp : SpId) (pg : Fin 4096) (d : BitVec 128) (s : State) (h : Place), s.Runs sp h →
    let a := regBase + 0x3000000 + 0x1000 * pg.val + 0x18
    let x : Uc := { sp := sp, addr := a, size := 8, data := d, tag := false }
    let written (u : State) : Prop := (u.tenant pg).iv.setWidth 64 = d.setWidth 64 ∧ (u.tenant pg).pressCfg = (s.tenant pg).pressCfg ∧
      u.mem = s.mem
    Leaves (.registerWrite x) s written ∧
    (∀ q : Serial, (s.sp sp).serial = some q → q.sent = false → s.mayLeave sp q = true → (tget {} s.home.gate sp).seq ≠ q.seq →
      (q.kind = .ucStore → q.addr = a → q.size = 8 → q.data = d.setWidth 256 → q.tag = false →
        let once (u : State) : Prop := written u ∧ (u.sp sp).serial = (s.sp sp).serialNext.head? ∧
          (tget {} u.home.gate sp).seq = q.seq ∧ (tget {} u.home.gate sp).done = true
        Leaves (.ucSt x) s once ∧ Leaves (.serialOutputGate sp) s once) ∧
      (∀ g : SiteId, q.kind = .ucLoad → s.addrKind q.addr = .guest g → s.siteTakes g sp = true →
        Leaves (.serialOutputGate sp) s fun u => (u.sp sp).serial = some { q with sent := true, sentAt := s.time } ∧
          ∃ p ∈ (u.site g).opens, p.cmd = 0x28 ∧ p.line = lineOf q.addr ∧ p.lines = [sp.val]))

/-- R134, R274 to R281: faults and training of the fabric. An uncorrectable header on the hub raises event 0x0502, on a skein event
0x0501 and the loss of the skein; a packet that has waited 256 cycles ages; a replayed block is counted; a heartbeat missing for 2 us
loses the skein; training takes the lanes that both ends find good; a lane with more replays in a millisecond than its limit leaves
its role (which lane a replay belongs to is the command's: log 95); INTR sets the pending bit. -/
def Sys2Proof.Machine.StrandAndMeshEvents : Prop :=
  ∀ (sk : SkId) (s : State),
    (s.life ≠ .off → Leaves (.meshHeaderUncorrectable 12) s fun u => u = s.raise 0x0502 12) ∧
    (∀ die : DieId, s.life ≠ .off → die.val = sk.val → s.skeinUp sk = true → Leaves (.meshHeaderUncorrectable die) s fun u =>
      u = (s.raise 0x0501 die).todo (.loseSkein die .meshHeader)) ∧
    (∀ p : Packet, s.fab.net = [p] → max p.since p.agedAt + fabricTicks 256 ≤ s.time → Leaves (.packetAgeIncrement p) s fun u =>
      u.fab.net = [{ p with age := min 15 (p.age + 1), agedAt := s.time }]) ∧
    (s.skeinUp sk = true → Leaves (.strandBlockReplay sk) s fun u => u.sk sk = { s.sk sk with
      replays := satBits 16 ((s.sk sk).replays + 1), replayTot := satBits 64 ((s.sk sk).replayTot + 1),
      replayAt := (s.time :: (s.sk sk).replayAt).take (s.param 0x0913 0 + 1) }) ∧
    (s.skeinUp sk = true → s.life ≠ .off → s.life ≠ .halt → (s.sk sk).upAt + 2000 ≤ s.time → (s.sk sk).narrowEnd ≤ s.time →
      Leaves (.heartbeatMissing sk) s fun u => s.LostSkein u sk) ∧
    (∀ m : TrainMasks, (s.sk sk).present = false → (s.sk sk).linkState = 1 → Leaves (.strandTraining sk m.hub m.buddy) s fun u =>
      let h := s.hubLanesOf sk
      let hub := m.hub.near &&& m.hub.far &&& laneMask 0 h
      (u.sk sk).lanes &&& laneMask 0 h = hub ∧ (u.sk sk).hubWidth = roleWidth (goodLanes hub 0 h).length h ∧
        (u.sk sk).linkState = (if (u.sk sk).hubWidth = 0 then 0 else 2) ∧
        (s.skeinUp (buddyOf sk) = false → (u.sk sk).lanes = hub ||| (m.buddy.near &&& m.buddy.far &&& laneMask h (96 - h)))) ∧
    (∀ m : BitVec 96, s.skeinUp sk = true →
      let h := s.hubLanesOf sk
      let gone := m &&& activeLanes (s.sk sk).lanes 0 h
      gone ≠ 0 → s.param 0x0913 0 < s.recentReplays sk → roleWidth (goodLanes ((s.sk sk).lanes &&& ~~~gone) 0 h).length h ≠ 0 →
      Leaves (.laneRetire sk false m) s fun u => (u.sk sk).lanes = (s.sk sk).lanes &&& ~~~gone ∧ (u.sk sk).present = (s.sk sk).present) ∧
    (∀ (sp : SpId) (n : Fin 256), Leaves (.intr sp n) s fun u => (u.sp sp).intPending.getLsbD n = true ∧
      (∀ k : Nat, k ≠ n.val → (u.sp sp).intPending.getLsbD k = (s.sp sp).intPending.getLsbD k) ∧ u.mem = s.mem)

/-- R282: the drain-and-fence handshake of a domain: DRAIN begins it, FENCED ends it once nothing waits, FORCE_FENCE cuts the domain
off after its limit with event 0x0506, and UNFENCE lets a domain that has restarted rejoin. -/
def Sys2Proof.Machine.DrainAndFenceHandshake : Prop :=
  ∀ (d : FDomain) (s : State),
    let f := s.fence (fdomKey d)
    (f.st = 0 → Leaves (.drain d) s fun u => u.fence (fdomKey d) = { st := 1, since := s.time }) ∧
    (f.st = 1 → s.fdomBusy d = false → Leaves (.fenced d) s fun u => u.fence (fdomKey d) = { f with st := 2 }) ∧
    (f.st = 1 → f.since + drainLimit d ≤ s.time → Leaves (.forceFence d) s fun u => (u.fence (fdomKey d)).st = 2) ∧
    (f.st = 2 → s.fdomUp d = true → Leaves (.unfence d) s fun u => u.fence (fdomKey d) = {})

/-- R285 to R291: probes and guests. A counting probe that is armed counts a header that passes its router port and matches under its
mask, a tracing one enters it
in the die's buffer. A guest's read that passes the firewall goes to its home slice; one that fails a check is refused, logged and
counted with event 0x0509. A lost guest link fences the site; a trained one brings it up.
Commands whose completion, with its effect, it states: PROBE_MATCH, GUEST_PACKET, GUEST_LINK_LOST, GUEST_LINK_TRAINING. -/
def Obligations.ProbesAndGuests : Prop :=
  (∀ (k : SkId) (die : DieId) (n : Fin 32) (hd : BitVec 128) (s : State), die.val = k.val → s.skeinUp k = true →
    let p := s.probe k n
    p.ctl.getLsbD 0 = true → s.probeSees die p.ctl.toNat hd = true → hd &&& p.mask = p.mtch &&& p.mask →
    (bits p.ctl.toNat 1 2 = 0 → Leaves (.probeMatch die n hd []) s fun u => u.probe k n = { p with count := satBits 48 (p.count + 1) }) ∧
    (bits p.ctl.toNat 1 2 = 2 → p.ctl.getLsbD 13 = false → (s.sk k).trace.next < 4094 → Leaves (.probeMatch die n hd []) s fun u =>
      (u.sk k).trace.next = (s.sk k).trace.next + 2 ∧ tget 0 (u.sk k).trace.buf ((s.sk k).trace.next + 1) = hd ∧
      (u.probe k n).count = satBits 48 (p.count + 1))) ∧
  (∀ (g : SiteId) (p : Packet) (s : State), (s.site g).state = 2 → (s.fence (16 + g)).st ≠ 2 → p.cmd = 0x07 →
    (flowTake s.time (s.param 0x0941 g) (1 + p.len) (s.site g).flow).isSome = true →
    (s.guestCheck g p = 0 → s.partCut p.part = false → Leaves (.guestPacket g p) s fun u =>
      ∃ q : Packet, u.fab.net = s.fab.net ++ [q] ∧ q.cmd = 0x07 ∧ q.src = 13 + g ∧ q.dst = 12 ∧ q.line = p.line) ∧
    (s.guestCheck g p ≠ 0 → Leaves (.guestPacket g p) s fun u => (u.site g).viol = satBits 32 ((s.site g).viol + 1) ∧
      (∃ q ∈ u.fab.net, q.cmd = 0x30 ∧ q.dst = 13 + g.val ∧ q.tag = p.tag) ∧ u.mem = s.mem)) ∧
  (∀ (g : SiteId) (s : State), (s.site g).state = 2 → Leaves (.guestLinkLost g) s fun u => (u.site g).state = 3 ∧
    (u.fence (16 + g)).st = 2 ∧ (u.site g).opens = []) ∧
  (∀ (g : SiteId) (rate : Nat) (x32 : Bool) (s : State), (s.site g).state = 1 → (rate = 16 ∨ rate = 24 ∨ rate = 32) →
    Leaves (.guestLinkTraining g { ok := true, rate := rate, x32 := x32 }) s fun u => (u.site g).state = 2 ∧ (u.site g).rate = rate ∧
      u.fence (16 + g) = {})

/-- R305 to R308, R311 to R313: reads of a DDR5 channel. A corrected read is counted and logged, leaves memory as it is and opens the
line's window in the repeat detector; an uncorrectable line is rebuilt from a clean copy of a cache, or poisoned; the scrubber goes
on to the next line and ends its lap after the last; a lap beyond its limit raises event 0x0607 once.
Commands whose completion, with its effect, it states: MEMORY_READ_COMPLETE, SCRUB_READ, SCRUB_LAP_LATE. -/
def Obligations.MemoryReadsAreCorrected : Prop :=
  ∀ (ch : ChId) (off : Nat) (s : State), s.chUp ch = true → off < s.channelLines ch →
    let m := s.mch ch
    (∀ pos : Fin 20, tget 0 m.flipped off = 0 → m.reps = [] → Leaves (.memoryReadComplete ch off (.corrected pos)) s fun u =>
      (u.mch ch).corrected = satBits 64 (m.corrected + 1) ∧ u.mem = s.mem ∧ (⟨off, 1, s.time⟩ : RepEntry) ∈ (u.mch ch).reps ∧
      ∃ r ∈ u.mcs.memLog, r.ch = ch.val ∧ r.pos = pos.val ∧ r.kind = 1 ∧ r.time = s.time) ∧
    (∀ n : Nat, s.lineAt ch off = some n → s.partnerUp ch off = false →
      (∀ v : LineVal, s.cacheRepair n = some v → Leaves (.memoryReadComplete ch off (.uncorrectable false false)) s fun u =>
        u.mem = (s.memWrite n v).mem) ∧
      (s.cacheRepair n = none → Leaves (.memoryReadComplete ch off (.uncorrectable false false)) s fun u =>
        u.mem = (s.poisonLine n).mem)) ∧
    (let n := if m.scrubFlow.1 = s.time / 1000000 then m.scrubFlow.2 else 0
     m.scrubbing = true → m.scrubAt = off → s.mcs.retired = [] → tget 0 m.flipped off = 0 → n < s.param 0x0A03 0 →
      (off + 1 < s.channelLines ch → Leaves (.scrubRead ch .clean) s fun u =>
        u.mch ch = { m with scrubAt := off + 1, scrubFlow := (s.time / 1000000, n + 1) }) ∧
      (off + 1 = s.channelLines ch → Leaves (.scrubRead ch .clean) s fun u => (u.mch ch).scrubAt = 0 ∧
        (u.mch ch).lapStart = s.time ∧ (u.mch ch).lapS = (s.time - m.lapStart) / 1000000000)) ∧
    (m.scrubbing = true → m.late = false → m.lapStart + s.param 0x0A04 0 * 1000000000 ≤ s.time →
      Leaves (.scrubLapLate ch) s fun u => u = (s.modMch ch fun m => { m with late := true }).raise 0x0607 ch)

/-- R315, R317, R318: a channel's loss, its restoration, and the flip-mask. A channel with more retries than its limit is down, fenced, and the reel is degraded;
a retrain that trains goes on to fill or to re-silver, and the end of that brings the channel up; ARM arms the flip-mask in Service
mode, and DISARM clears it.
Commands whose completion, with its effect, it states: CHANNEL_LOSS, CHANNEL_RESTORE_COMPLETE, ARM, DISARM. -/
def Obligations.ChannelsAreLostAndRestored : Prop :=
  ∀ (ch : ChId) (s : State),
    let m := s.mch ch
    (∀ retries : Nat, m.state ≠ 0 → m.state ≠ 2 → s.param 0x0A07 0 < retries → Leaves (.channelLoss ⟨ch, retries⟩) s fun u => (u.mch ch).state = 2 ∧ (u.mch ch).flipCtl.getLsbD 0 = false ∧
      (u.fence (256 + ch)).st = 2 ∧ (s.life = .run → u.life = .degraded) ∧ u.mem = s.mem) ∧
    (m.state = 3 → (Leaves (.channelRestoreComplete ch true) s fun u =>
        (u.mch ch).state = (if m.mirrored && (s.mch (ch.val ^^^ 1)).state == 1 then 5 else 4)) ∧
      Leaves (.channelRestoreComplete ch false) s fun u => (u.mch ch).state = 2) ∧
    (m.state = 4 ∨ m.state = 5 →
      (m.state = 4 ∨ m.resilverAt + s.resilverTicks ch ≤ s.time → Leaves (.channelRestoreComplete ch true) s fun u =>
        (u.mch ch).state = 1 ∧ (u.mch ch).flipped = [] ∧ u.fence (256 + ch) = {}) ∧
      Leaves (.channelRestoreComplete ch false) s fun u => (u.mch ch).state = 2) ∧
    (s.faults.service = true → (∀ w : Word, w.getLsbD 1 = false → Leaves (.arm ch w) s fun u => (u.mch ch).flipCtl.getLsbD 0 = true) ∧
      Leaves (.disarm ch) s fun u => (u.mch ch).flipCtl.getLsbD 0 = false)

namespace Sys2Proof.Machine

/-- Entry k ends TERMINAL with a class and a detail (R351, R352). -/
def State.Ended (u : State) (k cls detail : Nat) : Prop :=
  (u.entry k).st = .terminal ∧ (u.entry k).cls = cls ∧ (u.entry k).detail = detail

/-- Entry k waits for a new attempt, counted (R347, R348). -/
def State.Redriven (s u : State) (k : Nat) : Prop :=
  (u.entry k).st = .redrive ∧ (u.entry k).redrives = (s.entry k).redrives + 1 ∧ (u.entry k).redriveAt = s.time

/-- An attempt of entry k may be repeated: it is no rack operation, idempotent, not cancelled, its device is there, and redrives are
left (R347, R348). -/
structure State.MayRedrive (s : State) (k : Nat) : Prop where
  type  : s.devType (s.entry k).device ≠ 3
  idem  : (s.entry k).idem = true ∧ (s.entry k).cancel = false ∧ (s.entry k).removed = false
  limit : (s.entry k).redrives + 1 ≤ s.param 0x0B08 0

/-- A submission to page pg of its own partition reaches the checks of its operation block xs, read at capability slot 1's base plus
off, and passes them all; its ledger slot is k (R335, R336). -/
structure State.Submits (s : State) (pg part off : Nat) (xs : List Nat) (k : Nat) : Prop where
  opened : s.chan.accepting = true ∧ s.pagePart pg ≠ 0 ∧ part = s.pagePart pg
  moves  : (s.tenant pg).frozen = false ∧ (s.tenant pg).freezing = false
  slots  : (tget Cap.zero (s.tenant pg).slots 0).tag = true ∧ (tget Cap.zero (s.tenant pg).slots 1).tag = true ∧ off % 64 = 0 ∧
             off + 192 ≤ capLen (tget Cap.zero (s.tenant pg).slots 1)
  map    : s.memRange (capBase (tget Cap.zero (s.tenant pg).slots 1) + off) 192 = true
  block  : (s.hubBytes (capBase (tget Cap.zero (s.tenant pg).slots 1) + off) 192).1 = some (xs, false) ∧ blockOk xs = true
  owner  : fieldAt xs 2 2 = pg ∧ fieldAt xs 4 1 = s.pagePart pg ∧ fieldAt xs 6 2 < 4096 ∧ s.devType (fieldAt xs 6 2) ≠ 0 ∧
             s.devPart (fieldAt xs 6 2) = s.pagePart pg
  caps   : (List.range (fieldAt xs 5 1)).all (fun j => (s.tenant pg).segCovered (fieldAt xs 8 1) (segWord xs j)) = true
  quota  : (s.pageSlots pg).length < s.param 0x0B00 pg ∧
             (s.chan.ledger.filter fun e => e.2.st != .free && e.2.part == s.pagePart pg).length < s.param 0x0B01 (s.pagePart pg)
  slot   : s.freeSlot = some k

end Sys2Proof.Machine

/-- R335 to R337: a submission that passes the checks of R336 enters a free ledger slot QUEUED with the fields of its block and is
counted; while the reel does not accept submissions it is rejected with 0x0136, counted and, with no ring bound, unposted. A store
to a capability slot keeps a capability that meets the slot's requirement and clears the slot otherwise.
Commands whose completion, with its effect, it states: SUBMIT, SLOT_WRITE. -/
def Obligations.SubmissionsEnterTheLedgerOrAreRejected : Prop :=
  ∀ (pg : PageId) (s : State),
    (∀ (part : PartId) (w token : Word) (xs : List Nat) (k : Nat), s.Submits pg part (bits w.toNat 0 32) xs k →
      Leaves (.submit pg part w token) s fun u => (u.entry k).st = .queued ∧ (u.entry k).token = token ∧
        (u.entry k).tenant = pg.val ∧ (u.entry k).device = fieldAt xs 6 2 ∧ (u.entry k).op = fieldAt xs 8 1 ∧
        (u.entry k).part = s.pagePart pg ∧ (u.tenant pg).accepted = satBits 64 ((s.tenant pg).accepted + 1) ∧ u.mem = s.mem) ∧
    (∀ (part : PartId) (w token : Word), s.chan.accepting = false → s.ring pg = none →
      Leaves (.submit pg part w token) s fun u => (u.tenant pg).rejected = satBits 64 ((s.tenant pg).rejected + 1) ∧
        (u.tenant pg).lastReject = 0x0136 ∧ (u.tenant pg).unposted = satBits 64 ((s.tenant pg).unposted + 1) ∧
        u.chan.ledger = s.chan.ledger) ∧
    (∀ (k : Fin 16) (c : Cap), (s.slotOk pg k c = true → Leaves (.slotWrite pg k c) s fun u => tget Cap.zero (u.tenant pg).slots k = c) ∧
      (s.slotOk pg k c = false → Leaves (.slotWrite pg k c) s fun u => tget Cap.zero (u.tenant pg).slots k = Cap.zero))

/-- R342, R344, R347, R349, R351, R352: an operation's way through the ledger. The first QUEUED entry of a device becomes ACTIVE on
the engine and path chosen, ISSUING before anything is sent, ISSUED when the device accepts it, and TERMINAL with its device's
result; a completion of an attempt that has ended is counted as late.
Commands whose completion, with its effect, it states: CHANNEL_DISPATCH, ENGINE_ISSUE, DEVICE_ACCEPT, DEVICE_COMPLETION. -/
def Obligations.LedgerEntriesAdvance : Prop :=
  ∀ (k : SlotId) (s : State),
    let e := s.entry k
    (∀ n p : Nat, e.st = .queued → s.firstQueued e = true → s.laneFault e = none → e.lanes = false → s.chooseEngine e = some n →
      s.choosePath e = some p → s.devType e.device ≠ 3 → Leaves (.channelDispatch k) s fun u =>
        u.entry k = { e with st := .active, engine := n, path := p, tried := e.tried ||| BitVec.ofNat 4 (2 ^ p) } ∧
        (u.device e.device).lastPath = p) ∧
    (e.st = .active → s.engineUp e.engine = true → Leaves (.engineIssue k) s fun u => (u.entry k).st = .issuing ∧
      (u.entry k).issueTime = s.time ∧ (u.entry k).everIssued = true ∧ (e.everIssued = false → (u.entry k).firstIssue = s.time)) ∧
    (e.st = .issuing → (s.devType e.device = 3 → (s.sendWriteData k).1 = true) →
      Leaves (.deviceAccept k) s fun u => u.entry k = { e with st := .issued }) ∧
    (e.st = .issuing ∨ e.st = .issued → s.devType e.device ≠ 3 →
      (∀ (status : Word) (n : Nat), Leaves (.deviceCompletion k e.redrives (.error status n)) s fun u => u.Ended k 1 0x0110 ∧
        (u.entry k).devstatus = status) ∧
      (e.op = 2 → s.segsUncovered e = false → s.streamPoison e = none → Leaves (.deviceCompletion k e.redrives (.done e.total [])) s fun u =>
        u.Ended k 0 0x0100 ∧ (u.entry k).residual = 0)) ∧
    (∀ (a : Nat) (r : DevResult), e.st = .redrive → s.devType e.device ≠ 3 → e.everIssued = true → a ≤ e.redrives →
      Leaves (.deviceCompletion k a r) s fun u => (u.device e.device).late = satBits 64 ((s.device e.device).late + 1) ∧ u.entry k = e)

/-- R346 to R348, R351, R357: how an operation ends or starts again without its result. CANCEL ends a QUEUED entry as cancelled and
counts a TAG that names none; an NVMe attempt past its limit awaits an Abort, another type's attempt fails, as does an aborted one,
one whose Abort is not answered within the device's default timeout, and one whose path fails, and is redriven while that may be; an entry with no path left past the limit fails.
Commands whose completion, with its effect, it states: CANCEL, ATTEMPT_TIMEOUT, NVME_ABORT_COMPLETE, ATTEMPT_FAILURE,
PATH_WAIT_EXPIRE. -/
def Obligations.AttemptsAreCancelledTimedOutAndRedriven : Prop :=
  ∀ (k : SlotId) (s : State),
    let e := s.entry k
    (∀ (pg : PageId) (part : PartId) (tag : Word), bits tag.toNat 20 16 = k.val → e.tag = tag.toNat % 2 ^ 48 →
      (e.st = .queued → e.tenant = pg.val → Leaves (.cancel pg part tag) s fun u => u.Ended k 1 0x0116) ∧
      (e.st = .free → Leaves (.cancel pg part tag) s fun u =>
        (u.tenant pg).cancelIgn = satBits 64 ((s.tenant pg).cancelIgn + 1) ∧ u.entry k = e)) ∧
    (e.st = .issued → e.issueTime + s.attemptLimit e ≤ s.time →
      (s.devType e.device = 1 → Leaves (.attemptTimeout k) s fun u => u.entry k =
        { e with abortWait := true, abortAt := if e.abortWait then e.abortAt else s.time }) ∧
      (s.devType e.device ≠ 1 → s.MayRedrive k → Leaves (.attemptTimeout k) s fun u => s.Redriven u k)) ∧
    (e.st = .issued → e.abortWait = true → s.devType e.device = 1 →
      let late : Prop := e.abortAt + bits (s.param 0x0B03 e.device) 8 24 * 1000000 ≤ s.time
      (s.MayRedrive k → Leaves (.nvmeAbortComplete k .aborted) s (fun u => s.Redriven u k) ∧
        (late → Leaves (.nvmeAbortComplete k .noAnswer) s fun u => s.Redriven u k)) ∧
      (e.idem = false → Leaves (.nvmeAbortComplete k .aborted) s (fun u => u.Ended k 2 0x0121) ∧
        (late → Leaves (.nvmeAbortComplete k .noAnswer) s fun u => u.Ended k 2 0x0121))) ∧
    (e.st = .issued → (s.MayRedrive k → Leaves (.attemptFailure k) s fun u => s.Redriven u k) ∧
      (e.idem = false → s.devType e.device ≠ 3 → Leaves (.attemptFailure k) s fun u => u.Ended k 2 0x0120)) ∧
    (e.st = .redrive → s.anyPath e.device = false → e.redriveAt + s.param 0x0B09 0 * 1000000 ≤ s.time →
      (e.idem = true → Leaves (.pathWaitExpire k) s fun u => u.Ended k 1 0x0111) ∧
      (e.idem = false → e.everIssued = true → Leaves (.pathWaitExpire k) s fun u => u.Ended k 2 0x0120))

/-- R339, R353 to R355: the completion rings. A TERMINAL entry is posted to a bound ring with room: P advances, the slot becomes FREE
and its generation advances; a poll of a full ring takes the CONSUMED that it reads; a coalescing time that has elapsed sends the
notification. -/
def Sys2Proof.Machine.CompletionRingsAreServed : Prop :=
  ∀ (pg : PageId) (base n : Nat) (s : State), s.ring pg = some (base, n) →
    let t := s.tenant pg
    (∀ (k : Nat) (e : Entry), s.nextPost pg = some (k, e) → t.ringState = 1 → t.clearing = false → t.ringUsed < 2 ^ n →
      let a := base + 128 + 32 * (t.prod % 2 ^ n)
      s.ringLineOk a 32 = true → (s.hubWrite a (completionBytes e.token.toNat e.tag e.cls e.detail e.redrives
        ((t.prod / 2 ^ n + 1) % 2) e.residual e.devstatus)).1 = true →
      Leaves (.completionPost pg) s fun u => (u.tenant pg).prod = (t.prod + 1) % 2 ^ 64 ∧ u.entry k = {} ∧
        tget 0 u.chan.slotGen k = (tget 0 s.chan.slotGen k + 1) % 2 ^ 20) ∧
    (∀ (xs : List Nat) (b : Bool), t.ringState = 2 → t.polledAt + 1000 ≤ s.time → s.ringLineOk base 8 = true → (s.hubBytes base 8).1 = some (xs, b) →
      (t.prod + 2 ^ 64 - leNat xs) % 2 ^ 64 ≤ 2 ^ n → Leaves (.consumedPoll pg) s fun u => (u.tenant pg).consumed = leNat xs ∧
        (u.tenant pg).ringState = (if (t.prod + 2 ^ 64 - leNat xs) % 2 ^ 64 < 2 ^ n then 1 else 2)) ∧
    (s.tellDue (s.param 0x0B06 pg) ⟨t.unnotified, t.oldest⟩ = true → bits (s.param 0x0B06 pg) 0 2 = 1 →
      Leaves (.coalesceTimeout pg) s fun u => (u.tenant pg).unnotified = 0 ∧ (u.tenant pg).oldest = none)

/-- R350, R363: a first failure of a channel engine fences it and starts its reset, a third within 1 s leaves it out of service; a
reset that succeeds brings it back and lifts its fence. A ledger word that one copy has lost is rebuilt with event 0x0709; with both
copies gone an entry ends outcome-unknown, or event 0x070A is raised where its identity is lost. -/
def Sys2Proof.Machine.EnginesAndLedgerWordsFail : Prop :=
  (∀ (e : EngId) (s : State),
    ((s.engine e).state ≠ 1 → (s.engine e).fails = [] → Leaves (.engineMismatch e) s fun u => (u.engine e).state = 2 ∧
      (u.engine e).fails = [s.time] ∧ (u.fence (128 + e)).st = 2) ∧
    (∀ a b : Nat, (s.engine e).state = 0 → (s.engine e).fails = [a, b] → s.time < a + 1000000000 → s.time < b + 1000000000 →
      Leaves (.engineMismatch e) s fun u => (u.engine e).state = 1) ∧
    ((s.engine e).state = 2 → Leaves (.engineResetComplete e true) s fun u => (u.engine e).state = 0 ∧ u.fence (128 + e) = {})) ∧
  (∀ (k : SlotId) (w : Fin 32) (second : Bool) (s : State),
    (Leaves (.ledgerWordUncorrectable k w second false) s fun u => u.chan.ledgerLog.getLsbD 63 = true ∧
      u.chan.ledgerLog.getLsbD 24 = true ∧ u.entry k = s.entry k) ∧
    (8 ≤ w.val → (s.entry k).st = .queued → Leaves (.ledgerWordUncorrectable k w second true) s fun u => u.Ended k 2 0x0123) ∧
    (w.val < 8 → Leaves (.ledgerWordUncorrectable k w second true) s fun u => u.chan.ledgerLog.getLsbD 25 = true ∧
      u.entry k = s.entry k))

namespace Sys2Proof.Machine

/-- A message of the trained peer of a rack port that is up, about a tag for which the reel holds the entry o (R383, R384). -/
structure State.FromPeer (s : State) (m : RackMsg) (o : Option Dedup) : Prop where
  up    : (s.rack m.port).state = 2
  peer  : s.fromPeer m = true
  entry : s.dedupOf m.tag = o

/-- A new operation message for a served endpoint c that admits its source, with room for its entry (R384, R386). -/
structure State.Serves (s : State) (m : RackMsg) (c : EndpointCfg) : Prop where
  from_ : s.FromPeer m none
  room  : s.links.dedup.length < 16384
  cfg   : s.endpointCfg m.endpoint = some c
  src   : c.anySrc = true ∨ c.src = bits m.tag 36 12

/-- The entry of a tag says that its operation is done with a code and a byte count (R384). -/
def State.ServedAs (u : State) (tag code bytes : Nat) : Prop :=
  ∃ d, u.dedupOf tag = some d ∧ d.done = true ∧ d.code = code ∧ d.bytes = bytes

end Sys2Proof.Machine

/-- R369, R371, R372, R374 to R376: the flex ports. A PCIe port trains, and trains again after containment; an uncorrectable or fatal
error contains a port: fenced, counted, the reel degraded; a load through a window that is not completed in time delivers all ones;
an inbound write that a DMA window admits reaches memory, and one that none admits is refused; an interrupt write raises its
interrupt; a capacity event becomes a notice to partition 0; a back-invalidate response that is held beyond its limit is logged.
Commands whose completion, with its effect, it states: CXL_RESPONSE_LATE, FLEX_PORT_TRAINING, INBOUND_REQUEST,
FLEX_UNCORRECTABLE_FATAL, FLEX_RETRAIN, FLEX_UC_TIMEOUT, CXL_CAPACITY_EVENT, PCIE_CORRECTABLE_ERROR. -/
def Obligations.FlexPortsTrainContainAndAdmit : Prop :=
  ∀ (n : FlexId) (s : State),
    let x := s.flexP n
    (∀ r : FlexTrain, s.flexExists n = true → s.flexRole (n / 4) = 1 → r.width ≠ 0 → r.rate ≠ 0 →
      let up (u : State) : Prop := (u.flexP n).state = 2 ∧ (u.flexP n).rate = min r.rate 6 ∧ (u.flexP n).width = min r.width 16 ∧
        u.fence (32 + n) = {}
      (x.state = 1 → Leaves (.flexPortTraining n r) s up) ∧ (x.state = 3 → x.downAt + s.param 0x0C05 0 * 1000000 ≤ s.time →
        Leaves (.flexRetrain n (some r)) s up)) ∧
    (x.state = 2 → Leaves (.flexUncorrectableFatal n) s fun u => (u.flexP n).state = 3 ∧ (u.fence (32 + n)).st = 2 ∧
      (u.flexP n).contains = satBits 16 (x.contains + 1) ∧ (s.life = .run → u.life = .degraded)) ∧
    (x.state = 2 → Leaves (.pcieCorrectableError n) s fun u => u = s.raise 0x0800 n) ∧
    (∀ (sp : SpId) (h : Place) (a k : Nat) (signed : Bool) (r : OpRec) (q : Serial), s.Runs sp h → s.Loads sp a k signed r (some q) →
      q.Left .ucLoad a → (s.flexUsers n).contains sp.val = true → q.sentAt + s.param 0x0C04 0 * 1000 ≤ s.time →
      Leaves (.flexUcTimeout sp n) s fun u => s.Loaded u sp r (ucValue (BitVec.allOnes 128) k signed)) ∧
    (∀ r : Inbound, r.port = n → x.state = 2 → r.addr < 2 ^ 48 →
      (∀ a : Nat, s.dmaWindow r = some a → r.write = true → r.ep = false → (s.hubWrite a (ofBytes r.data)).1 = true →
        Leaves (.inboundRequest r) s fun u => u.mem = (s.hubWrite a (ofBytes r.data)).2.mem ∧ (u.flexP n).refused = x.refused) ∧
      (s.dmaWindow r = none → Leaves (.inboundRequest r) s fun u => (u.flexP n).refused = satBits 20 (x.refused + 1) ∧ u.mem = s.mem)) ∧
    (∀ (r : Inbound) (j : Fin 2048), r.port = n → x.state = 2 → r.addr = 0x4100000000000000 + 4 * j.val → r.write = true →
      r.data.length = 4 →
      let v := s.param 0x0C03 j
      bitAt v 63 = true → bits v 0 16 = r.rid → bits v 22 9 < 480 →
      Leaves (.inboundRequest r) s fun u => (u.sp (bits v 22 9)).intPending.getLsbD (bits v 31 8) = true) ∧
    (∀ rec : List Nat, x.state = 2 → x.cxl = true → (s.mbox 0).room = true → (s.mbox 0).held = [] →
      Leaves (.cxlCapacityEvent n rec) s fun u => (u.mbox 0).prod = ((s.mbox 0).prod + 1) % 2 ^ 64 ∧
        (tget {} (u.mbox 0).ring ((s.mbox 0).prod % 32)).ty = 4 ∧
        (tget {} (u.mbox 0).ring ((s.mbox 0).prod % 32)).args = n.val :: rec) ∧
    (∀ (line since : Nat) (r : CxlRange) (shared logged : Bool), s.cxlOf (128 * line) = some r →
      s.home.biHeld = [(line, shared, logged, since)] → since + s.biLimit line ≤ s.time → Leaves (.cxlResponseLate line) s fun u => u = s.raise 0x0804 r.port)

/-- R378, R381, R382: the rack ports. A block replayed, because it arrived bad or out of sequence or at the peer's NAK, is counted; too
many in a millisecond narrow the port, or take it down at its narrowest, as do 8 failed replays and 20 us with no block; a port that is
down is fenced and the reel degraded; an enabled port trains; the identity block brings it up for the peer
that it names and holds it down for another.
Commands whose completion, with its effect, it states: RACK_BLOCK_REPLAY, RACK_PORT_DOWN, RACK_RETRAIN, IDENTITY_BLOCK. -/
def Obligations.RackPortsTrainAndFail : Prop :=
  ∀ (k : RackId) (s : State),
    let x := s.rack k
    let n := (if x.msStart + 1000000 ≤ s.time then 0 else x.msReplays) + 1
    let down (u : State) : Prop := (u.rack k).state = 3 ∧ (u.rack k).lost = true ∧ (u.fence (64 + k)).st = 2 ∧
      (s.life = .run → u.life = .degraded)
    (x.state = 2 →
      let counted (u : State) : Prop := (u.rack k).replays = satBits 32 (x.replays + 1) ∧ (u.rack k).msReplays = n ∧
        (u.rack k).state = 2 ∧ (u.rack k).width = x.width
      (∀ ack : Nat, (x.replay ack).tries ≤ 8 → n ≤ s.param 0x0C42 0 → Leaves (.rackBlockReplay ⟨k, .nak ack⟩) s fun u => counted u ∧
        (u.rack k).sent = (x.replay ack).sent) ∧
      (∀ ack : Nat, 8 < (x.replay ack).tries → Leaves (.rackBlockReplay ⟨k, .nak ack⟩) s down) ∧
      (∀ block : List Byte, blockGood (ofBytes block) = false ∨ blockSeq (ofBytes block) ≠ (x.ack + 1) % 2 ^ 20 →
        (n ≤ s.param 0x0C42 0 → Leaves (.rackBlockReplay ⟨k, .bad block⟩) s fun u => counted u ∧ (u.rack k).nak = true) ∧
        (s.param 0x0C42 0 < n → 1 < x.width → bits (s.param 0x0C40 k) 13 3 ≤ x.width / 2 →
          Leaves (.rackBlockReplay ⟨k, .bad block⟩) s fun u => (u.rack k).state = 1 ∧ (u.rack k).width = x.width / 2) ∧
        (s.param 0x0C42 0 < n → x.width ≤ 1 → Leaves (.rackBlockReplay ⟨k, .bad block⟩) s down)) ∧
      (x.upAt + 20000 ≤ s.time → Leaves (.rackPortDown k) s down) ∧
      (∀ id : RackIdentity, id.incarnation ≠ x.peerInc → Leaves (.identityBlock k id) s down)) ∧
    (∀ w : Nat, x.state = 1 ∨ (x.state = 3 ∨ x.state = 5) ∧ x.downAt + s.param 0x0C41 0 * 1000000 ≤ s.time → bitAt (s.param 0x0C40 k) 0 = true → w = 1 ∨ w = 2 ∨ w = 4 →
      bits (s.param 0x0C40 k) 13 3 ≤ w → Leaves (.rackRetrain k (some w)) s fun u => u.rack k = { x with state := 1, width := w }) ∧
    (∀ id : RackIdentity, x.state = 1 → x.width ≠ 0 → id.reel ≠ s.jalif.boot.number →
      (id.reel = bits (s.param 0x0C40 k) 1 12 → Leaves (.identityBlock k id) s fun u => (u.rack k).state = 2 ∧
        (u.rack k).peer = id.reel ∧ (u.rack k).peerInc = id.incarnation % 2 ^ 32 ∧ u.fence (64 + k) = {}) ∧
      (id.reel ≠ bits (s.param 0x0C40 k) 1 12 → Leaves (.identityBlock k id) s fun u => (u.rack k).state = 5))

/-- R383, R384, R386, R387: operations that this reel serves. A message whose tag does not name the port's peer raises event 0x0808; an
OP_READ in its window ends with all its bytes, an OP_WRITE awaits its DATA, an OP_CONTROL its ring, an OP_SENSE answers up to 64
bytes, and one beyond the window ends with code 5; the last DATA writes its bytes and ends the write; ABORT ends it with code 2;
CLEAR, and 3,600 s, free the entry. -/
def Sys2Proof.Machine.RackOperationsAreServed : Prop :=
  ∀ (m : RackMsg) (s : State),
    let waits (u : State) (op : Nat) : Prop := ∃ d, u.dedupOf m.tag = some d ∧ d.done = false ∧ d.op = op ∧ d.attempt = m.attempt ∧
      d.endpoint = m.endpoint ∧ d.total = m.total ∧ d.bytes = 0
    ((s.rack m.port).state = 2 → s.fromPeer m = false →
      let spoofed (type : Nat) (u : State) : Prop := u = (s.rackHeard type true m).raise 0x0808 (32 + m.port)
      Leaves (.opRead m) s (spoofed 1) ∧ Leaves (.opWrite m) s (spoofed 2) ∧ Leaves (.opControl m) s (spoofed 3) ∧
        Leaves (.opSense m) s (spoofed 4) ∧ Leaves (.abort m) s (spoofed 5) ∧ Leaves (.clear m) s (spoofed 8)) ∧
    (∀ c : EndpointCfg, s.Serves m c →
      (m.devaddr + m.total ≤ c.size →
        (c.write = true → m.total ≠ 0 → Leaves (.opWrite m) s fun u => waits u 2 ∧ u.mem = s.mem) ∧
        (∀ vs : List LineVal, c.read = true → (s.hubLines (linesOf (c.base + m.devaddr) m.total)).1 = some vs →
          vs.any (·.poison) = false → Leaves (.opRead m) s fun u => u.ServedAs m.tag 0 m.total ∧ u.mem = s.mem)) ∧
      (c.size < m.devaddr + m.total → (Leaves (.opRead m) s fun u => u.ServedAs m.tag 5 0) ∧
        Leaves (.opWrite m) s fun u => u.ServedAs m.tag 5 0) ∧
      (ringOf (s.param 0x0C44 m.endpoint) = none → Leaves (.opControl m) s fun u => waits u 3) ∧
      (Leaves (.opSense m) s fun u => u.ServedAs m.tag (if 64 < m.total then 1 else 0) (min 64 m.total))) ∧
    (∀ d : Dedup, s.FromPeer m (some d) →
      (d.done = false → d.attempt ≤ m.attempt → Leaves (.abort m) s fun u => u.ServedAs m.tag 2 d.bytes) ∧
      (d.attempt ≤ m.attempt → Leaves (.clear m) s fun u => u.dedupOf m.tag = none) ∧
      (∀ c : EndpointCfg, s.endpointCfg d.endpoint = some c → bits m.tag 36 12 ≠ s.jalif.boot.number → d.done = false → d.op = 2 →
        m.attempt = d.attempt → m.offset + m.data.length ≤ d.total → m.last = true → d.bytes + m.data.length = d.total →
        (s.hubWrite (c.base + d.devaddr + m.offset) (ofBytes m.data)).1 = true → Leaves (.rackData m) s fun u =>
          u.ServedAs m.tag 0 d.total ∧ u.mem = (s.hubWrite (c.base + d.devaddr + m.offset) (ofBytes m.data)).2.mem)) ∧
    (∀ d : Dedup, s.dedupOf m.tag = some d → d.done = true → d.since + 3600000000000 ≤ s.time →
      Leaves (.dedupEntryExpire m.tag) s fun u => u.dedupOf m.tag = none)

/-- R352, R384, R385: operations that this reel asks of another. A RESULT ends its entry with the endpoint's code; RETRY_LATER makes it
wait for the hint, and the end of the wait sends the same attempt again; 3,000 s after its first issue an operation ends
outcome-unknown. -/
def Sys2Proof.Machine.RackOperationsEnd : Prop :=
  ∀ (k : SlotId) (s : State),
    let e := s.entry k
    (∀ m : RackMsg, (s.rack m.port).state = 2 → bits m.tag 36 12 = s.jalif.boot.number → s.rackSlot m = some k.val →
      (m.code = 0 → e.op = 2 → s.segsUncovered e = false → s.streamPoison e = none → Leaves (.result m) s fun u => u.Ended k 0 0x0100) ∧
      (m.code = 2 → e.cancel = true ∨ e.toMem = true ∨ s.streamPoison e = none → Leaves (.result m) s fun u => u.Ended k 1 0x0116) ∧
      (3 ≤ m.code → Leaves (.result m) s fun u => u.Ended k 1 0x0110 ∧ (u.entry k).devstatus = BitVec.ofNat 64 m.code) ∧
      Leaves (.retryLater m) s fun u => u.entry k = { e with waitHint := some (s.time + m.hint * 1000) }) ∧
    (∀ t : Nat, e.waitHint = some t → t ≤ s.time → (e.st = .issued → ((s.rackIssue k false).sendWriteData k).1 = true) → Leaves (.retryLaterWaitEnd k) s fun u => u.entry k = { e with waitHint := none }) ∧
    (s.devType e.device = 3 → e.everIssued = true → e.st = .issued → e.firstIssue + 3000000000000 ≤ s.time →
      Leaves (.rackOperationTimeout k) s fun u => u.Ended k 2 0x0121)

namespace Sys2Proof.Machine

/-- Mailbox mb may send a command now, and Jalif takes it in state t: on a page, the command of a slot whose doorbell was accepted
with this SEQ and CODE, with FLAGS 0, and which Jalif does not work on yet; on the BMC mailbox the message itself, in a slot that is
free (R451 to R454, R456, R459). In HALT only LOG_READ, REEL_INFO and RESET are served (R37). -/
def State.Takes (s t : State) (mb : Mb) (code : Nat) (who : Who) : Prop :=
  mb.page ≤ 49 ∧ mb.slot < 4 ∧ mb.seq < 2 ^ 32 ∧ s.mailboxLive mb.page = true ∧ who.admits mb.page = true ∧
  (s.life = .halt → code = 0x45 ∨ code = 0x02 ∨ code = 0x60) ∧
  (let m := s.mbox mb.page
   let mine : Prop := m.busy.getLsbD mb.slot = true ∧ m.taken.getLsbD mb.slot = false ∧ tget 0 m.bell mb.slot = mb.seq
   (mb.page ≠ 49 ∧ mine ∧ bits (m.header mb.slot) 0 16 = code ∧ bits (m.header mb.slot) 16 16 = 0 ∧ t = s) ∨
   (mb.page = 49 ∧ mine ∧ t = s) ∨
   (mb.page = 49 ∧ m.busy.getLsbD mb.slot = false ∧ tget 0 m.lastSeq mb.slot ≠ mb.seq + 1 ∧ t = s.ring1 49 mb.slot mb.seq))

/-- The slot of mb holds the response CODE, STATUS, SEQ and RESULT: BUSY is clear and RESP_VALID set (R452 to R455). -/
def State.Answered (u : State) (mb : Mb) (code status : Nat) (res : List Nat) : Prop :=
  let m := u.mbox mb.page
  let r := tget {} m.resp mb.slot
  r.code = code ∧ r.status = status ∧ r.seq = mb.seq ∧ r.res = res ∧ m.busy.getLsbD mb.slot = false ∧
    m.respValid.getLsbD mb.slot = true

/-- Jalif works on the command, whose slot stays busy (R453). -/
def State.Works (u : State) (mb : Mb) : Prop :=
  (u.mbox mb.page).busy.getLsbD mb.slot = true ∧ (u.mbox mb.page).taken.getLsbD mb.slot = true

/-- An active record as FAULT_ACK leaves it at time now (R435). -/
def ActRec.acknowledged (r : ActRec) (now : Nat) : ActRec :=
  if now < r.due then { r with acked := true, next := 0, due := 0 } else { r with acked := true }

end Sys2Proof.Machine

/-- R426 to R433: FAULT_EVENT of an assigned source, the reel not being OFF. In the second that is current it counts the event for
its source, moves the counting group of block and INSTANCE as R430 says, and gives the event its base severity, raised by one, to 6
at most, where the group carries. Severity 0 makes no record; 3 and above is always logged, with stamp, owner and DETAIL, and is in
an active record of its source and INSTANCE unless all 1,024 are in use and OVERFLOW is set; 6 drives FATAL_N low.
Commands whose completion, with its effect, it states: FAULT_EVENT. -/
def Obligations.FaultEventsAreCollected : Prop :=
  ∀ (e : EventIn) (s : State), s.life ≠ .off → sourceKnown e.src = true →
    let q := s.rollSecond
    let key := 65536 * (e.src / 256) + e.inst
    let g := groupStep (q.param 0x0E01 (e.src / 256)) (q.param 0x0E02 (e.src / 256)) (s.time / 1000 * 1000) (tget {} q.faults.groups key)
    let sev := min (q.baseSev e.src e.inst + b2n g.carry) 6
    Leaves (.faultEvent e) s fun u =>
      tget 0 u.faults.counts e.src = satBits 64 (tget 0 q.faults.counts e.src + 1) ∧ tget {} u.faults.groups key = g ∧
      (∀ j, j ≠ key → tget {} u.faults.groups j = tget {} q.faults.groups j) ∧
      (sev = 0 → (e.src ≠ 0x0C04 → u.faults.log = q.faults.log) ∧ u.faults.active = q.faults.active) ∧
      (sev < 3 → u.faults.active = q.faults.active) ∧
      (3 ≤ sev → (∃ r rest, u.faults.log = r :: rest ∧ r.src = e.src ∧ r.inst = e.inst ∧ r.sev = sev ∧ r.base = q.baseSev e.src e.inst ∧
          r.carry = g.carry ∧ r.forced = false ∧ r.time = s.time / 1000 * 1000 ∧ r.detail = e.detail ∧ r.spindle = e.spindle ∧
          r.owner = q.ownerOf e.src e.inst e.spindle ∧ r.seq = (q.faults.seq + 1) % 2 ^ 32) ∧
        ((∃ r ∈ u.faults.active, r.src = e.src ∧ r.inst = e.inst) ∨ (1024 ≤ q.faults.active.length ∧ u.faults.overflow = true))) ∧
      (sev = 6 → u.pins.fatalLow = true)

/-- R425, R431, R433, R435, R439: what ends or stops a countdown, and the other commands of the collector. COUNTDOWN_EXPIRE applies the
record's next rung, or raises 0x0C08 where the ladder is exhausted; FAULT_ACK before the expiry stops the countdown; FAULT_CLEAR removes
a record that its mailbox may clear and refuses another; FAULT_FORCE in Service mode collects REPEAT events marked FORCED;
FAULT_CARRY_CLR clears the carry of its group and no other; a comparator of Jalif or of the hub raises its source, Jalif's third within
1 ms the reel-fatal one.
Commands whose completion, with its effect, it states: COUNTDOWN_EXPIRE, FAULT_FORCE, FAULT_CARRY_CLR, JALIF_MISMATCH,
HUB_COMPARE_MISMATCH, FAULT_ACK, FAULT_CLEAR, JALIF_WATCHDOG_EXPIRE. -/
def Obligations.CountdownsAndRecordsAreServed : Prop :=
  ∀ s : State,
    (∀ (seq : Nat) (r : ActRec), s.faults.active.find? (fun r => r.seq == seq) = some r → r.due ≤ s.time →
      (1 ≤ r.next → r.next ≤ 4 → Leaves (.countdownExpire seq) s fun u =>
        ∃ r', u.faults.active.find? (fun r => r.seq == seq) = some r' ∧ r'.rung = r.next ∧ r'.src = r.src ∧ r'.inst = r.inst ∧
          (r.acked = true → r'.next = 0)) ∧
      (r.next = 5 → Leaves (.countdownExpire seq) s fun u =>
        (∃ r', u.faults.active.find? (fun r => r.seq == seq) = some r' ∧ r'.next = 0 ∧ r'.rung = r.rung) ∧
        tget 0 u.faults.counts 0x0C08 = satBits 64 (tget 0 s.faults.counts 0x0C08 + 1))) ∧
    (∀ (t : State) (mb : Mb) (seq : Nat), s.Takes t mb 0x50 .any →
      (t.recordFor (mbPart mb) seq = none → Leaves (.faultAck mb seq) s fun u => u.Answered mb 0x50 0x11 []) ∧
      (∀ r, t.recordFor (mbPart mb) seq = some r → Leaves (.faultAck mb seq) s fun u => u.Answered mb 0x50 0 [] ∧
        u.faults.active = t.faults.active.map fun r => if r.seq = seq then r.acknowledged t.time else r)) ∧
    (∀ (t : State) (mb : Mb) (seq : Nat), s.Takes t mb 0x51 .any →
      (t.recordFor (mbPart mb) seq = none → Leaves (.faultClear mb seq) s fun u => u.Answered mb 0x51 0x11 []) ∧
      (∀ r, t.recordFor (mbPart mb) seq = some r →
        (r.sev ≤ 3 ∨ (r.sev ≤ 5 ∧ mbPart mb = 0) → Leaves (.faultClear mb seq) s fun u => u.Answered mb 0x51 0 [] ∧
          u.faults.active = t.faults.active.filter fun x => x.seq != seq) ∧
        (r.sev = 6 ∨ (4 ≤ r.sev ∧ mbPart mb ≠ 0) → Leaves (.faultClear mb seq) s fun u => u.Answered mb 0x51 2 [] ∧
          u.faults.active = t.faults.active))) ∧
    (∀ w : Word,
      let spin : Option Nat := if bitAt w.toNat 41 ∧ bits w.toNat 32 9 < 480 then some (bits w.toNat 32 9) else none
      let e : EventIn := { src := bits w.toNat 0 16, inst := bits w.toNat 16 16, spindle := spin, detail := 0 }
      (s.faults.service = true → sourceKnown e.src = true → Leaves (.faultForce w) s fun u =>
        u = foldS (List.range (max 1 (bits w.toNat 48 16))) (fun _ (t : State) =>
          State.collect { t with freeCtr := t.freeCtr + 1 } { e with detail := Config.faultDetail e.src t.freeCtr } true 0) s) ∧
      (s.faults.service = false ∨ sourceKnown e.src = false → Leaves (.faultForce w) s fun u => u = s)) ∧
    (∀ w : Word, bitAt w.toNat 24 = false →
      let key := 65536 * bits w.toNat 0 8 + bits w.toNat 8 16
      Leaves (.faultCarryClr w) s fun u =>
        tget {} u.faults.groups key = { tget {} s.faults.groups key with carry := false } ∧
        (∀ j, j ≠ key → tget {} u.faults.groups j = tget {} s.faults.groups j)) ∧
    (∀ w : Word, bitAt w.toNat 24 = true → Leaves (.faultCarryClr w) s fun u =>
      ∀ j, (tget {} u.faults.groups j).count = (tget {} s.faults.groups j).count ∧
        (j / 65536 = bits w.toNat 0 8 → (tget {} u.faults.groups j).carry = false) ∧
        (j / 65536 ≠ bits w.toNat 0 8 → tget {} u.faults.groups j = tget {} s.faults.groups j)) ∧
    (s.life ≠ .off →
      (let recent := (s.jalif.mism.filter fun t => decide (s.time < t + 1000000)) ++ [s.time]
       Leaves .jalifMismatch s fun u => u.jalif.mism = recent ∧
         u = (s.modJalif fun j => { j with mism := recent }).raise (if recent.length < 3 then 0x0C01 else 0x0C02) 0) ∧
      (Leaves .jalifWatchdogExpire s fun u => u = s.raise 0x0C02 0) ∧
      (∀ b : Nat, Leaves (.hubCompareMismatch b) s fun u => u = s.raise 0x0C00 0))

namespace Sys2Proof.Machine

/-- Bytes that a command writes to its buffer are there: the memory is that after a hub agent's write; a payload writes none (R454,
R459). -/
def State.Wrote (u t : State) (mb : Mb) (b : Buf) (xs : List Nat) : Prop :=
  u.mem = if mb.page = 49 then t.mem else (t.hubWrite b.addr xs).2.mem

/-- The whole records of n bytes of which xs has len that fit a command's buffer (R456). -/
def fitCount (mb : Mb) (b : Buf) (n len : Nat) : Nat := if mb.page = 49 then len else min len (b.len / n)

end Sys2Proof.Machine

/-- R438, R440, R441, R443 to R445, R456: snapshots, the logs and Service mode. A request for a snapshot schedules a pulse and names its
slot; a drain that ends completes the slot; a new second starts the rate afresh and reports what was suppressed; FAULT_READ gives a
mailbox the records that its partition owns and LOG_READ gives partition 0 any log, as many whole records as the buffer holds, with the number of
unreadable ones;
SERVICE_ENTER and SERVICE_EXIT begin and end Service mode, which also ends at its limit and then leaves no flip-mask armed and no
injection to make.
Commands whose completion, with its effect, it states: SNAP_TRIGGER, SNAPSHOT_DRAIN_COMPLETE, LOG_SECOND_BOUNDARY,
SERVICE_LIMIT_EXPIRE, FAULT_READ, SERVICE_ENTER, SERVICE_EXIT, SNAPSHOT, LOG_READ. -/
def Obligations.SnapshotsLogsAndServiceMode : Prop :=
  ∀ s : State,
    (∀ w : Word, w.getLsbD 0 = true → s.faults.pulseReq = none → s.faults.draining = none → Leaves (.snapTrigger w) s fun u =>
      u.faults.ctlBusy = true ∧ ∃ r, u.faults.pulseReq = some r ∧ r.trigger = 1 ∧ r.fatal = false) ∧
    (∀ (t : State) (mb : Mb), s.Takes t mb 0x44 .zero → Leaves (.snapshot mb) s fun u =>
      (t.faults.pulseReq = none → t.faults.draining = none → u.Answered mb 0x44 0 [t.faults.nextSlot] ∧
        ∃ r, u.faults.pulseReq = some r ∧ r.trigger = 0) ∧
      (t.faults.pulseReq = none → t.faults.draining.isSome = true → u.Answered mb 0x44 0 [t.faults.nextSlot] ∧
        u.faults.pendSnap.isSome = true ∧ u.faults.merged = satBits 12 (t.faults.merged + 1)) ∧
      (∀ r, t.faults.pulseReq = some r → u.Answered mb 0x44 0 [if r.fatal then 3 else t.faults.nextSlot])) ∧
    (∀ k : Nat, s.faults.draining = some k → Leaves .snapshotDrainComplete s fun u =>
      u.faults.draining = none ∧ u.faults.lastSlot = k ∧ (tget {} u.faults.snaps k).complete = true) ∧
    (s.time / 1000000000 ≠ s.faults.secStart → Leaves .logSecondBoundary s fun u =>
      u.faults.secStart = s.time / 1000000000 ∧ (s.faults.secSup = 0 → u.faults.secCount = 0 ∧ u.faults.log = s.faults.log) ∧
      (s.faults.secSup ≠ 0 → tget 0 u.faults.counts 0x0C06 = satBits 64 (tget 0 s.faults.counts 0x0C06 + 1))) ∧
    (∀ (t : State) (mb : Mb) (buf : Buf) (first count : Nat), s.Takes t mb 0x52 .any → t.bufOk mb buf = true →
      let mine := ((t.logFrom first).filter fun r => r.owner == mbPart mb).take count
      let n := fitCount mb buf 32 mine.length
      let out := ((mine.take n).map fun r => r.bytes t.faults.service).flatten
      (t.bufOut mb buf out).1 = true → Leaves (.faultRead mb buf first count) s fun u =>
        u.Answered mb 0x52 0 [n, if n = 0 then first else (mine[n - 1]?.map fun r => r.seq + 1).getD first] ∧ u.Wrote t mb buf out) ∧
    (∀ (t : State) (mb : Mb) (log slot start count : Nat) (buf : Buf), s.Takes t mb 0x45 .zero →
      log ≤ 2 ∨ (log = 3 ∧ slot ≤ 3) → t.bufOk mb buf = true →
      let es := t.logEntries log slot start count
      let n := fitCount mb buf (logEntrySize log) es.length
      let out := ((es.take n).map fun e => e.2).flatten
      (t.bufOut mb buf out).1 = true → Leaves (.logRead mb log slot start count buf) s fun u =>
        u.Answered mb 0x45 0 [n, ((es.take n).filter fun e => e.1).length] ∧ u.Wrote t mb buf out) ∧
    (∀ (t : State) (mb : Mb), s.Takes t mb 0x40 .zero → Leaves (.serviceEnter mb) s fun u =>
      u.Answered mb 0x40 0 [] ∧ u.faults.service = true ∧ (t.faults.service = false → u.faults.serviceAt = t.time)) ∧
    (let ended (u : State) : Prop := u.faults.service = false ∧ (∀ c, c < 16 → (u.mch c).flipCtl.getLsbD 0 = false) ∧
       (∀ k p, k < 12 → p < 20 → (u.ply k p).inject = 0)
     (∀ (t : State) (mb : Mb), s.Takes t mb 0x41 .zero → Leaves (.serviceExit mb) s fun u => u.Answered mb 0x41 0 [] ∧ ended u) ∧
     (s.faults.service = true → s.faults.serviceAt + s.param 0x0E06 0 * 1000000000 ≤ s.time →
       Leaves .serviceLimitExpire s ended))

/-- R394, R396, R398, R409, R411, R421, R422, R392: the tenant pages and the press and cipher units. A HIST_CAP that fulfils R398 is
held and another leaves none; KEY_CTL moves the key data into its slot and zeroes it, or empties the slot; a recalled context leaves
its holder, once it is fastened; a unit idle for pc.idle_off_us powers off and returns its beads; a mismatch is logged and the third within 1 ms takes
the unit out of service; the entropy source fails and passes; a context that ECC cannot correct is poisoned.
Commands whose completion, with its effect, it states: HIST_CAP, KEY_COMMIT, KEY_CLEAR, PC_UNIT_IDLE_OFF, CONTEXT_RECALL,
UNIT_MISMATCH, ENTROPY_HEALTH_FAIL, CONTEXT_UNCORRECTABLE, ENTROPY_TEST_PASS. -/
def Obligations.TenantPagesAndUnitsAreServed : Prop :=
  ∀ s : State,
    (∀ (pg : PageId) (c : Cap),
      let ok : Prop := capMem c = true ∧ capHasAll c [pLOAD, pSTORE] = true ∧ 65536 ≤ capLen c ∧ s.memRange (capBase c) (capLen c) = true ∧
        inRanges (s.partRanges (s.param 0x0D10 pg)) (capBase c) 65536 = true
      (ok → Leaves (.histCap pg c) s fun u => u.tenant pg = { s.tenant pg with hist := some c }) ∧
      (¬ ok → Leaves (.histCap pg c) s fun u => u.tenant pg = { s.tenant pg with hist := none })) ∧
    (∀ (pg : PageId) (w : Word),
      let k := bits w.toNat 0 1
      let len := bits w.toNat 1 2
      (Leaves (.keyCommit pg w) s fun u => (u.tenant pg).keyData = [] ∧ (u.tenant pg).keySlot k =
          { loaded := true, len := len, words := (List.range (keyWords len)).map fun j => tget 0 (s.tenant pg).keyData j } ∧
        (u.tenant pg).keySlot (1 - k) = (s.tenant pg).keySlot (1 - k) ∧ ∀ j, j ≠ pg → u.tenant j = s.tenant j) ∧
      (Leaves (.keyClear pg w) s fun u => (u.tenant pg).keySlot k = {} ∧ (u.tenant pg).keyData = (s.tenant pg).keyData ∧
        (u.tenant pg).keySlot (1 - k) = (s.tenant pg).keySlot (1 - k) ∧ ∀ j, j ≠ pg → u.tenant j = s.tenant j)) ∧
    (∀ (pg : PageId) (k : Nat),
      let t := s.tenant pg
      ((t.pHolder = some k ∧ t.busyP = none) →
        (s.pcUnfastened k pg = true → Leaves (.contextRecall pg .press) s fun u => u.Fastens k ∧ u.tenant pg = t) ∧
        (s.pcUnfastened k pg = false → Leaves (.contextRecall pg .press) s fun u => u.tenant pg = { t with pHolder := none } ∧
          (u.sk k).pCache.contains pg.val = false)) ∧
      ((t.cHolder = some k ∧ t.busyC = none) →
        (s.pcUnfastened k pg = true → Leaves (.contextRecall pg .cipher) s fun u => u.Fastens k ∧ u.tenant pg = t) ∧
        (s.pcUnfastened k pg = false → Leaves (.contextRecall pg .cipher) s fun u => u.tenant pg = { t with cHolder := none } ∧
          (u.sk k).cCache.contains pg.val = false))) ∧
    (∀ (k : SkId) (c : PcUnit), (s.sk k).pcState (pcNumber c) = 1 →
      (s.pcBusy k (pcNumber c) = 0 →
        (match c with | .press => (s.sk k).pIdleAt | .cipher => (s.sk k).cIdleAt) + s.param 0x0D00 k * 1000 ≤ s.time → ((s.pcPages k c).any fun pg => s.pcUnfastened k pg) = false →
        Leaves (.pcUnitIdleOff k c) s fun u => (u.sk k).pcState (pcNumber c) = 0 ∧ (u.sk k).granted = (s.sk k).granted - pcBeads c ∧
          u.mem = s.mem) ∧
      (let n := (((match c with | .press => (s.sk k).pMis | .cipher => (s.sk k).cMis).filter fun t => decide (s.time < t + 1000000)) ++
          [s.time]).length
       (n < 3 → Leaves (.unitMismatch k c) s fun u => (u.sk k).pcState (pcNumber c) = 1 ∧
         tget 0 u.faults.counts 0x0900 = satBits 64 (tget 0 s.faults.counts 0x0900 + 1)) ∧
       (3 ≤ n → Leaves (.unitMismatch k c) s fun u => (u.sk k).pcState (pcNumber c) = 3 ∧
         (u.sk k).granted = (s.sk k).granted - pcBeads c ∧
         tget 0 u.faults.counts 0x0901 = satBits 64 (tget 0 s.faults.counts 0x0901 + 1)))) ∧
    (∀ k : SkId, s.skeinUp k = true →
      ((s.sk k).entropyOk = true → Leaves (.entropyHealthFail k) s fun u => (u.sk k).entropyOk = false) ∧
      (Leaves (.entropyTestPass k) s fun u => u.sk k = { s.sk k with entropyOk := true })) ∧
    (∀ pg : PageId, Leaves (.contextUncorrectable pg) s fun u => u.tenant pg = { s.tenant pg with poisoned := true } ∧
      tget 0 u.faults.counts 0x0904 = satBits 64 (tget 0 s.faults.counts 0x0904 + 1))

namespace Sys2Proof.Machine

/-- A command on the change set that its opener may give in the states listed, as Jalif takes it (R462, R463). -/
def State.TakesChange (s t : State) (mb : Mb) (code : Nat) (states : List Nat) : Prop :=
  ∃ r : State, s.Takes r mb code .zero ∧ (r.jalif.change.st = 0 ∨ r.jalif.change.opener = mb.page) ∧
    states.contains r.jalif.change.st = true ∧ t = r.modChange fun c => { c with last := r.time }

end Sys2Proof.Machine

/-- R456, R458, R460, R461: NOTICE_CONS moves the consumer index, and held notices enter the ring in order until it is full;
PARAM_READ of a parameter that exists and that the mailbox may read answers WIDTH, its value from OFFSET and the value that waits, and
another has the status of R456; REEL_INFO answers the reel's number, state, versions and generation.
Commands whose completion, with its effect, it states: PARAM_READ, REEL_INFO, NOTICE_CONS. -/
def Obligations.ParametersAndNoticesAreRead : Prop :=
  ∀ s : State,
    (∀ (p : PartId) (w : Word), Leaves (.noticeCons p w) s fun u => (u.mbox p).cons = w.toNat ∧
      ∃ k, (u.mbox p).held = (s.mbox p).held.drop k ∧ (k = 0 → (u.mbox p).prod = (s.mbox p).prod) ∧
        (k ≠ 0 → (u.mbox p).prod = ((s.mbox p).prod + k) % 2 ^ 64) ∧ ((u.mbox p).held = [] ∨ (u.mbox p).room = false)) ∧
    (∀ (t : State) (mb : Mb) (id idx off : Nat), s.Takes t mb 0x01 .any →
      (paramRow id = none → Leaves (.paramRead mb id idx off) s fun u => u.Answered mb 0x01 7 []) ∧
      (∀ r, paramRow id = some r → paramIndexOk r idx = true →
        (t.mayRead (mbPart mb) id idx = false → Leaves (.paramRead mb id idx off) s fun u => u.Answered mb 0x01 2 []) ∧
        (t.mayRead (mbPart mb) id idx = true → (r.service = true → t.faults.service = true) → off = 0 ∨ 8 * off < r.width →
          let v := t.paramValue id idx / 2 ^ (8 * off)
          Leaves (.paramRead mb id idx off) s fun u => u.params = s.params ∧ u.Answered mb 0x01 0
            [r.width, v % 2 ^ 64, v / 2 ^ 64 % 2 ^ 64, v / 2 ^ 128 % 2 ^ 64, v / 2 ^ 192 % 2 ^ 64,
              b2n (t.pendingParam id idx).isSome, (t.pendingParam id idx).getD 0]))) ∧
    (∀ (t : State) (mb : Mb), s.Takes t mb 0x02 .any → Leaves (.reelInfo mb) s fun u =>
      u.Answered mb 0x02 0 [s.jalif.boot.number, s.life.code, s.jalif.fwRun, s.jalif.draftVer, s.jalif.gen])

/-- R462 to R465, R467: the change set. OPEN_CHANGE opens an IDLE set and conflicts with another; STAGE takes a value whose status is
OK and leaves the set as it is for another, and the set is OPEN; CHECK finds the first rule that fails, or makes the set CHECKED and a
filled reel STAGED; COMMIT makes it COMMITTING until every die acknowledges; a die that does not in 1 ms ends the commit; ABORT_CHANGE
and idleness end the set; CHANGE_STATUS and CENSUS report.
Commands whose completion, with its effect, it states: OPEN_CHANGE, STAGE, CHECK, COMMIT, COMMIT_STAGING_ACK,
COMMIT_ACK_TIMEOUT, ABORT_CHANGE, CHANGE_IDLE_EXPIRE, CHANGE_STATUS, CENSUS. -/
def Obligations.ChangeSetIsStagedCheckedAndCommitted : Prop :=
  ∀ s : State,
    (∀ (t : State) (mb : Mb), s.Takes t mb 0x10 .zero →
      (t.jalif.change.st = 0 → Leaves (.openChange mb) s fun u => u.Answered mb 0x10 0 [t.jalif.gen + 1] ∧
        u.jalif.change = { st := 1, opener := mb.page, last := t.time }) ∧
      (t.jalif.change.st ≠ 0 → Leaves (.openChange mb) s fun u => u.Answered mb 0x10 9 [] ∧ u.jalif.change = t.jalif.change)) ∧
    (∀ (t : State) (mb : Mb) (id idx val : Nat), s.TakesChange t mb 0x11 [1, 2] →
      let vs := t.jalif.change.vals
      (t.stageStatus vs id idx val = 0 →
        let ws := stagePut vs { id := id, idx := idx, val := val }
        Leaves (.stage mb id idx val) s fun u => u.Answered mb 0x11 0 [ws.length] ∧ u.params = s.params ∧
          u.jalif.change = { t.jalif.change with st := 1, vals := ws }) ∧
      (t.stageStatus vs id idx val ≠ 0 → Leaves (.stage mb id idx val) s fun u =>
        u.Answered mb 0x11 (t.stageStatus vs id idx val) [vs.length] ∧ u.params = s.params ∧
          u.jalif.change = { t.jalif.change with st := 1 })) ∧
    (∀ (t : State) (mb : Mb), s.TakesChange t mb 0x12 [1, 2] →
      (t.checkSet t.jalif.change.vals = none → Leaves (.check mb) s fun u => u.Answered mb 0x12 0 [0, 0, 0] ∧
        u.jalif.change = { t.jalif.change with st := 2 } ∧
        u.life = if s.life = .fill ∧ s.jalif.fillDone = true then .staged else s.life) ∧
      (∀ rule status id idx : Nat, t.checkSet t.jalif.change.vals = some (rule, status, id, idx) → Leaves (.check mb) s fun u =>
        u.Answered mb 0x12 status [id, idx, rule] ∧ u.jalif.change = { t.jalif.change with st := 1 } ∧ u.life = s.life)) ∧
    (∀ (t : State) (mb : Mb), s.TakesChange t mb 0x13 [2] →
      (t.checkSet t.jalif.change.vals = none → Leaves (.commit mb) s fun u => u.Works mb ∧ u.jalif.change.st = 3 ∧
        u.jalif.change.mb = some mb ∧ u.jalif.change.vals = t.jalif.change.vals ∧ u.params = s.params ∧
        ∀ d, d < 13 → (u.jalif.change.acks.getLsbD d = true ↔
          t.dieUp d = true ∧ ∃ v ∈ t.jalif.change.vals, paramDie v.id v.idx = d)) ∧
      (∀ rule status id idx : Nat, t.checkSet t.jalif.change.vals = some (rule, status, id, idx) → Leaves (.commit mb) s fun u =>
        u.Answered mb 0x13 status [] ∧ u.jalif.change = { t.jalif.change with st := 1 })) ∧
    (∀ d : DieId, s.jalif.change.st = 3 → Leaves (.commitStagingAck d) s fun u => u.jalif.change.acks.getLsbD d = false ∧
      (∀ j, j ≠ d.val → u.jalif.change.acks.getLsbD j = s.jalif.change.acks.getLsbD j) ∧ u.params = s.params) ∧
    (s.jalif.change.st = 3 → s.acksLeft = true → s.jalif.change.last + 1000000 ≤ s.time → Leaves .commitAckTimeout s fun u =>
      u.jalif.change.st = 1 ∧ u.jalif.change.vals = s.jalif.change.vals ∧ u.params = s.params ∧
      tget 0 u.faults.counts 0x0B02 = satBits 64 (tget 0 s.faults.counts 0x0B02 + 1) ∧
      ∀ mb, s.jalif.change.mb = some mb → mb.slot < 4 → u.Answered mb 0x13 0x16 []) ∧
    (∀ (t : State) (mb : Mb), s.TakesChange t mb 0x14 [1, 2] → Leaves (.abortChange mb) s fun u =>
      u.Answered mb 0x14 0 [] ∧ u.jalif.change = {} ∧ u.params = s.params) ∧
    (s.jalif.change.st = 1 ∨ s.jalif.change.st = 2 → s.jalif.change.last + s.param 0x0F01 0 * 1000000000 ≤ s.time →
      Leaves .changeIdleExpire s fun u => u.jalif.change = {} ∧ u.params = s.params ∧
        tget 0 u.faults.counts 0x0B01 = satBits 64 (tget 0 s.faults.counts 0x0B01 + 1)) ∧
    (∀ (t : State) (mb : Mb), s.Takes t mb 0x15 .zero → Leaves (.changeStatus mb) s fun u =>
      u.Answered mb 0x15 0 [t.jalif.change.st, t.jalif.change.vals.length, t.jalif.change.opener]) ∧
    (∀ (t : State) (mb : Mb), s.Takes t mb 0x18 .zero → t.jalif.change.st ≠ 3 → Leaves (.census mb) s fun u =>
      u.Answered mb 0x18 0 [t.reelDigest, t.rackDigest, t.jalif.gen, t.censusDiff] ∧
      (t.censusDiff ≠ 0 → tget 0 u.faults.counts 0x0B03 = satBits 64 (tget 0 s.faults.counts 0x0B03 + 1)))

/-- R35, R320, R440, R465, R466, R468: what a tally pulse does, and what follows it. At least 1 µs after the pulse before, a commit whose
dies have acknowledged takes effect as a whole, under the next generation, and its COMMIT is answered; else a retirement has its pulse;
with neither, a scheduled snapshot is latched and its drain begins. PARTITION_RELEASE starts the partition's spindles from its start
record; RETIRE_PAGE lists the page for its pulse.
Commands whose completion, with its effect, it states: RETIRE_PAGE, TALLY_PULSE, PARTITION_RELEASE. -/
def Obligations.TallyPulsesApplyChanges : Prop :=
  ∀ s : State,
    (s.life ≠ .off → s.jalif.nextPulse ≤ s.time →
      (s.commitDue = true → Leaves .tallyPulse s fun u => u.jalif.gen = (s.jalif.gen + 1) % 2 ^ 64 ∧ u.jalif.change = {} ∧
        u.params = (s.withStaged (s.jalif.change.vals.filter fun v => !atReset v.id)).params ∧ u.jalif.nextPulse = s.time + 1000 ∧
        u.life ≠ .staged ∧ ∀ mb, s.jalif.change.mb = some mb → mb.slot < 4 → u.Answered mb 0x13 0 [(s.jalif.gen + 1) % 2 ^ 64, s.time]) ∧
      (∀ pg rest, s.commitDue = false → s.jalif.retireq = pg :: rest → s.jalif.change.st ≠ 3 ∨ 0 < s.jalif.change.ahead →
        Leaves .tallyPulse s fun u => u.jalif.gen = (s.jalif.gen + 1) % 2 ^ 64 ∧ u.jalif.retireq = rest ∧ u.params = s.params) ∧
      (∀ r, s.faults.pulseReq = some r → s.commitDue = false → s.jalif.retireq = [] →
        let k := if r.fatal then 3 else s.faults.nextSlot
        Leaves .tallyPulse s fun u => u.faults.pulseReq = none ∧ u.faults.draining = some k ∧
          (tget {} u.faults.snaps k).time = s.time ∧ (tget {} u.faults.snaps k).trigger = r.trigger ∧
          (tget {} u.faults.snaps k).params = s.params ∧ u.jalif.gen = s.jalif.gen)) ∧
    (∀ (p : PartId) (r : StartRec) (t : State), s.running = true → s.jalif.toRelease.contains p.val = true →
      (p.val = 0 ∨ s.jalif.toRelease.contains 0 = false) → s.readStart p = (some (some r), t) →
      Leaves (.partitionRelease p) s fun u => u.jalif.toRelease.contains p.val = false ∧
        ∀ i ∈ t.spindlesOf p, (t.sp i).released = false → (t.sp i).frozen = false → (t.sp i).noSave = false →
          (u.sp i).released = true ∧ (u.sp i).ba = BitVec.ofNat 64 r.ba ∧ (u.sp i).arch.codecap = r.code ∧
          (∀ k, (u.sp i).arch.getC k = (r.caps[k]?).getD Cap.zero) ∧ (∀ k, (u.sp i).arch.getG k = 0)) ∧
    (∀ (t : State) (mb : Mb) (addr : Nat), s.Takes t mb 0x48 .zero →
      (t.installed ≤ addr → Leaves (.retirePage mb addr) s fun u => u.Answered mb 0x48 0x0B []) ∧
      (addr < t.installed → t.noRetired (4096 * (addr / 4096)) 4096 = true →
        (t.mcs.retired.any fun e => e.page == addr / 4096) = false → t.mcs.retired.length < 16384 →
        Leaves (.retirePage mb addr) s fun u => u.Works mb ∧ u.jalif.retireq = t.jalif.retireq ++ [addr / 4096] ∧ u.mem = s.mem))

/-- R31, R142, R143, R165, R166, R317, R469, R470: the mailbox commands on spindles, plies and channels, and FREEZE and THAW. A spindle
that kept its state restarts, from its save slot where asked; a released one starts afresh from its partition's start record, or where
Jalif places it; a move takes its place and is answered later; tests and injections reach a comparing ply; a lost channel waits for its
training; a freeze reaches every page and spindle of its target, is complete when all have stopped, and a thaw lets them run.
Commands whose completion, with its effect, it states: FREEZE, FREEZE_COMPLETE, THAW, SPINDLE_RESTART, SPINDLE_RELEASE,
SPINDLE_SLOT_READ, SPINDLE_MOVE, CMP_TEST, CMP_INJECT, MEM_CHANNEL_RETRAIN. -/
def Obligations.SpindleAndFreezeCommandsAreServed : Prop :=
  ∀ s t : State,
    (∀ (mb : Mb) (sp : Nat) (slot : Bool), s.Takes t mb 0x30 .zero →
      let x := t.sp sp
      (t.spindleKnown sp = false → Leaves (.spindleRestart mb sp slot) s fun u => u.Answered mb 0x30 0x11 []) ∧
      (t.spindleKnown sp = true → x.retained = false → Leaves (.spindleRestart mb sp slot) s fun u => u.Answered mb 0x30 0x0A []) ∧
      (t.spindleKnown sp = true → x.retained = true →
        (slot = false → Leaves (.spindleRestart mb sp slot) s fun u => u.Answered mb 0x30 0 [] ∧ (u.sp sp).stopped = 0 ∧
          (u.sp sp).arch = x.arch ∧ (u.sp sp).ba = x.ba) ∧
        (∀ v, slot = true → slotBusy x = true → x.slot = some v → Leaves (.spindleRestart mb sp slot) s fun u =>
          u.Answered mb 0x30 0 [] ∧ (u.sp sp).stopped = 0 ∧ (u.sp sp).slot = none ∧ (u.sp sp).ba = v.savedBa ∧
          (u.sp sp).arch.g = v.arch.g ∧ (u.sp sp).arch.c = v.arch.c))) ∧
    (∀ (mb : Mb) (sp p : Nat), s.Takes t mb 0x31 .zero → t.partOf sp = some p → t.spindleKnown sp = true →
      let x := t.sp sp
      (x.suspended = true → Leaves (.spindleRelease mb sp) s fun u => u.Answered mb 0x31 0 [] ∧ (u.sp sp).host = none ∧
        (u.sp sp).released = true ∧ (u.sp sp).suspended = true ∧ (u.sp sp).stopped = 0) ∧
      (∀ (h : Place) (r : StartRec) (v : State), x.suspended = false → x.host = some h → (t.ply h.skein h.ply).state ≠ 3 →
        t.readStart p = (some (some r), v) → Leaves (.spindleRelease mb sp) s fun u => u.Answered mb 0x31 0 [] ∧
          (u.sp sp).released = true ∧ (u.sp sp).stopped = 0 ∧ (u.sp sp).ba = BitVec.ofNat 64 r.ba ∧
          (u.sp sp).arch.codecap = r.code ∧ (∀ k, (u.sp sp).arch.getC k = (r.caps[k]?).getD Cap.zero) ∧
          (u.sp sp).frozen = x.frozen)) ∧
    (∀ (mb : Mb) (sp : Nat) (buf : Buf), s.Takes t mb 0x32 .zero → t.spindleKnown sp = true → t.bufOk mb buf = true →
      ((t.sp sp).slot = none → Leaves (.spindleSlotRead mb sp buf) s fun u => u.Answered mb 0x32 0 [0]) ∧
      (∀ v, (t.sp sp).slot = some v →
        let out := if mb.page = 49 then v.bytes (t.savedMode (t.sp sp) v) else (v.bytes (t.savedMode (t.sp sp) v)).take buf.len
        (t.bufOut mb buf out).1 = true → Leaves (.spindleSlotRead mb sp buf) s fun u =>
          u.Answered mb 0x32 0 [1] ∧ u.Wrote t mb buf out)) ∧
    (∀ (mb : Mb) (sp sk : Nat) (dest : Option (Nat × Nat)) (d : Place), s.Takes t mb 0x33 .zero → sk < 12 →
      (dest.isSome = true → t.faults.service = true) → (t.sp sp).host.isSome = true → (t.sp sp).moving = false →
      (t.sp sp).suspended = false → t.skeinUp sk = true →
      (t.hosted sk).length + (t.targets.filter fun d => d.skein == sk).length < 40 → t.movePlace sk dest = some d →
      Leaves (.spindleMove mb sp sk dest) s fun u => u.Works mb ∧ (u.sp sp).moving = true ∧ (u.sp sp).target = some d ∧
        (u.sp sp).moveMb = some (mbIndex mb) ∧ (u.sp sp).host = (t.sp sp).host) ∧
    (∀ (mb : Mb) (sp : Nat) (h : Place), t.faults.service = true → (t.sp sp).host = some h → (t.sk h.skein).split = false →
      (t.ply h.skein h.ply).state = 0 →
      let y := t.ply h.skein h.ply
      (s.Takes t mb 0x42 .zero → y.testPend = false → Leaves (.cmpTest mb sp) s fun u => u.Works mb ∧
        u.ply h.skein h.ply = { y with testPend := true, testFor := some sp, testMb := some (mbIndex mb) }) ∧
      (∀ group bit count : Nat, s.Takes t mb 0x43 .zero → group ≤ 63 → bit < 256 → 1 ≤ count → count ≤ 15 →
        Leaves (.cmpInject mb sp group bit count) s fun u => u.Answered mb 0x43 0 [] ∧
          u.ply h.skein h.ply = { y with inject := count, injectGroup := group, injectBit := bit })) ∧
    (∀ (mb : Mb) (ch : Nat), s.Takes t mb 0x49 .zero → ch < 16 → (t.mch ch).state = 2 → (t.mch ch).retrain = none →
      Leaves (.memChannelRetrain mb ch) s fun u => u.Works mb ∧ u.mch ch = { t.mch ch with retrain := some (mbIndex mb) }) ∧
    (∀ (mb : Mb) (n : Nat), s.Takes t mb 0x20 .zero →
      (∀ scope, scopeOk scope n = true → t.freezeTarget scope n = true → t.targetFrozen scope n = true →
        Leaves (.freeze mb scope n) s fun u => u.Answered mb 0x20 0 []) ∧
      (n ≤ 48 → t.freezeTarget 0 n = true → t.targetFrozen 0 n = false → t.freezing 0 n = false →
        Leaves (.freeze mb 0 n) s fun u => u.Works mb ∧ u.freezing 0 n = true ∧ tget 0 u.jalif.partState n = 2 ∧
          ∀ i ∈ t.spindlesOf n, (u.sp i).frozen = true ∨ (u.sp i).freezeReq = true) ∧
      (n < 4096 → t.freezeTarget 1 n = true → t.targetFrozen 1 n = false → t.freezing 1 n = false →
        Leaves (.freeze mb 1 n) s fun u => u.Works mb ∧ u.freezing 1 n = true ∧ (u.tenant n).freezing = true ∧
          ∀ k, (t.entry k).st = .queued → (t.entry k).tenant = n → (u.entry k).st = .frozen)) ∧
    (∀ n : Nat,
      (s.freezing 1 n = true → s.pageStable n = true → Leaves (.freezeComplete 1 n) s fun u =>
        u.freezing 1 n = false ∧ (u.tenant n).frozen = true ∧ (u.tenant n).freezing = false) ∧
      (s.freezing 0 n = true → (foldS (s.spindlesOf n) (fun i (v : State) => v.park i) s).freezeReady 0 n = true →
        Leaves (.freezeComplete 0 n) s fun u => u.freezing 0 n = false ∧ tget 0 u.jalif.partState n = 3)) ∧
    (∀ (mb : Mb) (n : Nat), s.Takes t mb 0x21 .zero →
      (n ≤ 48 → t.freezing 0 n = true ∨ t.targetFrozen 0 n = true → Leaves (.thaw mb 0 n) s fun u => u.Answered mb 0x21 0 [] ∧
        u.freezing 0 n = false ∧ tget 0 u.jalif.partState n = 1 ∧
        ∀ i ∈ t.spindlesOf n, (u.sp i).frozen = false ∧ (u.sp i).freezeReq = false) ∧
      (n < 4096 → t.freezing 1 n = true ∨ t.targetFrozen 1 n = true → Leaves (.thaw mb 1 n) s fun u => u.Answered mb 0x21 0 [] ∧
        u.freezing 1 n = false ∧ (u.tenant n).frozen = false ∧ (u.tenant n).freezing = false) ∧
      (∀ scope, scopeOk scope n = true → t.freezing scope n = false → t.targetFrozen scope n = false →
        Leaves (.thaw mb scope n) s fun u => u.Answered mb 0x21 0x10 []))

/-- R361, R416 to R418, R471: migration. A key is set and cleared; a save writes the sealed image of a frozen spindle, page, ledger or
range into the buffer, takes the next COUNTER, and gives up what it saved where RELEASE or an export asks; a restore of an image that
verifies loads what it holds, frozen, and notes it; an image that fails its checks is answered with their status.
Commands whose completion, with its effect, it states: SPINDLE_SAVE, SPINDLE_RESTORE, TENANT_SAVE, TENANT_RESTORE,
CHANNEL_EXPORT, CHANNEL_IMPORT, TAGS_SAVE, TAGS_RESTORE, MIGRATION_KEY_SET, MIGRATION_KEY_CLEAR. -/
def Obligations.MigrationSavesAndRestores : Prop :=
  ∀ s t : State,
    (∀ (mb : Mb) (key : Nat) (val : BitVec 256), s.Takes t mb 0x2A .zero → key ≤ 7 →
      let k : KeySlot := { loaded := true, len := 2, words := (List.range 4).map fun j => (val >>> (64 * j)).setWidth 64 }
      Leaves (.migrationKeySet mb key val) s fun u => u.Answered mb 0x2A 0 [kcvOf k.bytes] ∧ u.migKey key = k ∧
        ∀ j, j ≠ key → u.migKey j = s.migKey j) ∧
    (∀ (mb : Mb) (key : Nat), s.Takes t mb 0x2B .zero → key ≤ 7 → Leaves (.migrationKeyClear mb key) s fun u =>
      u.Answered mb 0x2B 0 [] ∧ u.migKey key = {} ∧ ∀ j, j ≠ key → u.migKey j = s.migKey j) ∧
    (∀ (mb : Mb) (sp key : Nat) (buf : Buf) (rel : Bool), s.Takes t mb 0x22 .zero → sp < 480 → key ≤ 7 →
      let x := t.sp sp
      let t1 := (t.freeBytes 512).2
      let v := x.image 0 { ba := x.ba, resume := x.longOn || x.resume }
      let img := t1.seal (t1.nextHead 0x54505350 sp 0 key (b2n rel) 0) (spindleBody v (t.savedMode x) x.slot (t.freeBytes 512).1)
      x.frozen = true → x.noSave = false → (t.migKey key).loaded = true → t.bufOk mb buf = true → roomFor mb buf 16384 = true →
      (t1.bufOut mb buf img).1 = true → Leaves (.spindleSave mb sp key buf rel) s fun u => u.Answered mb 0x22 0 [16384] ∧
        u.Wrote t1 mb buf img ∧ u.jalif.imgCount = s.jalif.imgCount + 1 ∧
        (rel = false → (u.sp sp).arch = x.arch ∧ (u.sp sp).ba = x.ba) ∧
        (rel = true → (u.sp sp).arch = {} ∧ (u.sp sp).frozen = true ∧ (u.sp sp).noSave = true)) ∧
    (∀ (mb : Mb) (sp : Nat) (buf : Buf) (xs : List Nat) (v : State), s.Takes t mb 0x23 .zero → sp < 480 → (t.sp sp).frozen = true →
      (t.sp sp).noSave = true ∨ bits (t.param 0x0100 ((t.partOf sp).getD 63)) 0 2 = 2 → t.bufOk mb buf = true →
      16384 ≤ bufSize mb buf → t.bufIn mb buf 16384 = (some (xs, false), v) →
      (∀ st, v.openImage xs (some 0x54505350) 0x14 true = .bad st → Leaves (.spindleRestore mb sp buf) s fun u =>
        u.Answered mb 0x23 st [] ∧ (u.sp sp).arch = (v.sp sp).arch) ∧
      (∀ h body, v.openImage xs (some 0x54505350) 0x14 true = .good h body →
        let r := if v.ownImage h then tget {} v.jalif.imgS h.counter else foreignSpindle body
        let q := v.loadSpindle sp ((t.partOf sp).getD 63) body r
        Leaves (.spindleRestore mb sp buf) s fun u => u.Answered mb 0x23 0 [q.1] ∧ (u.sp sp).arch = (q.2.sp sp).arch ∧
          (u.sp sp).ba = (q.2.sp sp).ba ∧ (u.sp sp).frozen = true ∧ (u.sp sp).released = true ∧ (u.sp sp).stopped = 0 ∧
          u.jalif.restored.contains (h.reel, h.counter) = true)) ∧
    (∀ (mb : Mb) (c : Cap) (buf : Buf) (rel : Bool), s.Takes t mb 0x24 .zero →
      let pg := capOtype c
      let x := t.tenant pg
      let t1 := (t.freeBytes 1968).2
      let fl := b2n rel + 2 * b2n (x.press.st == 1 || x.press.st == 2) + 4 * b2n (x.cipher.st != 0) + 8 * b2n x.hist.isSome
      let img := t1.seal (t1.nextHead 0x54504358 pg x.gen (t.param 0x0D02 0) fl 0) (t.freeBytes 1968).1
      freezeCap c = true → x.frozen = true → (t.migKey (t.param 0x0D02 0)).loaded = true → t.bufOk mb buf = true →
      roomFor mb buf 2048 = true → t.pageUnfastened pg = none → (t1.bufOut mb buf img).1 = true →
      Leaves (.tenantSave mb c buf rel) s fun u => u.Answered mb 0x24 0 [] ∧ u.Wrote t1 mb buf img ∧
        u.jalif.imgCount = s.jalif.imgCount + 1 ∧ (rel = false → u.tenant pg = x) ∧
        (rel = true → (u.tenant pg).gen = (x.gen + 1) % 2 ^ 32 ∧ (u.tenant pg).keys = [] ∧ (u.tenant pg).frozen = true)) ∧
    (∀ (mb : Mb) (c : Cap) (buf : Buf) (xs : List Nat) (v : State), s.Takes t mb 0x25 .zero →
      let pg := capOtype c
      let x := t.tenant pg
      freezeCap c = true → x.frozen = true → x.press.st ≠ 1 → x.press.st ≠ 2 → x.cipher.st = 0 → t.pagePart pg ≠ 0 →
      t.bufOk mb buf = true → 2048 ≤ bufSize mb buf → t.bufIn mb buf 2048 = (some (xs, false), v) →
      (∀ st, v.openImage xs (some 0x54504358) 0x14 true = .bad st → Leaves (.tenantRestore mb c buf) s fun u =>
        u.Answered mb 0x25 st [] ∧ u.tenant pg = v.tenant pg) ∧
      (∀ h body, v.openImage xs (some 0x54504358) 0x14 true = .good h body →
        let r := if v.ownImage h then tget {} v.jalif.imgT h.counter else foreignTenant h body
        Leaves (.tenantRestore mb c buf) s fun u => u.Answered mb 0x25 0 [] ∧ (u.tenant pg).gen = h.gen ∧
          (u.tenant pg).keys = r.keys ∧ (u.tenant pg).pressCfg = r.pressCfg ∧ (u.tenant pg).cipherCfg = r.cipherCfg ∧
          (u.tenant pg).cipher = r.cipher ∧ (u.tenant pg).hist = none ∧ (u.tenant pg).frozen = true ∧
          u.jalif.restored.contains (h.reel, h.counter) = true)) ∧
    (∀ (mb : Mb) (pg : Nat) (buf : Buf), s.Takes t mb 0x26 .zero → pg < 4096 →
      let es := t.exported pg
      let key := t.param 0x0D02 0
      let img := t.seal (t.nextHead 0x54504C47 pg 0 key 0 es.length) ((es.map fun e => e.2.unresolved).flatMap fun e => leBytes 256 e.image)
      (t.tenant pg).frozen = true → (t.migKey key).loaded = true → t.bufOk mb buf = true →
      roomFor mb buf (80 + 256 * es.length) = true → (t.bufOut mb buf img).1 = true →
      Leaves (.channelExport mb pg buf) s fun u => u.Answered mb 0x26 0 [es.length] ∧ u.Wrote t mb buf img ∧
        u.jalif.imgCount = s.jalif.imgCount + 1 ∧ ∀ e ∈ es, (u.entry e.1).st = .free) ∧
    (∀ (mb : Mb) (pg : Nat) (buf : Buf) (hd xs : List Nat) (b : Bool) (v w : State), s.Takes t mb 0x27 .zero → pg < 4096 →
      (t.tenant pg).frozen = true → t.bufOk mb buf = true → 80 ≤ bufSize mb buf → t.bufIn mb buf 64 = (some (hd, b), v) →
      80 + 256 * fieldAt hd 24 4 ≤ bufSize mb buf → v.bufIn mb buf (80 + 256 * fieldAt hd 24 4) = (some (xs, false), w) →
      (∀ st, w.openImage xs (some 0x54504C47) 0x12 false = .bad st → Leaves (.channelImport mb pg buf) s fun u =>
        u.Answered mb 0x27 st [] ∧ u.chan.ledger = w.chan.ledger) ∧
      (∀ h body, w.openImage xs (some 0x54504C47) 0x12 false = .good h body →
        let es := if w.ownImage h then tget [] w.jalif.imgE h.counter else (List.range h.count).map (foreignEntry body)
        let m := es.foldl (fun (m : Importing) e => m.one pg e) { s := w }
        (m.waits = false → Leaves (.channelImport mb pg buf) s fun u => u.Answered mb 0x27 0 [m.entered, m.failed] ∧
          u.chan.ledger = m.s.chan.ledger) ∧
        (∀ (e : Entry) (k : Nat), es = [e] → w.freeSlot = some k →
          (e.st = .terminal → Leaves (.channelImport mb pg buf) s fun u => u.Answered mb 0x27 0 [1, 0] ∧
            (u.entry k).st = .terminal ∧ (u.entry k).token = e.token ∧ (u.entry k).tag = e.tag) ∧
          (e.st = .frozen → w.importFails pg e = 0 → Leaves (.channelImport mb pg buf) s fun u => u.Answered mb 0x27 0 [1, 0] ∧
            (u.entry k).st = .frozen ∧ (u.entry k).token = e.token)))) ∧
    (∀ (mb : Mb) (addr len key : Nat) (buf : Buf) (gs : List (Nat × Cap)) (v : State), s.Takes t mb 0x28 .zero → key ≤ 7 →
      (t.tagRange addr len).isSome = true → (t.migKey key).loaded = true → t.bufOk mb buf = true →
      t.tagged addr len = (some gs, v) →
      let v1 := (v.freeBytes 4).2
      let img := v1.seal (v1.nextHead (leNat (v.freeBytes 4).1) 0 0 key 0 gs.length)
        (gs.flatMap fun e => leBytes 8 e.1 ++ leBytes 16 e.2.bits.toNat)
      roomFor mb buf (80 + 24 * gs.length) = true → (v1.bufOut mb buf img).1 = true →
      Leaves (.tagsSave mb addr len key buf) s fun u => u.Answered mb 0x28 0 [80 + 24 * gs.length] ∧ u.Wrote v1 mb buf img ∧
        u.jalif.imgCount = v.jalif.imgCount + 1) ∧
    (∀ (mb : Mb) (addr len p : Nat) (buf : Buf) (hd xs : List Nat) (b : Bool) (v w : State), s.Takes t mb 0x29 .zero →
      t.tagRange addr len = some p → t.bufOk mb buf = true → 80 ≤ bufSize mb buf → t.bufIn mb buf 64 = (some (hd, b), v) →
      80 + 24 * fieldAt hd 24 4 ≤ bufSize mb buf → v.bufIn mb buf (80 + 24 * fieldAt hd 24 4) = (some (xs, false), w) →
      ∀ h body, w.openImage xs none 0x12 true = .good h body →
        let rs := (List.range h.count).map fun k =>
          (fieldAt body (24 * k) 8, (⟨BitVec.ofNat 128 (fieldAt body (24 * k + 8) 16), true⟩ : Cap))
        let inside := rs.filter fun e => decide (addr ≤ e.1 ∧ e.1 < addr + len)
        ∀ vs z, w.hubLines ((inside.map fun e => lineOf e.1).eraseDups) = (some vs, z) →
          let q := rs.foldl (fun (q : Nat × State) e => let r := q.2.retag p addr len e.1 e.2; (q.1 + b2n r.1, r.2)) (0, z)
          Leaves (.tagsRestore mb addr len buf) s fun u => u.Answered mb 0x29 0 [q.1, h.count - q.1] ∧ u.mem = q.2.mem ∧
            u.jalif.restored.contains (h.reel, h.counter) = true)

namespace Sys2Proof.Machine

/-- The boot record in force at a boot is read (R473): its owner key is the fused one, and the record or its copy reads back. -/
def State.RecordGood (s : State) (b : BootIn) (r : Boot) : Prop :=
  r = s.jalif.bootNew.getD s.jalif.boot ∧ s.jalif.fused = some (Config.sha384 r.ownerKey) ∧
    ((s.jalif.recOk = true ∧ b.recGood = true) ∨ (s.jalif.copyOk = true ∧ b.copyGood = true)) ∧ r.refused = false

/-- What boot steps 2 to 8 leave when they begin in s with the findings b, for the reset record v (R33, R449, R495, R500, R501): ROM or
HALT, one incarnation more, MRAM's keys as they were; with every finding good and bank n the one that runs, step 8 is reached under that
bank's versions. -/
def State.Boots (s u : State) (b : BootIn) (v : Nat) : Prop :=
  (u.life = .rom ∨ u.life = .halt) ∧ u.jalif.incarnation = (s.jalif.incarnation + 1) % 2 ^ 32 ∧ u.jalif.keys = s.jalif.keys ∧
  u.power.hubResetLast = (if s.power.powerOn = true then 3 else v) ∧ u.power.powerOn = false ∧
  (b.selfTestOk = false → u.life = .halt) ∧
  (∀ (r : Boot) (n : Nat) (i : BankImage) (one : Bool), s.RecordGood b r → b.recovery = false → b.selfTestOk = true →
    b.pgCore.getLsbD 12 = true → b.regMissing &&& 0x3FF000 = 0 → chooseBank s.jalif.bankA s.jalif.bankB = some (n, i, one) →
    i.draftSigOk = true → b.refA = true ∨ b.refB = true → b.hubPllOk = true →
    u.life = .rom ∧ u.jalif.bootOk = true ∧ u.jalif.boot = r ∧ u.jalif.fwBank = n ∧ u.jalif.fwRun = i.version % 2 ^ 32 ∧
      u.jalif.draftVer = i.draft.version % 2 ^ 32 ∧
      ∀ k, k < 12 → b.skeinPllOk.getLsbD k = false ∨ b.pgCore.getLsbD k = false → (u.sk k).lost = true)

end Sys2Proof.Machine

/-- R33, R362, R457, R492, R495: the resets of the reel. RESET stops submissions and waits for the ledger; the drain ends with the answer,
what is left in the reset log; 1 ms later the reset begins, a warm one with memory kept; PWR_OK or RESET_N low takes the package OFF, and
their rise begins a boot; a rise of VDD_AON starts the timebase.
Commands whose completion, with its effect, it states: RESET_DRAIN_EXPIRE, RESET_REEL_COLD, RESET_REEL_WARM, PWR_OK_FALL,
RESET_N_FALL, RESET_N_RISE, VDD_AON_RISE, PWR_OK_RISE, RESET_BEGIN. -/
def Obligations.ResetsFollowTheirSequence : Prop :=
  ∀ s t : State,
    (∀ mb : Mb, s.Takes t mb 0x60 .zero →
      (t.life = .run ∨ t.life = .degraded ∨ t.life = .halt → t.jalif.drainMb = none → t.jalif.resetReq = none →
        Leaves (.resetReelCold mb) s fun u => u.Works mb ∧ u.chan.accepting = false ∧ u.jalif.drainMb = some mb ∧ u.jalif.drainKind = 0 ∧
          u.jalif.drainAt = s.time) ∧
      (t.jalif.drainMb.isSome = true ∨ t.jalif.resetReq.isSome = true → Leaves (.resetReelCold mb) s fun u => u.Answered mb 0x60 0x0A [])) ∧
    (∀ mb : Mb, s.Takes t mb 0x60 .zero →
      (t.life = .run ∨ t.life = .degraded ∨ t.life = .halt → t.jalif.drainMb = none → t.jalif.resetReq = none →
        Leaves (.resetReelWarm mb) s fun u => u.Works mb ∧ u.chan.accepting = false ∧ u.jalif.drainMb = some mb ∧ u.jalif.drainKind = 1 ∧
          u.jalif.drainAt = s.time) ∧
      (t.jalif.drainMb.isSome = true ∨ t.jalif.resetReq.isSome = true → Leaves (.resetReelWarm mb) s fun u => u.Answered mb 0x60 0x0A [])) ∧
    (∀ mb : Mb, s.jalif.drainMb = some mb → mb.slot < 4 →
      (s.chan.ledger.any fun e => e.2.st != .free) = false ∨ s.jalif.drainAt + s.param 0x0B0A 0 * 1000000 ≤ s.time →
      Leaves .resetDrainExpire s fun u => u.Answered mb 0x60 0 [] ∧ u.jalif.drainMb = none ∧
        u.jalif.resetReq = some s.jalif.drainKind ∧ u.jalif.drainAt = s.time ∧
        u.jalif.resetLog = (s.chan.ledger.filter fun e => e.2.st != .free).map fun e =>
          { tag := e.2.tag, token := e.2.token, tenant := e.2.tenant, st := e.2.st }) ∧
    (∀ (b : BootIn) (kind : Nat), s.jalif.resetReq = some kind → s.life ≠ .off → s.jalif.drainAt + 1000000 ≤ s.time →
      Leaves (.resetBegin b) s fun u => s.Boots u b kind ∧ u.mem = if kind = 1 then s.mem else {}) ∧
    (s.life ≠ .off →
      (Leaves .pwrOkFall s fun u => u.life = .off ∧ u.pins.pwrOk = false ∧ u.pins.tripLow = false ∧ u.mem = {} ∧
        u.jalif.keys = s.jalif.keys ∧ u.jalif.resetLog = s.jalif.resetLog ∧ u.time = s.time) ∧
      (Leaves .resetNFall s fun u => u.life = .off ∧ u.pins.resetN = false ∧ u.mem = {} ∧ u.jalif.keys = s.jalif.keys ∧
        u.time = s.time)) ∧
    (∀ b : BootIn, s.life = .off →
      (s.pins.pwrOk = true → s.pins.resetN = false → Leaves (.resetNRise b) s fun u => u.pins.resetN = true ∧ s.Boots u b 16) ∧
      (s.pins.resetN = true → s.pins.pwrOk = false → Leaves (.pwrOkRise b) s fun u => u.pins.pwrOk = true ∧ s.Boots u b 32) ∧
      (s.pins.pwrOk = false → Leaves (.resetNRise b) s fun u => u.pins.resetN = true ∧ u.life = .off) ∧
      (s.pins.resetN = false → Leaves (.pwrOkRise b) s fun u => u.pins.pwrOk = true ∧ u.life = .off)) ∧
    (s.life = .off → Leaves .vddAonRise s fun u => u.time = 0 ∧ u.power.powerOn = true ∧ u.life = .off)

/-- R33, R34, R298 to R302, R310, R473, R497: boot steps 9 to 12. DDR training takes a reel whose quad 0 is populated to FILL, with each
good channel in service or lost; FILL zeroes memory at a cold reset; its completion loads partition 0's image and commits the first change
set, or leaves the reel in FILL with CHECK's answer. The boot record, the firmware banks and the owner's key are written once verified.
Commands whose completion, with its effect, it states: FILL, FILL_COMPLETE, DDR_TRAINING_COMPLETE, BOOT_RECORD_WRITE,
BOOT_RECORD_READ, FIRMWARE_WRITE, OWNER_KEY_FUSE, FIRMWARE_RECOVER. -/
def Obligations.BootStepsLeadToStaged : Prop :=
  ∀ s t : State,
    (∀ res : List ChTrain, s.life = .rom → s.jalif.bootOk = true →
      (s.power.hubResetLast % 16 = 1 → Leaves (.ddrTrainingComplete res) s fun u => u.life = .fill) ∧
      (s.power.hubResetLast % 16 ≠ 1 →
        (quadGood res 0 = false → Leaves (.ddrTrainingComplete res) s fun u => u.life = .rom) ∧
        (quadGood res 0 = true → s.jalif.boot.interleave ≠ 0 ∨ reelInterleaves res s.jalif.boot.mirror = true →
          Leaves (.ddrTrainingComplete res) s fun u => u.life = .fill ∧ u.mcs.interleave = s.jalif.boot.interleave ∧
            ∀ c, c < 16 → quadGood res (c / 4) = true → (u.mch c).capacity = (trainOf res c).gib ∧
              ((trainOf res c).ok = true → (u.mch c).state = 1) ∧ ((trainOf res c).ok = false → (u.mch c).state = 2)))) ∧
    (s.life = .fill → s.jalif.filled = false → Leaves .fill s fun u => u.jalif.filled = true ∧ u.life = .fill ∧
      (s.power.hubResetLast % 16 ≠ 1 → u.mem = {})) ∧
    (∀ p0 : List Byte, s.life = .fill → s.jalif.filled = true → s.jalif.fillDone = false →
      let b := s.jalif.boot
      let good : Prop := p0.length = b.p0Len ∧ 2 ^ 25 ≤ b.p0Spi ∧ Config.sha384 p0 = b.p0Digest ∧ s.localRange b.p0Load b.p0Len = true
      (¬ good → Leaves (.fillComplete p0) s fun u => u.jalif.fillDone = true ∧ u.life = .fill ∧
        tget 0 u.faults.counts 0x0B07 = satBits 64 (tget 0 s.faults.counts 0x0B07 + 1)) ∧
      (good → b.config ≠ [] → Leaves (.fillComplete p0) s fun u => u.jalif.fillDone = true ∧
        ((u.life = .staged ∧ u.jalif.change.st = 3) ∨
          (u.life = .fill ∧ (tget {} (u.mbox 49).resp 0).code = 0x12 ∧ (tget {} (u.mbox 49).resp 0).status ≠ 0)))) ∧
    (∀ (mb : Mb) (buf : Buf) (xs : List Nat) (p : Bool) (v : State), s.Takes t mb 0x61 .zero → t.bufOk mb buf = true →
      t.bufIn mb buf (bufSize mb buf) = (some (xs, p), v) →
      let ys := xs.take (fieldAt xs 8 4 + 96)
      (v.bootValid ys = true → Leaves (.bootRecordWrite mb buf) s fun u => u.Answered mb 0x61 0 [] ∧
        u.jalif.bootNew = some (parseBoot ys) ∧ u.jalif.boot = s.jalif.boot) ∧
      (v.bootValid ys = false → Leaves (.bootRecordWrite mb buf) s fun u => u.Answered mb 0x61 0x12 [] ∧
        u.jalif.bootNew = s.jalif.bootNew)) ∧
    (∀ (mb : Mb) (buf : Buf), s.Takes t mb 0x62 .zero →
      let xs := ofBytes (s.jalif.bootNew.getD s.jalif.boot).raw
      t.bufOk mb buf = true → roomFor mb buf xs.length = true → (t.bufOut mb buf xs).1 = true →
      Leaves (.bootRecordRead mb buf) s fun u => u.Answered mb 0x62 0 [xs.length] ∧ u.Wrote t mb buf xs) ∧
    (∀ (mb : Mb) (buf : Buf) (img : BankImage), s.Takes t mb 0x63 .zero → t.bufOk mb buf = true →
      (img.sigOk = false → Leaves (.firmwareWrite mb buf img) s fun u => u.Answered mb 0x63 0x12 [] ∧
        u.jalif.bankA = s.jalif.bankA ∧ u.jalif.bankB = s.jalif.bankB) ∧
      (img.sigOk = true → Leaves (.firmwareWrite mb buf img) s fun u => u.Answered mb 0x63 0 [1 - s.jalif.fwBank] ∧
        u.jalif.bankA = (if s.jalif.fwBank = 0 then s.jalif.bankA else some img) ∧
        u.jalif.bankB = (if s.jalif.fwBank = 0 then some img else s.jalif.bankB))) ∧
    (∀ (mb : Mb) (digest : BitVec 384), s.Takes t mb 0x70 .bmc →
      (s.jalif.fused = none → Leaves (.ownerKeyFuse mb digest) s fun u => u.Answered mb 0x70 0 [] ∧ u.jalif.fused = some digest) ∧
      (s.jalif.fused.isSome = true → Leaves (.ownerKeyFuse mb digest) s fun u => u.Answered mb 0x70 2 [] ∧
        u.jalif.fused = s.jalif.fused)) ∧
    (∀ (mb : Mb) (img : BankImage), s.Takes t mb 0x71 .bmc →
      (s.jalif.recovery = false → Leaves (.firmwareRecover mb img) s fun u => u.Answered mb 0x71 2 []) ∧
      (∀ b, s.jalif.recovery = true → s.jalif.bootIn = some b →
        (img.sigOk = false → Leaves (.firmwareRecover mb img) s fun u => u.Answered mb 0x71 0x12 []) ∧
        (img.sigOk = true → Leaves (.firmwareRecover mb img) s fun u => u.jalif.fwRun = img.version % 2 ^ 32 ∧
          u.jalif.draftVer = img.draft.version % 2 ^ 32)))

/-- R457, R485, R495, R498, R499: partial resets and re-admission. RESET of a skein that nothing holds loses it; of a rack port or a flex
group makes its ports train again, fenced; re-admission of a lost skein first asks for its floor of 52 beads, then trains it, and admits
it, counts a failed PLL, or leaves it out for good.
Commands whose completion, with its effect, it states: RESET_SKEIN, RESET_RACK_PORT, RESET_FLEX_GROUP, SKEIN_READMISSION. -/
def Obligations.PartialResetsAndReadmission : Prop :=
  ∀ s t : State,
    (∀ (mb : Mb) (k : Nat), s.Takes t mb 0x60 .zero → k ≤ 11 → (t.faults.active.any fun a => a.skein == some k) = false →
      t.skeinUp k = true → t.running = true → Leaves (.resetSkein mb k) s fun u =>
        u = (t.respond mb 0x60 0 []).skeinLoss k .reset ∧ (u.sk k).lost = true) ∧
    (∀ (mb : Mb) (k : Nat), s.Takes t mb 0x60 .zero → k ≤ 11 → (t.rack k).state ≠ 0 → t.running = true →
      Leaves (.resetRackPort mb k) s fun u => u.Answered mb 0x60 0 [] ∧ (u.rack k).state = 1 ∧ (u.rack k).width = 0 ∧
        (u.fence (64 + k)).st = 2) ∧
    (∀ (mb : Mb) (g : Nat), s.Takes t mb 0x60 .zero → g ≤ 5 → t.flexRole g ≠ 0 → t.running = true →
      Leaves (.resetFlexGroup mb g) s fun u => u.Answered mb 0x60 0 [] ∧
        ∀ j, j < 4 → t.flexExists (4 * g + j) = true → (u.flexP (4 * g + j)).state = 1 ∧ (u.fence (32 + (4 * g + j))).st = 2) ∧
    (∀ (k : SkId) (r : AdmitResult),
      let s1 := if r.pgHigh then s.modPins fun p => { p with pgCore := p.pgCore ||| BitVec.ofNat 13 (2 ^ k.val) } else s
      s1.admissible k r = true →
      let good := (List.range 20).filter fun p => r.plyGood.getLsbD p && !((s.sk k).split && (s.ply k p).state == 3)
      let z := if (s.sk k).linkState = 1 then (s1.train k r.masks).sk k else s.sk k
      ((s.sk k).linkState = 0 → Leaves (.skeinReadmission k r) s fun u =>
        ((u.sk k).waiting.any fun q => q.what == .floor k.val) = true ∧ (u.sk k).lost = true ∧
        ((s.sk k).allowance = 0 → (u.sk k).allowance = s.param 0x1000 k)) ∧
      ((s.sk k).linkState ≠ 0 → s.domainState (360 + k) = 1 → r.pllOk = false → (s.sk k).admitTries < 2 → Leaves (.skeinReadmission k r) s fun u =>
        (u.sk k).admitTries = (s.sk k).admitTries + 1 ∧ (u.sk k).linkState = 0 ∧ (u.sk k).lost = true ∧
        (u.sk k).outForGood = false ∧ u.power.reserve = s.power.reserve + (s.sk k).allowance) ∧
      ((s.sk k).linkState ≠ 0 → s.domainState (360 + k) = 1 → r.pllOk = true → z.hubWidth = 0 ∨ r.testOk = false ∨ good.length < s.param 0x0504 0 →
        Leaves (.skeinReadmission k r) s fun u => (u.sk k).outForGood = true ∧ (u.sk k).lost = true ∧
          tget 0 u.faults.counts 0x0A0A = satBits 64 (tget 0 s.faults.counts 0x0A0A + 1)) ∧
      ((s.sk k).linkState ≠ 0 → s.domainState (360 + k) = 1 → r.pllOk = true → z.hubWidth ≠ 0 → r.testOk = true → s.param 0x0504 0 ≤ good.length →
        Leaves (.skeinReadmission k r) s fun u => (u.sk k).lost = false ∧ (u.sk k).present = true ∧ (u.sk k).returned = true ∧
          (u.fence k).st = 0 ∧ (u.sk k).dieGen = s.jalif.gen))

/-- R475 to R489, R503: beads, domains, steps and heat. A keeper grants the request at the head of its queue while its limit allows, and
not otherwise; what waits too long is marked late; a step change moves one step; a ply in WAIT drops to step 0; the gate of a granted
domain reports on or fails; telemetry records temperatures, currents and regulator faults; a rebalance withdraws n beads of a hot die's
allowance above its floor and returns them when it has cooled; a throttled die's plies head for step 0 until it is released; a thermal
trip gates every domain but 312 and halts the reel.
Commands whose completion, with its effect, it states: BEAD_GRANT, GRANT_WAIT_TIMEOUT, STEP_CHANGE_COMPLETE, WAIT_DROP,
TELEMETRY_SAMPLE, REBALANCE, DOMAIN_POWER_UP_TIMEOUT, THERMAL_THROTTLE, THROTTLE_RELEASE, THERMAL_TRIP,
DOMAIN_POWER_ON_COMPLETE. -/
def Obligations.PowerIsGrantedMeasuredAndWithdrawn : Prop :=
  ∀ s : State,
    (∀ (d : DieId) (r : BeadReq) (rest : List BeadReq), s.waitingAt d = r :: rest →
      let fits : Prop := s.throttled r.what = false ∧ s.grantedAt d + s.reqNeed r ≤ s.limitAt d ∧ s.grantedSum + s.reqNeed r ≤ 60800
      (fits → Leaves (.beadGrant d) s fun u => u.waitingAt d = rest ∧ u.grantedAt d = s.grantedAt d + s.reqNeed r) ∧
      (¬ fits → Leaves (.beadGrant d) s fun u => u = s)) ∧
    (∀ d : DieId, Leaves (.grantWaitTimeout d) s fun u => (u.waitingAt d).map (·.what) = (s.waitingAt d).map (·.what) ∧
      ∀ r ∈ u.waitingAt d, r.since + s.param 0x1004 0 * 1000 < s.time → r.late = true) ∧
    (∀ (k : SkId) (p : PlId),
      let y := s.ply k p
      (y.step < 9 → y.wantStep < 9 → y.step ≠ y.wantStep →
        let n := if y.step < y.wantStep then y.step + 1 else y.step - 1
        Leaves (.stepChangeComplete k p) s fun u => (u.ply k p).step = n ∧
          (u.ply k p).wantStep = (if n = y.wantStep then 15 else y.wantStep) ∧ (u.sk k).railStep = u.railOf k) ∧
      (s.param 0x1003 0 ≠ 0 → s.spindlesOn k p ≠ [] → (∀ i ∈ s.spindlesOn k p, (s.sp i).waitUntil.isSome = true ∧
          (s.sp i).waitFrom + s.param 0x1003 0 * 1000 ≤ s.time) →
        y.state = 0 → y.step < 9 → Leaves (.waitDrop k p) s fun u => (u.ply k p).aim = 0 ∧ (u.ply k p).step = y.step)) ∧
    (∀ d : Nat,
      let k := d / 26
      let j := d % 26
      (312 ≤ d → d ≤ 371 → s.domainState d = 2 → s.domainWaits d = false →
        (Leaves (.domainPowerOnComplete d) s fun u => u.domainState d = 1) ∧
        (s.gateLate d = true → Leaves (.domainPowerUpTimeout d) s fun u => u.domainState d = 5 ∧
          tget 0 u.faults.counts 0x0A01 = satBits 64 (tget 0 s.faults.counts 0x0A01 + 1))) ∧
      (d < 312 → j < 20 →
        ((s.ply k j).waking = true → (Leaves (.domainPowerOnComplete d) s fun u => (u.ply k j).step = 0) ∧
          (s.gateLate d = true → Leaves (.domainPowerUpTimeout d) s fun u => (u.ply k j).state = 3)) ∧
        ((s.ply k j).waking = false → Leaves (.domainPowerOnComplete d) s fun u => u.ply k j = (s.ply k j).waysOn)) ∧
      (d < 312 → j = 24 → Leaves (.domainPowerOnComplete d) s fun u => (u.sk k).pcGate = 0 ∧
        ((s.sk k).pcGate.getLsbD 0 = true → (u.sk k).press = 1) ∧ ((s.sk k).pcGate.getLsbD 1 = true → (u.sk k).cipher = 1))) ∧
    (∀ t : Telemetry, s.life ≠ .off → s.life ≠ .halt → s.power.nextSample ≤ s.time → Leaves (.telemetrySample t) s fun u =>
      (∀ (d : DieId) (x : DieSample), t.dies[d.val]? = some x → tget 0 u.power.current d = x.current % 65536 ∧
        (d.val < 12 → (u.sk d).temp = min 127 x.temp) ∧ (d.val = 12 → u.power.hubTemp = min 127 x.temp)) ∧
      ∀ r, r < 24 → (u.power.regFault.getLsbD r = true ↔ r ∈ t.faults)) ∧
    (s.life ≠ .off → s.life ≠ .halt → s.power.nextRebal ≤ s.time → Leaves .rebalance s fun u => u.mem = s.mem ∧
      (∀ k : SkId, s.skeinUp k = true →
        let z := s.sk k
        let m := min (s.param 0x1007 0) (z.allowance - (s.skeinFloor s k + 31) / 32)
        (s.param 0x1006 0 < z.temp → (u.sk k).allowance = z.allowance - m ∧ (u.sk k).heat = z.heat + m) ∧
        (z.temp + 2 ≤ s.param 0x1006 0 → z.heat ≠ 0 → (u.sk k).allowance = z.allowance + min (s.param 0x1007 0) z.heat ∧
          (u.sk k).heat = z.heat - min (s.param 0x1007 0) z.heat))) ∧
    (∀ d : DieId, s.live = true →
      (d.val < 12 → s.skeinUp d = true → (s.sk d).hard = false → Leaves (.thermalThrottle d) s fun u => (u.sk d).hard = true ∧
        ∀ p, p < 20 → (s.ply d p).step < 9 → (u.ply d p).aim = 0) ∧
      (d.val = 12 → s.power.hubHard = false → Leaves (.thermalThrottle d) s fun u => u.power.hubHard = true) ∧
      (d.val < 12 → (s.sk d).hardAt + 1000000 ≤ s.time → Leaves (.throttleRelease d) s fun u => (u.sk d).hard = false) ∧
      (d.val = 12 → s.power.hubHardAt + 1000000 ≤ s.time → Leaves (.throttleRelease d) s fun u => u.power.hubHard = false)) ∧
    (∀ d : DieId, s.life ≠ .off → Leaves (.thermalTrip d) s fun u => u.life = .halt ∧ u.pins.tripLow = true ∧ u.domainState 312 = 1 ∧
      (∀ n, n ≠ 312 → u.domainState n = 0) ∧ ∀ k p, k < 12 → p < 20 → (u.ply k p).step = 15)

/-- R491, R494, R511, R512, R518: references, rails, the tally marks and the test port. The loss of a reference that is spared switches to
the other, the loss of both halts; a skein whose rail falls is lost, the hub halts, and a falling auxiliary rail takes with it the channels,
ports, guests or hub that it feeds; a mark goes out at each multiple of the period and one that comes in corrects a follower, whose timebase
never steps back; the test port selects BYPASS, IDCODE or SAMPLE at any time and the others only with RESET_N low.
Commands whose completion, with its effect, it states: REFCLK_SWITCH, BOTH_REFERENCES_LOST, TALLY_MARK_OUT, TALLY_MARK_IN,
TALLY_MARK_LOSS, PG_CORE_FALL, PG_AUX_FALL, PMB_ALERT, BYPASS, IDCODE, SAMPLE_PRELOAD, EXTEST, CLAMP, HIGHZ. -/
def Obligations.ClocksRailsAndTestPort : Prop :=
  ∀ s : State,
    (s.life ≠ .off → s.life ≠ .halt →
      (s.power.refSel = 0 → s.power.refB = true → Leaves .refclkSwitch s fun u => u.power.refSel = 1 ∧ u.power.refA = false ∧
        tget 0 u.faults.counts 0x0A07 = satBits 64 (tget 0 s.faults.counts 0x0A07 + 1)) ∧
      (Leaves .bothReferencesLost s fun u => u.life = .halt ∧ u.power.refSel = 2) ∧
      (∀ d : DieId,
        (d.val < 12 → s.skeinUp d = true → Leaves (.pgCoreFall d) s fun u => (u.sk d).lost = true ∧ u.pins.pgCore.getLsbD d = false) ∧
        (d.val = 12 → Leaves (.pgCoreFall d) s fun u => u.life = .halt ∧ u.pins.pgCore.getLsbD 12 = false)) ∧
      (∀ rail : Nat, Leaves (.pgAuxFall rail) s fun u => u.pins.pgAux = false ∧
        (13 ≤ rail → rail ≤ 16 → ∀ c, c / 4 = rail - 13 → (s.mch c).state ≠ 0 → (u.mch c).state = 2) ∧
        (rail = 17 ∨ rail = 20 ∨ rail = 21 → u.life = .halt) ∧
        (rail = 18 → ∀ n, s.flexExists n = true → (u.flexP n).state = 3) ∧
        (rail = 19 → ∀ k, k < 12 → bitAt (s.param 0x0C40 k) 0 = true → (u.rack k).state = 3) ∧
        (rail = 20 ∨ rail = 21 → u.power.hubLost = true ∧ u.pins.alive = false) ∧
        (∀ g : SiteId, rail = 22 + g.val → (s.site g).state = 1 ∨ (s.site g).state = 2 → (u.site g).state = 3) ∧
        (13 ≤ rail → rail ≤ 19 ∨ rail = 22 ∨ rail = 23 → u.power.regFault.getLsbD rail = true)) ∧
      (∀ rails : List Nat, Leaves (.pmbAlert rails) s fun u => ∀ r ∈ rails, r < 24 → u.power.regFault.getLsbD r = true)) ∧
    (s.life ≠ .off → s.param 0x1020 0 ≠ 0 → s.time % s.markPeriod = 0 → Leaves .tallyMarkOut s fun u =>
      u.pins.tallyOut = 1 + b2n ((s.time / (64 * s.markPeriod) * (64 * s.markPeriod)).testBit (s.time / s.markPeriod % 64)) ∧
      u.time = s.time) ∧
    (∀ (bit : Bool) (off : Int), s.life ≠ .off → s.param 0x1020 0 = 2 →
      let o := off - (s.param 0x1022 0 : Int)
      Leaves (.tallyMarkIn bit off) s fun u => u.power.tally.offset = o ∧ s.time ≤ u.time ∧
        (o.natAbs ≤ 20 → u.power.tally.good = min 16 (s.power.tally.good + 1)) ∧ (20 < o.natAbs → u.power.tally.good = 0) ∧
        (u.power.tally.locked = true ↔ u.power.tally.good = 16) ∧
        (s.running = true → -1000 ≤ o → u.time = s.time) ∧
        (s.running = true → o < -1000 → u.time = max s.time ((s.time + o.natAbs) % 2 ^ 64)) ∧
        (s.power.tally.bitsIn.length < 63 → u.power.tally.bitsIn = s.power.tally.bitsIn ++ [bit])) ∧
    (s.life ≠ .off → s.param 0x1020 0 = 2 → s.power.tally.lastMark + 4 * s.markPeriod ≤ s.time → Leaves .tallyMarkLoss s fun u =>
      u.power.tally.locked = false ∧ u.power.tally.good = 0 ∧ u.power.tally.bitsIn = []) ∧
    ((Leaves .bypass s fun u => u.pins.jtag = 0 ∧ u.pins.jtagOut = 0) ∧
      (Leaves .idcode s fun u => u.pins.jtag = 1 ∧ u.pins.jtagOut = 0x1A4E04D3) ∧
      (Leaves .samplePreload s fun u => u.pins.jtag = 2) ∧
      (Leaves .extest s fun u => u.pins.jtag = if s.pins.resetN = true then 0 else 3) ∧
      (Leaves .clamp s fun u => u.pins.jtag = if s.pins.resetN = true then 0 else 4) ∧
      (Leaves .highz s fun u => u.pins.jtag = if s.pins.resetN = true then 0 else 5))

namespace Sys2Proof.Machine

/-- Command i of a ready spindle completes its issue with one operation of unit u in flight, whose completion leaves the result r and
the status bits st, raises an integer-overflow event or none, and leaves every general register alone (R58, R60, R79, R102). -/
def State.Computes (s : State) (i : Instr) (sp u : Nat) (r : BitVec 128) (st : Nat → Bool) (event : Bool) : Prop :=
  ∃ t q, exec i s = .next t ∧ (t.sp sp).ops = [q] ∧ q.unit = u ∧
    let y := ((t.sp sp).complete q).arch
    (y.unit u).r = ⟨r, false⟩ ∧ (∀ k, k < 64 → (y.unit u).st.getLsbD k = st k) ∧ (y.pendInfo ≠ 0 ↔ event = true) ∧
      ∀ k, y.getG k = (s.sp sp).arch.getG k

/-- The exact value x lies outside the signed 64-bit range. -/
def outside64 (x : Int) : Bool := decide (x < -(2 ^ 63)) || decide (2 ^ 63 ≤ x)

/-- Capability d authorises nothing that c does not: its range lies in c's and its permissions are among c's (R112, R116). -/
def capWithin (d c : Cap) : Prop :=
  capBase c ≤ capBase d ∧ capBase d + capLen d ≤ capBase c + capLen c ∧ ∀ k, capHas d k = true → capHas c k = true

/-- The fields of a move lie in their widths, and an immediate move has no source, modifier, PAIR or negated guard (R45, R46). -/
def Move.Fits (m : Move) : Prop :=
  m.guard < 16 ∧ m.dst < 2 ^ 11 ∧ m.src < 2 ^ 11 ∧ m.mod < 2 ^ 13 ∧ m.immV < 2 ^ 26 ∧
    (m.imm = true → m.neg = false ∧ m.pair = false ∧ m.src = 0 ∧ m.mod = 0) ∧ (m.imm = false → m.immV = 0)

end Sys2Proof.Machine

/-- A step takes the command at the front of the queue and is exec of it with the queue's rest. On an empty queue the reel idles (the
model's choice, log 4). -/
def Obligations.StepRunsFrontCommand : Prop :=
  (∀ (c : Instr) (rest : List Instr) (s : State), s.pending = c :: rest → step s = exec c { s with pending := rest }) ∧
    (∀ s : State, s.pending = [] → step s = .next (idleTick s))

/-- R492: an idle step counts one tick of the timebase modulo 2^64 and changes neither the life state, the parameters, the pins nor the
queue; that the tick is what an empty queue does is the model's choice (log 4). -/
def Obligations.IdleStepCountsOneTick : Prop :=
  ∀ s : State, s.pending = [] → ∃ t, step s = .next t ∧ t.time = (s.time + 1) % 2 ^ 64 ∧ t.life = s.life ∧ t.params = s.params ∧
    t.pins = s.pins ∧ t.pending = []

/-- R33, R37, R460, R475, R492: the reel right after reset: in ROM, with no command waiting, no parameter that differs from its default,
no spindle released, no skein admitted, nothing in the ledger, no active fault record, ERR_N and FATAL_N released, the allowance of the
hub and the reserve at the defaults, and the memory in its canonical form with nothing listed (what an unlisted byte reads as, and the
pins' levels, are the model's choice: log 2, log 3). -/
def Obligations.ResetLeavesTheReelInRom : Prop :=
  State.reset.life = .rom ∧ State.reset.pending = [] ∧ State.reset.time = 0 ∧ State.reset.params = [] ∧
    (∀ i, (State.reset.sp i).released = false ∧ (State.reset.sp i).host = none ∧ (State.reset.sp i).ops = []) ∧
    (∀ k, State.reset.skeinUp k = false) ∧ (∀ k, (State.reset.entry k).st = .free) ∧ State.reset.chan.accepting = false ∧
    State.reset.faults.active = [] ∧ State.reset.faults.log = [] ∧ State.reset.faults.service = false ∧
    State.reset.pins.errLow = false ∧ State.reset.pins.fatalLow = false ∧ State.reset.jalif.change.st = 0 ∧
    State.reset.power.hubAllow = 240 ∧ State.reset.power.reserve = 76 ∧ State.reset.mem.wf = true ∧
    (∀ a, State.reset.mem.byte a = 0) ∧ State.reset.Quiet

/-- R79, R80: the operations of the ALUs on a and b, the operand 1 of the unit, in the default (imprecise) mode. ADD, SUB and ADDC leave
the carry or borrow in C and set the sticky V on a signed overflow; ADDT and SUBT leave C, set V and raise the integer-overflow event;
the logic and shift operations leave both. A shift reads b[5:0] only; ADDC adds the C of its own ALU. -/
def Obligations.AluResultsAndFlags : Prop :=
  ∀ (sp : SpId) (u : AluId) (a : Word) (s : State) (h : Place), s.Ready sp h →
    let w := (s.sp sp).arch.unit u
    let b := Cap64 w.o1
    let c : Nat := b2n (w.st.getLsbD 0)
    let does (i : Instr) (r : Word) (cc : Option Bool) (v event : Bool) : Prop :=
      s.Computes i sp u (r.setWidth 128)
        (fun k => if k = 0 then cc.getD (w.st.getLsbD 0) else if k = 1 then w.st.getLsbD 1 || v else w.st.getLsbD k) (event && v)
    let sum := a.toInt + b.toInt
    does (.add sp u a) (a + b) (some (decide (2 ^ 64 ≤ a.toNat + b.toNat))) (outside64 sum) false ∧
    does (.sub sp u a) (a - b) (some (decide (a.toNat < b.toNat))) (outside64 (a.toInt - b.toInt)) false ∧
    does (.addt sp u a) (a + b) none (outside64 sum) true ∧
    does (.subt sp u a) (a - b) none (outside64 (a.toInt - b.toInt)) true ∧
    does (.and sp u a) (a &&& b) none false false ∧ does (.or sp u a) (a ||| b) none false false ∧
    does (.xor sp u a) (a ^^^ b) none false false ∧ does (.andn sp u a) (a &&& ~~~b) none false false ∧
    does (.shl sp u a) (a <<< (b.toNat % 64)) none false false ∧ does (.shr sp u a) (a >>> (b.toNat % 64)) none false false ∧
    does (.sar sp u a) (a.sshiftRight (b.toNat % 64)) none false false ∧
    does (.addc sp u a) (a + b + BitVec.ofNat 64 c) (some (decide (2 ^ 64 ≤ a.toNat + b.toNat + c))) (outside64 (sum + c)) false

/-- R81, R83: the multiplier and the divider on a and b, the operand 1 of the unit, in the default mode. MUL gives the low half of the
product, UMUL and SMUL all of it, MULT sets V and raises the event where the product is outside 64 signed bits; the divider rounds the
quotient toward zero, the remainder is a − b × quotient, and the edge results are those of the table. The divider raises no event. -/
def Obligations.MultiplierAndDividerResults : Prop :=
  ∀ (sp : SpId) (a : Word) (s : State) (h : Place), s.Ready sp h →
    (let w := (s.sp sp).arch.unit 4
     let b := Cap64 w.o1
     let p := a.toInt * b.toInt
     let does (i : Instr) (r : BitVec 128) (v : Bool) : Prop :=
       s.Computes i sp 4 r (fun k => if k = 1 then w.st.getLsbD 1 || v else w.st.getLsbD k) v
     does (.mul sp a) (BitVec.ofNat 128 (a.toNat * b.toNat % 2 ^ 64)) false ∧ does (.umul sp a) (BitVec.ofNat 128 (a.toNat * b.toNat)) false ∧
     does (.smul sp a) (BitVec.ofInt 128 p) false ∧ does (.mult sp a) (BitVec.ofInt 128 p) (outside64 p)) ∧
    (let w := (s.sp sp).arch.unit 5
     let b := Cap64 w.o1
     let does (i : Instr) (r : Word) (dz v : Bool) : Prop :=
       s.Computes i sp 5 (r.setWidth 128) (fun k => if k = 0 then w.st.getLsbD 0 || dz else if k = 1 then w.st.getLsbD 1 || v else w.st.getLsbD k)
         false
     (b = 0 → does (.udiv sp a) (BitVec.allOnes 64) true false ∧ does (.urem sp a) a true false ∧
       does (.sdiv sp a) (BitVec.allOnes 64) true false ∧ does (.srem sp a) a true false) ∧
     (a.toInt = -(2 ^ 63) → b.toInt = -1 → does (.sdiv sp a) a false true ∧ does (.srem sp a) 0 false true) ∧
     (b ≠ 0 → ∀ q r : Nat, a.toNat = b.toNat * q + r → r < b.toNat →
       does (.udiv sp a) (BitVec.ofNat 64 q) false false ∧ does (.urem sp a) (BitVec.ofNat 64 r) false false) ∧
     (b ≠ 0 → a.toInt ≠ -(2 ^ 63) ∨ b.toInt ≠ -1 → ∀ q r : Int, a.toInt = b.toInt * q + r → r.natAbs < b.toInt.natAbs →
       (r = 0 ∨ (r < 0 ↔ a.toInt < 0)) →
       does (.sdiv sp a) (BitVec.ofInt 64 q) false false ∧ does (.srem sp a) (BitVec.ofInt 64 r) false false))

/-- R111, R112, R116: no capability operation enlarges authority. The tagged result of NARROW, PDROP, WRAP or MKENTRY lies within operand
a, that of UNWRAP too; PDROP's permissions are a's among the mask; a queried value and UNTAG's result hold no tag; and an operation whose
requirement fails names a cause of the table and gives no result. -/
def Obligations.CapabilityOperationsNeverEnlarge : Prop :=
  ∀ a b : Cap,
    (∀ (n : Nat) (d : Cap), capOp n a b = .ok d → d.tag = true → 4 ≤ n ∧ (n ≤ 7 ∨ n = 13) ∧ a.tag = true ∧ capWithin d a) ∧
    (∀ d : Cap, capOp 5 a b = .ok d → capPerms d = capPerms a &&& bits b.bits.toNat 0 16) ∧
    (∀ d : Cap, capOp 4 a b = .ok d → capBase d = bits b.bits.toNat 0 52 ∧ capLen d = bits b.bits.toNat 52 44 ∧ capPerms d = capPerms a) ∧
    (∀ n e : Nat, 4 ≤ n → n ≤ 14 → capOp n a b = .error e → e = 1 ∨ e = 2 ∨ e = 4 ∨ e = 7 ∨ e = 8 ∨ e = 9) ∧
    (a.tag = false → ∀ n, n = 4 ∨ n = 5 ∨ n = 6 ∨ n = 7 ∨ n = 13 → capOp n a b = .error 1)

/-- R430: how a counting group takes an event stamped t. A window is half-open: an event from START plus the window on opens a new one.
LAST is the event's stamp; CARRY falls where a whole window passed since LAST and is set where COUNT reaches a limit that is not 0, which
returns COUNT to 0 and keeps START. With a limit of 0 no event sets it. -/
def Obligations.CountingGroupsCarry : Prop :=
  ∀ (limit window t : Nat) (g : Group),
    let opens : Prop := g.count = 0 ∨ g.start + window ≤ t
    let keeps : Prop := g.carry = true ∧ t < g.last + window
    let x := groupStep limit window t g
    x.last = t ∧ (opens → x.start = t) ∧ (¬ opens → x.start = g.start) ∧
    (∀ n, (opens ∧ n = 1) ∨ (¬ opens ∧ n = g.count + 1) →
      ((limit ≠ 0 ∧ n = limit) → x.count = 0 ∧ x.carry = true) ∧
      (¬ (limit ≠ 0 ∧ n = limit) → x.count = n ∧ (x.carry = true ↔ keeps)))

/-- R38, R115, R304: a line that is written reads back, with no tag where it is poisoned; the bytes, tags and marker of every other line are
as they were; and the memory keeps its canonical form. -/
def Obligations.LinesReadBackAsWritten : Prop :=
  ∀ (m : Mem) (l : Nat) (v : LineVal),
    ((m.setLine l v).line l = if v.poison then { v with tags := 0 } else v) ∧
    (∀ k, k ≠ l → (m.setLine l v).line k = m.line k) ∧ (m.wf = true → (m.setLine l v).wf = true)

/-- Tier 3. Every step keeps the canonical form of the memory (R38): in every state whose bytes, tags and markers are listed in rising order
with nothing listed that reads as an unlisted one does, the next state of any command, or of an idle step, has that form too. -/
def Obligations.EveryStepKeepsMemoryCanonical : Prop :=
  ∀ s t : State, s.mem.wf = true → step s = .next t → t.mem.wf = true

/-- Tier 3. R42, R44 to R46, R523: a bundle's encoding and its decoding agree. A normal bundle of three moves whose fields fit decodes to
those of them that are no all-zero slot, in order; a long-immediate bundle decodes to its slot 0 and its 64-bit immediate; and no bit of a
slot is dropped: two moves with one encoding are one move. -/
def Obligations.BundleDecodesAsEncoded : Prop :=
  (∀ (m : Nat → Move), (∀ k, k < 3 → (m k).Fits ∧ (m k).slot = k) →
    let b := encodeBundle 0 (encodeSlot (m 0)) (encodeSlot (m 1)) (encodeSlot (m 2))
    b < 2 ^ 128 ∧ bundleKind b = 0 ∧ bundleMoves b = ([m 0, m 1, m 2].filter fun x => encodeSlot x != 0)) ∧
  (∀ (x : Move) (v : Word), x.Fits → x.slot = 0 →
    let b := encodeBundle 1 (encodeSlot x) (v.toNat % 2 ^ 42) (v.toNat / 2 ^ 42)
    b < 2 ^ 128 ∧ bundleKind b = 1 ∧ longImm b = some v ∧ slotBits b 0 = encodeSlot x) ∧
  (∀ x y : Move, x.Fits → y.Fits → x.slot = y.slot → encodeSlot x = encodeSlot y → x = y)

/-- R8, R43 and the rows of the table: no command faults and none is refused. Whatever the state and the operands, the machine takes every
command to a next state: its effect where the spec gives it one there, and the state with what the spec says of a command that is turned
away, waits or finds nothing to act on elsewhere. The statements of the families say, for each command by name, which next state its own
effect leaves, and under which conditions. -/
def Obligations.EveryCommandCompletes : Prop :=
  ∀ (c : Instr) (s : State), ∃ t, exec c s = .next t

/-- R72, R73, R225, R230, R391: what the cache-control triggers, the long operations, the FINISH triggers and the coprocessor
requests of a ready spindle leave in flight: the claims CacheOperationIsInFlight, LongOperationBegins,
FinishAndCoprocessorRequestAreInFlight.
Commands whose completion, with its effect, it states: DLDIV, CLEAN, INVAL, DISCARD, LOCK_WAY, LOCK_FILL, UNLOCK_WAY, BMOVE,
BFILL, COMPRESS, DECOMPRESS, PRESS_FINISH, ENCRYPT, DECRYPT, CIPHER_FINISH, COPROCESSOR_REQUEST. -/
def Obligations.CacheAndLongOperationsBegin : Prop :=
  CacheOperationIsInFlight ∧ LongOperationBegins ∧ FinishAndCoprocessorRequestAreInFlight

/-- R112, R114, R145, R256: loads, stores and atomics of a ready spindle: the claims LoadIsInFlightOrAsksForItsLine,
StoreAndAtomicWaitForOwnership.
Commands whose completion, with its effect, it states: LD8U, LD8S, LD16U, LD16S, LD32U, LD32S, LD64, LD128, LDCAP, ST, STCAP,
ATOM_CAS, ATOM_FETCH_ADD, ATOM_SWAP, ATOM_BIT_SET, ATOM_BIT_CLEAR. -/
def Obligations.LoadsStoresAndAtomicsIssue : Prop :=
  LoadIsInFlightOrAsksForItsLine ∧ StoreAndAtomicWaitForOwnership

/-- R68 to R71, R117, R118: the control unit and the loop unit of a ready spindle: the claims ControlTransferOfReadySpindle,
LoopTriggersOfReadySpindle.
Commands whose completion, with its effect, it states: BR, BRA, CALL, CALLA, JCAP, CALLCAP, LOOP, BREAK. -/
def Obligations.TransfersAndLoopsOfReadySpindle : Prop :=
  ControlTransferOfReadySpindle ∧ LoopTriggersOfReadySpindle

/-- R60, R76, R114, R230: how operations in flight end: the claims UnitCompletionDeliversResult,
CacheOperationCompletesWithResult, CoprocessorRequestIsAnswered.
Commands whose completion, with its effect, it states: UNIT_COMPLETION, CACHEOP_COMPLETE, COPROCESSOR_RESPONSE,
COPROCESSOR_TIMEOUT. -/
def Obligations.OperationsDeliverTheirResults : Prop :=
  UnitCompletionDeliversResult ∧ CacheOperationCompletesWithResult ∧ CoprocessorRequestIsAnswered

/-- R123 to R136: TRAP, the interrupts and the notices: the claims TrapDeliversSystemCall, DueEventsAreDelivered.
Commands whose completion, with its effect, it states: TRAP, INTERRUPT_DELIVERY, NOTICE_DELIVERY. -/
def Obligations.EventsReachTheirHandlers : Prop :=
  TrapDeliversSystemCall ∧ DueEventsAreDelivered

/-- R148 to R170: errors of a ply and its failure: the claims PlyErrorsAreRetriedBelowLimit, PlyFailuresAreDeclared.
Commands whose completion, with its effect, it states: PLY_RETRY, AGREEMENT_TIMEOUT, DRAFT_WORD_UNCORRECTABLE, SPLIT_PLY_FAILED,
COMPARATOR_TEST, DRAFT_LOAD. -/
def Obligations.PlyErrorsAndFailures : Prop :=
  PlyErrorsAreRetriedBelowLimit ∧ PlyFailuresAreDeclared

/-- R175 to R196: fastens at the skeins and at the home slices: the claims EpochsCloseAndCommit, HomeSlicesTakePartInFastens.
Commands whose completion, with its effect, it states: EPOCH_TICK, BARRIER_COMPLETE, GATHERING_WINDOW_CLOSE, EPOCH_COMMIT,
DBL_ACK, FASTEN_DONE, JOURNAL_WR, JOURNAL_COPY_WRITEBACK. -/
def Obligations.FastensCommitAtSkeinsAndHomes : Prop :=
  EpochsCloseAndCommit ∧ HomeSlicesTakePartInFastens

/-- R180 to R196: the barrier's limit and the doubling engine: the claims BarrierTimeoutActsOnThePly,
DoublingEngineSendsLinesAndImages.
Commands whose completion, with its effect, it states: BARRIER_TIMEOUT, DBL_LINE, DBL_IMAGE, RELEASE, SNOOP_HOLD_EXPIRE. -/
def Obligations.BarriersAndDoubling : Prop :=
  BarrierTimeoutActsOnThePly ∧ DoublingEngineSendsLinesAndImages

/-- R197 to R208: the loss of a skein and what follows it: the claims SkeinLossFollowsItsCauses, RecoveryAfterSkeinLoss.
Commands whose completion, with its effect, it states: L2_CLEAN_TIMEOUT, CHECKPOINT_UNCORRECTABLE, SPLIT_PLY_FAILED, SKEIN_LOSS,
PROMOTION_WRITEBACK_COMPLETE, DIRECTORY_SWEEP, REHOST_PLACEMENT, SUSPENDED_SPINDLE_PLACE, REPAIRING_COMPLETE,
RESERVED_WAY_CLEAN_COMPLETE. -/
def Obligations.SkeinLossAndRecovery : Prop :=
  SkeinLossFollowsItsCauses ∧ RecoveryAfterSkeinLoss

/-- R246 to R257: snoops, their answers and the answers to requests: the claims SkeinsAnswerSnoops, SnoopAnswersEndTransactions,
SkeinsTakeAnswers.
Commands whose completion, with its effect, it states: SNP_SHARE, SNP_INV, SNP_PEEK, RECALL, HOLD_RELEASE, DATA, ACK, NACK,
NACK_RETRY, EVICTING, GRANT_S, GRANT_E, GRANT_UPG, WB_ACK, WR_ACK, PEEK_DATA. -/
def Obligations.SkeinsAnswerAndTakeAnswers : Prop :=
  SkeinsAnswerSnoops ∧ SnoopAnswersEndTransactions ∧ SkeinsTakeAnswers

/-- R243 to R257: the home slices: the claims HomeServesRequests, HomeFollowsHolders.
Commands whose completion, with its effect, it states: RD_SHARED, RD_OWN, UPGRADE, MARK_M, WB, EVICT_CLEAN, RD_PEEK, WR_FULL,
WR_PART. -/
def Obligations.HomesServeAndFollowHolders : Prop :=
  HomeServesRequests ∧ HomeFollowsHolders

/-- R276 to R284: the strands, the mesh and the fabric domains: the claims StrandAndMeshEvents, DrainAndFenceHandshake.
Commands whose completion, with its effect, it states: INTR, MESH_HEADER_UNCORRECTABLE, PACKET_AGE_INCREMENT,
STRAND_BLOCK_REPLAY, HEARTBEAT_MISSING, STRAND_TRAINING, LANE_RETIRE, DRAIN, FENCED, FORCE_FENCE, UNFENCE. -/
def Obligations.StrandsMeshDrainAndFence : Prop :=
  StrandAndMeshEvents ∧ DrainAndFenceHandshake

/-- R340, R350 to R356: completion rings, engines and ledger words: the claims CompletionRingsAreServed,
EnginesAndLedgerWordsFail.
Commands whose completion, with its effect, it states: ENGINE_MISMATCH, ENGINE_RESET_COMPLETE, COMPLETION_POST, CONSUMED_POLL,
COALESCE_TIMEOUT, LEDGER_WORD_UNCORRECTABLE. -/
def Obligations.RingsEnginesAndLedgerWords : Prop :=
  CompletionRingsAreServed ∧ EnginesAndLedgerWordsFail

/-- R383 to R387: operations of the rack: the claims RackOperationsAreServed, RackOperationsEnd.
Commands whose completion, with its effect, it states: OP_READ, OP_WRITE, OP_CONTROL, OP_SENSE, ABORT, RACK_DATA, RESULT, CLEAR,
RETRY_LATER, DEDUP_ENTRY_EXPIRE, RACK_OPERATION_TIMEOUT, RETRY_LATER_WAIT_END. -/
def Obligations.RackOperationsServedAndEnded : Prop :=
  RackOperationsAreServed ∧ RackOperationsEnd
end

