-- ==== Sys2Proof/Laws/Table.lean ====
section
/-!
SUPPORT. Laws of the sparse tables: a read after a write, other keys, and the canonical form.
-/

namespace Sys2Proof.Machine

variable {α : Type}

@[simp] theorem tget_nil (d : α) (k : Nat) : tget d [] k = d := rfl

theorem tget_tins_same (d : α) (t : Tbl α) (k : Nat) (v : α) : tget d (tins t k v) k = v := by
  induction t with
  | nil => simp [tins, tget]
  | cons e r ih =>
    obtain ⟨j, w⟩ := e
    unfold tins
    split
    · simp [tget]
    · split
      · simp [tget]
      · next h => simp [tget, Ne.symm h, ih]

theorem tget_tins_other (d : α) (t : Tbl α) {k j : Nat} (v : α) (h : j ≠ k) : tget d (tins t k v) j = tget d t j := by
  induction t with
  | nil => simp [tins, tget, Ne.symm h]
  | cons e r ih =>
    obtain ⟨i, w⟩ := e
    unfold tins
    split
    · simp [tget, Ne.symm h]
    · split
      · next hk => subst hk; simp [tget, Ne.symm h]
      · simp only [tget, ih]

theorem tget_terase_same (d : α) (t : Tbl α) (k : Nat) : tget d (terase t k) k = d := by
  induction t with
  | nil => rfl
  | cons e r ih =>
    obtain ⟨j, w⟩ := e
    unfold terase
    split
    · exact ih
    · next h => simp [tget, h, ih]

theorem tget_terase_other (d : α) (t : Tbl α) {k j : Nat} (h : j ≠ k) : tget d (terase t k) j = tget d t j := by
  induction t with
  | nil => rfl
  | cons e r ih =>
    obtain ⟨i, w⟩ := e
    unfold terase
    split
    · next hk => subst hk; simp [tget, Ne.symm h, ih]
    · simp only [tget, ih]

@[simp] theorem tget_tset_same [DecidableEq α] (d : α) (t : Tbl α) (k : Nat) (v : α) : tget d (tset d t k v) k = v := by
  unfold tset
  split
  · next h => rw [tget_terase_same, h]
  · exact tget_tins_same d t k v

theorem tget_tset_other [DecidableEq α] (d : α) (t : Tbl α) {k j : Nat} (v : α) (h : j ≠ k) :
    tget d (tset d t k v) j = tget d t j := by
  unfold tset
  split
  · exact tget_terase_other d t h
  · exact tget_tins_other d t v h

/-- A read after a write, at any key. -/
theorem tget_tset [DecidableEq α] (d : α) (t : Tbl α) (k j : Nat) (v : α) :
    tget d (tset d t k v) j = if j = k then v else tget d t j := by
  split
  · next h => rw [h, tget_tset_same]
  · next h => exact tget_tset_other d t v h

@[simp] theorem tget_tmod_same [DecidableEq α] (d : α) (t : Tbl α) (k : Nat) (f : α → α) :
    tget d (tmod d t k f) k = f (tget d t k) := tget_tset_same d t k _

theorem tget_tmod_other [DecidableEq α] (d : α) (t : Tbl α) {k j : Nat} (f : α → α) (h : j ≠ k) :
    tget d (tmod d t k f) j = tget d t j := tget_tset_other d t _ h

/-! ### The canonical form -/

theorem twfFrom_mono [DecidableEq α] (d : α) {m n : Nat} (h : m ≤ n) : ∀ t : Tbl α, twfFrom d n t = true → twfFrom d m t = true
  | [], _ => rfl
  | (j, v) :: r, hw => by
    simp only [twfFrom, Bool.and_eq_true, decide_eq_true_eq] at hw ⊢
    exact ⟨⟨Nat.le_trans h hw.1.1, hw.1.2⟩, hw.2⟩

theorem twfFrom_tins [DecidableEq α] (d : α) (v : α) (hv : v ≠ d) (k : Nat) :
    ∀ (n : Nat) (t : Tbl α), n ≤ k → twfFrom d n t = true → twfFrom d n (tins t k v) = true
  | n, [], hk, _ => by simp [tins, twfFrom, hk, hv]
  | n, (j, w) :: r, hk, hw => by
    simp only [twfFrom, Bool.and_eq_true, decide_eq_true_eq, Bool.not_eq_true', decide_eq_false_iff_not] at hw
    unfold tins
    split
    · next h => simp [twfFrom, hk, hv, hw, h]
    · split
      · next h => subst h; simp [twfFrom, hw, hv]
      · have := twfFrom_tins d v hv k (j + 1) r (by omega) hw.2
        simp [twfFrom, hw, this]

theorem twfFrom_terase [DecidableEq α] (d : α) (k : Nat) :
    ∀ (n : Nat) (t : Tbl α), twfFrom d n t = true → twfFrom d n (terase t k) = true
  | _, [], _ => rfl
  | n, (j, w) :: r, hw => by
    simp only [twfFrom, Bool.and_eq_true, decide_eq_true_eq, Bool.not_eq_true', decide_eq_false_iff_not] at hw
    have ih := twfFrom_terase d k (j + 1) r hw.2
    unfold terase
    split
    · exact twfFrom_mono d (by omega) _ ih
    · simp [twfFrom, hw, ih]

/-- A write keeps the canonical form. -/
theorem twf_tset [DecidableEq α] (d : α) (t : Tbl α) (k : Nat) (v : α) (h : twf d t = true) : twf d (tset d t k v) = true := by
  unfold tset
  split
  · exact twfFrom_terase d k 0 t h
  · next hv => exact twfFrom_tins d v hv k 0 t (Nat.zero_le k) h

theorem twf_tmod [DecidableEq α] (d : α) (t : Tbl α) (k : Nat) (f : α → α) (h : twf d t = true) : twf d (tmod d t k f) = true :=
  twf_tset d t k _ h

@[simp] theorem twf_nil [DecidableEq α] (d : α) : twf d ([] : Tbl α) = true := rfl

/-! ### Steps over a list -/

@[simp] theorem foldS_nil {σ β : Type} (f : β → σ → σ) (s : σ) : foldS [] f s = s := rfl
@[simp] theorem foldS_cons {σ β : Type} (x : β) (xs : List β) (f : β → σ → σ) (s : σ) :
    foldS (x :: xs) f s = foldS xs f (f x s) := rfl

/-- What every step keeps, the whole fold keeps. -/
theorem foldS_ind {σ β : Type} (P : σ → Prop) (f : β → σ → σ) (h : ∀ x s, P s → P (f x s)) :
    ∀ (xs : List β) (s : σ), P s → P (foldS xs f s)
  | [], _, hs => hs
  | x :: xs, s, hs => foldS_ind P f h xs (f x s) (h x s hs)

end Sys2Proof.Machine
end

