-- ==== Sys2Proof/Laws/Memory.lean ====
section
/-!
SUPPORT. Laws of memory: a read after a write, and the canonical form that every memory operation keeps (R38).
-/

namespace Sys2Proof.Machine

@[simp] theorem Mem.byte_setByte_same (m : Mem) (a : Nat) (v : Byte) : (m.setByte a v).byte a = v := by
  simp [Mem.setByte, Mem.byte]

theorem Mem.byte_setByte_other (m : Mem) {a b : Nat} (v : Byte) (h : b ≠ a) : (m.setByte a v).byte b = m.byte b := by
  simp [Mem.setByte, Mem.byte, tget_tset_other _ _ _ h]

@[simp] theorem Mem.setByte_tags (m : Mem) (a : Nat) (v : Byte) : (m.setByte a v).tags = m.tags := rfl
@[simp] theorem Mem.setByte_poison (m : Mem) (a : Nat) (v : Byte) : (m.setByte a v).poison = m.poison := rfl

theorem Mem.wf_setByte (m : Mem) (a : Nat) (v : Byte) (h : m.wf = true) : (m.setByte a v).wf = true := by
  simp only [Mem.wf, Mem.setByte, Bool.and_eq_true] at *
  exact ⟨⟨twf_tset _ _ _ _ h.1.1, h.1.2⟩, h.2⟩

theorem Mem.wf_writeNat : ∀ (n : Nat) (m : Mem) (a x : Nat), m.wf = true → (m.writeNat a n x).wf = true
  | 0, _, _, _, h => h
  | n + 1, m, a, x, h => Mem.wf_writeNat n (m.setByte a _) (a + 1) (x / 256) (Mem.wf_setByte m a _ h)

/-- A write of n bytes leaves every other byte alone. -/
theorem Mem.byte_writeNat_other : ∀ (n : Nat) (m : Mem) (a x b : Nat), (b < a ∨ a + n ≤ b) → (m.writeNat a n x).byte b = m.byte b
  | 0, _, _, _, _, _ => rfl
  | n + 1, m, a, x, b, h => by
    have h1 := Mem.byte_writeNat_other n (m.setByte a (BitVec.ofNat 8 x)) (a + 1) (x / 256) b (by omega)
    have h2 := m.byte_setByte_other (BitVec.ofNat 8 x) (show b ≠ a by omega)
    exact h1.trans h2

theorem twf_foldl_tset {α β : Type} [DecidableEq α] (d : α) (k : β → Nat) (v : β → α) :
    ∀ (xs : List β) (t : Tbl α), twf d t = true → twf d (xs.foldl (fun t g => tset d t (k g) (v g)) t) = true
  | [], _, h => h
  | g :: xs, t, h => twf_foldl_tset d k v xs _ (twf_tset d t (k g) (v g) h)

/-- A whole-line write keeps the canonical form. -/
theorem Mem.wf_setLine (m : Mem) (l : Nat) (v : LineVal) (h : m.wf = true) : (m.setLine l v).wf = true := by
  have h1 := Mem.wf_writeNat 128 m (128 * l) v.data.toNat h
  simp only [Mem.wf, Bool.and_eq_true] at h1
  simp only [Mem.setLine, Mem.wf, Bool.and_eq_true]
  exact ⟨⟨h1.1.1, twf_foldl_tset _ _ _ _ _ h1.1.2⟩, twf_tset _ _ _ _ h1.2⟩

end Sys2Proof.Machine
end

