-- ==== Sys2Proof/Laws/Settle.lean ====
section
/-!
SUPPORT. Laws of the reactions that a command queues (R427, R433): where none is queued, a command's effect is its answer.
-/

namespace Sys2Proof.Machine

theorem settle_of_quiet (s : State) (h : s.faults.todo = []) : s.settle = s := by
  show settleN (262143 + 1) s = s
  unfold settleN
  rw [h]

theorem done_of_quiet (s : State) (h : s.faults.todo = []) : done s = .next s := by
  unfold done
  rw [settle_of_quiet s h]

end Sys2Proof.Machine
end

