-- ==== Sys2Proof/Laws/State.lean ====
section
/-!
SUPPORT. Laws of the named updates of State: what each leaves unchanged, field by field, and what a read after it gives.
-/

namespace Sys2Proof.Machine

variable (s : State)

@[simp] theorem State.setSp_time (i : Nat) (x : Spindle) : (s.setSp i x).time = s.time := rfl
@[simp] theorem State.setSp_life (i : Nat) (x : Spindle) : (s.setSp i x).life = s.life := rfl
@[simp] theorem State.setSp_mem (i : Nat) (x : Spindle) : (s.setSp i x).mem = s.mem := rfl
@[simp] theorem State.setSp_home (i : Nat) (x : Spindle) : (s.setSp i x).home = s.home := rfl
@[simp] theorem State.setSp_fab (i : Nat) (x : Spindle) : (s.setSp i x).fab = s.fab := rfl
@[simp] theorem State.setSp_mcs (i : Nat) (x : Spindle) : (s.setSp i x).mcs = s.mcs := rfl
@[simp] theorem State.setSp_chan (i : Nat) (x : Spindle) : (s.setSp i x).chan = s.chan := rfl
@[simp] theorem State.setSp_links (i : Nat) (x : Spindle) : (s.setSp i x).links = s.links := rfl
@[simp] theorem State.setSp_tenants (i : Nat) (x : Spindle) : (s.setSp i x).tenants = s.tenants := rfl
@[simp] theorem State.setSp_faults (i : Nat) (x : Spindle) : (s.setSp i x).faults = s.faults := rfl
@[simp] theorem State.setSp_jalif (i : Nat) (x : Spindle) : (s.setSp i x).jalif = s.jalif := rfl
@[simp] theorem State.setSp_params (i : Nat) (x : Spindle) : (s.setSp i x).params = s.params := rfl
@[simp] theorem State.setSp_power (i : Nat) (x : Spindle) : (s.setSp i x).power = s.power := rfl
@[simp] theorem State.setSp_pins (i : Nat) (x : Spindle) : (s.setSp i x).pins = s.pins := rfl
@[simp] theorem State.setSp_hubGen (i : Nat) (x : Spindle) : (s.setSp i x).hubGen = s.hubGen := rfl
@[simp] theorem State.setSp_freeCtr (i : Nat) (x : Spindle) : (s.setSp i x).freeCtr = s.freeCtr := rfl
@[simp] theorem State.setSp_pending (i : Nat) (x : Spindle) : (s.setSp i x).pending = s.pending := rfl
@[simp] theorem State.setSp_ply (i : Nat) (x : Spindle) (m j : Nat) : (s.setSp i x).ply m j = s.ply m j := rfl
@[simp] theorem State.setSp_sk (i : Nat) (x : Spindle) (j : Nat) : (s.setSp i x).sk j = s.sk j := rfl
@[simp] theorem State.setSp_dirOf (i : Nat) (x : Spindle) (j : Nat) : (s.setSp i x).dirOf j = s.dirOf j := rfl
@[simp] theorem State.setSp_homeOf (i : Nat) (x : Spindle) (j : Nat) : (s.setSp i x).homeOf j = s.homeOf j := rfl
@[simp] theorem State.setSp_mch (i : Nat) (x : Spindle) (j : Nat) : (s.setSp i x).mch j = s.mch j := rfl
@[simp] theorem State.setSp_tenant (i : Nat) (x : Spindle) (j : Nat) : (s.setSp i x).tenant j = s.tenant j := rfl
@[simp] theorem State.setSp_entry (i : Nat) (x : Spindle) (j : Nat) : (s.setSp i x).entry j = s.entry j := rfl
@[simp] theorem State.setSp_engine (i : Nat) (x : Spindle) (j : Nat) : (s.setSp i x).engine j = s.engine j := rfl
@[simp] theorem State.setSp_device (i : Nat) (x : Spindle) (j : Nat) : (s.setSp i x).device j = s.device j := rfl
@[simp] theorem State.setSp_flexP (i : Nat) (x : Spindle) (j : Nat) : (s.setSp i x).flexP j = s.flexP j := rfl
@[simp] theorem State.setSp_rack (i : Nat) (x : Spindle) (j : Nat) : (s.setSp i x).rack j = s.rack j := rfl
@[simp] theorem State.setSp_endpoint (i : Nat) (x : Spindle) (j : Nat) : (s.setSp i x).endpoint j = s.endpoint j := rfl
@[simp] theorem State.setSp_site (i : Nat) (x : Spindle) (j : Nat) : (s.setSp i x).site j = s.site j := rfl
@[simp] theorem State.setSp_mbox (i : Nat) (x : Spindle) (j : Nat) : (s.setSp i x).mbox j = s.mbox j := rfl

@[simp] theorem State.modSp_time (i : Nat) (f : Spindle → Spindle) : (s.modSp i f).time = s.time := rfl
@[simp] theorem State.modSp_life (i : Nat) (f : Spindle → Spindle) : (s.modSp i f).life = s.life := rfl
@[simp] theorem State.modSp_mem (i : Nat) (f : Spindle → Spindle) : (s.modSp i f).mem = s.mem := rfl
@[simp] theorem State.modSp_home (i : Nat) (f : Spindle → Spindle) : (s.modSp i f).home = s.home := rfl
@[simp] theorem State.modSp_fab (i : Nat) (f : Spindle → Spindle) : (s.modSp i f).fab = s.fab := rfl
@[simp] theorem State.modSp_mcs (i : Nat) (f : Spindle → Spindle) : (s.modSp i f).mcs = s.mcs := rfl
@[simp] theorem State.modSp_chan (i : Nat) (f : Spindle → Spindle) : (s.modSp i f).chan = s.chan := rfl
@[simp] theorem State.modSp_links (i : Nat) (f : Spindle → Spindle) : (s.modSp i f).links = s.links := rfl
@[simp] theorem State.modSp_tenants (i : Nat) (f : Spindle → Spindle) : (s.modSp i f).tenants = s.tenants := rfl
@[simp] theorem State.modSp_faults (i : Nat) (f : Spindle → Spindle) : (s.modSp i f).faults = s.faults := rfl
@[simp] theorem State.modSp_jalif (i : Nat) (f : Spindle → Spindle) : (s.modSp i f).jalif = s.jalif := rfl
@[simp] theorem State.modSp_params (i : Nat) (f : Spindle → Spindle) : (s.modSp i f).params = s.params := rfl
@[simp] theorem State.modSp_power (i : Nat) (f : Spindle → Spindle) : (s.modSp i f).power = s.power := rfl
@[simp] theorem State.modSp_pins (i : Nat) (f : Spindle → Spindle) : (s.modSp i f).pins = s.pins := rfl
@[simp] theorem State.modSp_hubGen (i : Nat) (f : Spindle → Spindle) : (s.modSp i f).hubGen = s.hubGen := rfl
@[simp] theorem State.modSp_freeCtr (i : Nat) (f : Spindle → Spindle) : (s.modSp i f).freeCtr = s.freeCtr := rfl
@[simp] theorem State.modSp_pending (i : Nat) (f : Spindle → Spindle) : (s.modSp i f).pending = s.pending := rfl
@[simp] theorem State.modSp_ply (i : Nat) (f : Spindle → Spindle) (m j : Nat) : (s.modSp i f).ply m j = s.ply m j := rfl
@[simp] theorem State.modSp_sk (i : Nat) (f : Spindle → Spindle) (j : Nat) : (s.modSp i f).sk j = s.sk j := rfl
@[simp] theorem State.modSp_dirOf (i : Nat) (f : Spindle → Spindle) (j : Nat) : (s.modSp i f).dirOf j = s.dirOf j := rfl
@[simp] theorem State.modSp_homeOf (i : Nat) (f : Spindle → Spindle) (j : Nat) : (s.modSp i f).homeOf j = s.homeOf j := rfl
@[simp] theorem State.modSp_mch (i : Nat) (f : Spindle → Spindle) (j : Nat) : (s.modSp i f).mch j = s.mch j := rfl
@[simp] theorem State.modSp_tenant (i : Nat) (f : Spindle → Spindle) (j : Nat) : (s.modSp i f).tenant j = s.tenant j := rfl
@[simp] theorem State.modSp_entry (i : Nat) (f : Spindle → Spindle) (j : Nat) : (s.modSp i f).entry j = s.entry j := rfl
@[simp] theorem State.modSp_engine (i : Nat) (f : Spindle → Spindle) (j : Nat) : (s.modSp i f).engine j = s.engine j := rfl
@[simp] theorem State.modSp_device (i : Nat) (f : Spindle → Spindle) (j : Nat) : (s.modSp i f).device j = s.device j := rfl
@[simp] theorem State.modSp_flexP (i : Nat) (f : Spindle → Spindle) (j : Nat) : (s.modSp i f).flexP j = s.flexP j := rfl
@[simp] theorem State.modSp_rack (i : Nat) (f : Spindle → Spindle) (j : Nat) : (s.modSp i f).rack j = s.rack j := rfl
@[simp] theorem State.modSp_endpoint (i : Nat) (f : Spindle → Spindle) (j : Nat) : (s.modSp i f).endpoint j = s.endpoint j := rfl
@[simp] theorem State.modSp_site (i : Nat) (f : Spindle → Spindle) (j : Nat) : (s.modSp i f).site j = s.site j := rfl
@[simp] theorem State.modSp_mbox (i : Nat) (f : Spindle → Spindle) (j : Nat) : (s.modSp i f).mbox j = s.mbox j := rfl

@[simp] theorem State.modPly_time (k p : Nat) (f : Ply → Ply) : (s.modPly k p f).time = s.time := rfl
@[simp] theorem State.modPly_life (k p : Nat) (f : Ply → Ply) : (s.modPly k p f).life = s.life := rfl
@[simp] theorem State.modPly_mem (k p : Nat) (f : Ply → Ply) : (s.modPly k p f).mem = s.mem := rfl
@[simp] theorem State.modPly_home (k p : Nat) (f : Ply → Ply) : (s.modPly k p f).home = s.home := rfl
@[simp] theorem State.modPly_fab (k p : Nat) (f : Ply → Ply) : (s.modPly k p f).fab = s.fab := rfl
@[simp] theorem State.modPly_mcs (k p : Nat) (f : Ply → Ply) : (s.modPly k p f).mcs = s.mcs := rfl
@[simp] theorem State.modPly_chan (k p : Nat) (f : Ply → Ply) : (s.modPly k p f).chan = s.chan := rfl
@[simp] theorem State.modPly_links (k p : Nat) (f : Ply → Ply) : (s.modPly k p f).links = s.links := rfl
@[simp] theorem State.modPly_tenants (k p : Nat) (f : Ply → Ply) : (s.modPly k p f).tenants = s.tenants := rfl
@[simp] theorem State.modPly_faults (k p : Nat) (f : Ply → Ply) : (s.modPly k p f).faults = s.faults := rfl
@[simp] theorem State.modPly_jalif (k p : Nat) (f : Ply → Ply) : (s.modPly k p f).jalif = s.jalif := rfl
@[simp] theorem State.modPly_params (k p : Nat) (f : Ply → Ply) : (s.modPly k p f).params = s.params := rfl
@[simp] theorem State.modPly_power (k p : Nat) (f : Ply → Ply) : (s.modPly k p f).power = s.power := rfl
@[simp] theorem State.modPly_pins (k p : Nat) (f : Ply → Ply) : (s.modPly k p f).pins = s.pins := rfl
@[simp] theorem State.modPly_hubGen (k p : Nat) (f : Ply → Ply) : (s.modPly k p f).hubGen = s.hubGen := rfl
@[simp] theorem State.modPly_freeCtr (k p : Nat) (f : Ply → Ply) : (s.modPly k p f).freeCtr = s.freeCtr := rfl
@[simp] theorem State.modPly_pending (k p : Nat) (f : Ply → Ply) : (s.modPly k p f).pending = s.pending := rfl
@[simp] theorem State.modPly_sp (k p : Nat) (f : Ply → Ply) (j : Nat) : (s.modPly k p f).sp j = s.sp j := rfl
@[simp] theorem State.modPly_sk (k p : Nat) (f : Ply → Ply) (j : Nat) : (s.modPly k p f).sk j = s.sk j := rfl
@[simp] theorem State.modPly_dirOf (k p : Nat) (f : Ply → Ply) (j : Nat) : (s.modPly k p f).dirOf j = s.dirOf j := rfl
@[simp] theorem State.modPly_homeOf (k p : Nat) (f : Ply → Ply) (j : Nat) : (s.modPly k p f).homeOf j = s.homeOf j := rfl
@[simp] theorem State.modPly_mch (k p : Nat) (f : Ply → Ply) (j : Nat) : (s.modPly k p f).mch j = s.mch j := rfl
@[simp] theorem State.modPly_tenant (k p : Nat) (f : Ply → Ply) (j : Nat) : (s.modPly k p f).tenant j = s.tenant j := rfl
@[simp] theorem State.modPly_entry (k p : Nat) (f : Ply → Ply) (j : Nat) : (s.modPly k p f).entry j = s.entry j := rfl
@[simp] theorem State.modPly_engine (k p : Nat) (f : Ply → Ply) (j : Nat) : (s.modPly k p f).engine j = s.engine j := rfl
@[simp] theorem State.modPly_device (k p : Nat) (f : Ply → Ply) (j : Nat) : (s.modPly k p f).device j = s.device j := rfl
@[simp] theorem State.modPly_flexP (k p : Nat) (f : Ply → Ply) (j : Nat) : (s.modPly k p f).flexP j = s.flexP j := rfl
@[simp] theorem State.modPly_rack (k p : Nat) (f : Ply → Ply) (j : Nat) : (s.modPly k p f).rack j = s.rack j := rfl
@[simp] theorem State.modPly_endpoint (k p : Nat) (f : Ply → Ply) (j : Nat) : (s.modPly k p f).endpoint j = s.endpoint j := rfl
@[simp] theorem State.modPly_site (k p : Nat) (f : Ply → Ply) (j : Nat) : (s.modPly k p f).site j = s.site j := rfl
@[simp] theorem State.modPly_mbox (k p : Nat) (f : Ply → Ply) (j : Nat) : (s.modPly k p f).mbox j = s.mbox j := rfl

@[simp] theorem State.modSk_time (k : Nat) (f : Skein → Skein) : (s.modSk k f).time = s.time := rfl
@[simp] theorem State.modSk_life (k : Nat) (f : Skein → Skein) : (s.modSk k f).life = s.life := rfl
@[simp] theorem State.modSk_mem (k : Nat) (f : Skein → Skein) : (s.modSk k f).mem = s.mem := rfl
@[simp] theorem State.modSk_home (k : Nat) (f : Skein → Skein) : (s.modSk k f).home = s.home := rfl
@[simp] theorem State.modSk_fab (k : Nat) (f : Skein → Skein) : (s.modSk k f).fab = s.fab := rfl
@[simp] theorem State.modSk_mcs (k : Nat) (f : Skein → Skein) : (s.modSk k f).mcs = s.mcs := rfl
@[simp] theorem State.modSk_chan (k : Nat) (f : Skein → Skein) : (s.modSk k f).chan = s.chan := rfl
@[simp] theorem State.modSk_links (k : Nat) (f : Skein → Skein) : (s.modSk k f).links = s.links := rfl
@[simp] theorem State.modSk_tenants (k : Nat) (f : Skein → Skein) : (s.modSk k f).tenants = s.tenants := rfl
@[simp] theorem State.modSk_faults (k : Nat) (f : Skein → Skein) : (s.modSk k f).faults = s.faults := rfl
@[simp] theorem State.modSk_jalif (k : Nat) (f : Skein → Skein) : (s.modSk k f).jalif = s.jalif := rfl
@[simp] theorem State.modSk_params (k : Nat) (f : Skein → Skein) : (s.modSk k f).params = s.params := rfl
@[simp] theorem State.modSk_power (k : Nat) (f : Skein → Skein) : (s.modSk k f).power = s.power := rfl
@[simp] theorem State.modSk_pins (k : Nat) (f : Skein → Skein) : (s.modSk k f).pins = s.pins := rfl
@[simp] theorem State.modSk_hubGen (k : Nat) (f : Skein → Skein) : (s.modSk k f).hubGen = s.hubGen := rfl
@[simp] theorem State.modSk_freeCtr (k : Nat) (f : Skein → Skein) : (s.modSk k f).freeCtr = s.freeCtr := rfl
@[simp] theorem State.modSk_pending (k : Nat) (f : Skein → Skein) : (s.modSk k f).pending = s.pending := rfl
@[simp] theorem State.modSk_sp (k : Nat) (f : Skein → Skein) (j : Nat) : (s.modSk k f).sp j = s.sp j := rfl
@[simp] theorem State.modSk_ply (k : Nat) (f : Skein → Skein) (m j : Nat) : (s.modSk k f).ply m j = s.ply m j := rfl
@[simp] theorem State.modSk_dirOf (k : Nat) (f : Skein → Skein) (j : Nat) : (s.modSk k f).dirOf j = s.dirOf j := rfl
@[simp] theorem State.modSk_homeOf (k : Nat) (f : Skein → Skein) (j : Nat) : (s.modSk k f).homeOf j = s.homeOf j := rfl
@[simp] theorem State.modSk_mch (k : Nat) (f : Skein → Skein) (j : Nat) : (s.modSk k f).mch j = s.mch j := rfl
@[simp] theorem State.modSk_tenant (k : Nat) (f : Skein → Skein) (j : Nat) : (s.modSk k f).tenant j = s.tenant j := rfl
@[simp] theorem State.modSk_entry (k : Nat) (f : Skein → Skein) (j : Nat) : (s.modSk k f).entry j = s.entry j := rfl
@[simp] theorem State.modSk_engine (k : Nat) (f : Skein → Skein) (j : Nat) : (s.modSk k f).engine j = s.engine j := rfl
@[simp] theorem State.modSk_device (k : Nat) (f : Skein → Skein) (j : Nat) : (s.modSk k f).device j = s.device j := rfl
@[simp] theorem State.modSk_flexP (k : Nat) (f : Skein → Skein) (j : Nat) : (s.modSk k f).flexP j = s.flexP j := rfl
@[simp] theorem State.modSk_rack (k : Nat) (f : Skein → Skein) (j : Nat) : (s.modSk k f).rack j = s.rack j := rfl
@[simp] theorem State.modSk_endpoint (k : Nat) (f : Skein → Skein) (j : Nat) : (s.modSk k f).endpoint j = s.endpoint j := rfl
@[simp] theorem State.modSk_site (k : Nat) (f : Skein → Skein) (j : Nat) : (s.modSk k f).site j = s.site j := rfl
@[simp] theorem State.modSk_mbox (k : Nat) (f : Skein → Skein) (j : Nat) : (s.modSk k f).mbox j = s.mbox j := rfl

@[simp] theorem State.modDir_time (l : Nat) (f : DirEntry → DirEntry) : (s.modDir l f).time = s.time := rfl
@[simp] theorem State.modDir_life (l : Nat) (f : DirEntry → DirEntry) : (s.modDir l f).life = s.life := rfl
@[simp] theorem State.modDir_mem (l : Nat) (f : DirEntry → DirEntry) : (s.modDir l f).mem = s.mem := rfl
@[simp] theorem State.modDir_cores (l : Nat) (f : DirEntry → DirEntry) : (s.modDir l f).cores = s.cores := rfl
@[simp] theorem State.modDir_fab (l : Nat) (f : DirEntry → DirEntry) : (s.modDir l f).fab = s.fab := rfl
@[simp] theorem State.modDir_mcs (l : Nat) (f : DirEntry → DirEntry) : (s.modDir l f).mcs = s.mcs := rfl
@[simp] theorem State.modDir_chan (l : Nat) (f : DirEntry → DirEntry) : (s.modDir l f).chan = s.chan := rfl
@[simp] theorem State.modDir_links (l : Nat) (f : DirEntry → DirEntry) : (s.modDir l f).links = s.links := rfl
@[simp] theorem State.modDir_tenants (l : Nat) (f : DirEntry → DirEntry) : (s.modDir l f).tenants = s.tenants := rfl
@[simp] theorem State.modDir_faults (l : Nat) (f : DirEntry → DirEntry) : (s.modDir l f).faults = s.faults := rfl
@[simp] theorem State.modDir_jalif (l : Nat) (f : DirEntry → DirEntry) : (s.modDir l f).jalif = s.jalif := rfl
@[simp] theorem State.modDir_params (l : Nat) (f : DirEntry → DirEntry) : (s.modDir l f).params = s.params := rfl
@[simp] theorem State.modDir_power (l : Nat) (f : DirEntry → DirEntry) : (s.modDir l f).power = s.power := rfl
@[simp] theorem State.modDir_pins (l : Nat) (f : DirEntry → DirEntry) : (s.modDir l f).pins = s.pins := rfl
@[simp] theorem State.modDir_hubGen (l : Nat) (f : DirEntry → DirEntry) : (s.modDir l f).hubGen = s.hubGen := rfl
@[simp] theorem State.modDir_freeCtr (l : Nat) (f : DirEntry → DirEntry) : (s.modDir l f).freeCtr = s.freeCtr := rfl
@[simp] theorem State.modDir_pending (l : Nat) (f : DirEntry → DirEntry) : (s.modDir l f).pending = s.pending := rfl
@[simp] theorem State.modDir_sp (l : Nat) (f : DirEntry → DirEntry) (j : Nat) : (s.modDir l f).sp j = s.sp j := rfl
@[simp] theorem State.modDir_ply (l : Nat) (f : DirEntry → DirEntry) (m j : Nat) : (s.modDir l f).ply m j = s.ply m j := rfl
@[simp] theorem State.modDir_sk (l : Nat) (f : DirEntry → DirEntry) (j : Nat) : (s.modDir l f).sk j = s.sk j := rfl
@[simp] theorem State.modDir_homeOf (l : Nat) (f : DirEntry → DirEntry) (j : Nat) : (s.modDir l f).homeOf j = s.homeOf j := rfl
@[simp] theorem State.modDir_mch (l : Nat) (f : DirEntry → DirEntry) (j : Nat) : (s.modDir l f).mch j = s.mch j := rfl
@[simp] theorem State.modDir_tenant (l : Nat) (f : DirEntry → DirEntry) (j : Nat) : (s.modDir l f).tenant j = s.tenant j := rfl
@[simp] theorem State.modDir_entry (l : Nat) (f : DirEntry → DirEntry) (j : Nat) : (s.modDir l f).entry j = s.entry j := rfl
@[simp] theorem State.modDir_engine (l : Nat) (f : DirEntry → DirEntry) (j : Nat) : (s.modDir l f).engine j = s.engine j := rfl
@[simp] theorem State.modDir_device (l : Nat) (f : DirEntry → DirEntry) (j : Nat) : (s.modDir l f).device j = s.device j := rfl
@[simp] theorem State.modDir_flexP (l : Nat) (f : DirEntry → DirEntry) (j : Nat) : (s.modDir l f).flexP j = s.flexP j := rfl
@[simp] theorem State.modDir_rack (l : Nat) (f : DirEntry → DirEntry) (j : Nat) : (s.modDir l f).rack j = s.rack j := rfl
@[simp] theorem State.modDir_endpoint (l : Nat) (f : DirEntry → DirEntry) (j : Nat) : (s.modDir l f).endpoint j = s.endpoint j := rfl
@[simp] theorem State.modDir_site (l : Nat) (f : DirEntry → DirEntry) (j : Nat) : (s.modDir l f).site j = s.site j := rfl
@[simp] theorem State.modDir_mbox (l : Nat) (f : DirEntry → DirEntry) (j : Nat) : (s.modDir l f).mbox j = s.mbox j := rfl

@[simp] theorem State.modHome_time (n : Nat) (f : HomeLog → HomeLog) : (s.modHome n f).time = s.time := rfl
@[simp] theorem State.modHome_life (n : Nat) (f : HomeLog → HomeLog) : (s.modHome n f).life = s.life := rfl
@[simp] theorem State.modHome_mem (n : Nat) (f : HomeLog → HomeLog) : (s.modHome n f).mem = s.mem := rfl
@[simp] theorem State.modHome_cores (n : Nat) (f : HomeLog → HomeLog) : (s.modHome n f).cores = s.cores := rfl
@[simp] theorem State.modHome_fab (n : Nat) (f : HomeLog → HomeLog) : (s.modHome n f).fab = s.fab := rfl
@[simp] theorem State.modHome_mcs (n : Nat) (f : HomeLog → HomeLog) : (s.modHome n f).mcs = s.mcs := rfl
@[simp] theorem State.modHome_chan (n : Nat) (f : HomeLog → HomeLog) : (s.modHome n f).chan = s.chan := rfl
@[simp] theorem State.modHome_links (n : Nat) (f : HomeLog → HomeLog) : (s.modHome n f).links = s.links := rfl
@[simp] theorem State.modHome_tenants (n : Nat) (f : HomeLog → HomeLog) : (s.modHome n f).tenants = s.tenants := rfl
@[simp] theorem State.modHome_faults (n : Nat) (f : HomeLog → HomeLog) : (s.modHome n f).faults = s.faults := rfl
@[simp] theorem State.modHome_jalif (n : Nat) (f : HomeLog → HomeLog) : (s.modHome n f).jalif = s.jalif := rfl
@[simp] theorem State.modHome_params (n : Nat) (f : HomeLog → HomeLog) : (s.modHome n f).params = s.params := rfl
@[simp] theorem State.modHome_power (n : Nat) (f : HomeLog → HomeLog) : (s.modHome n f).power = s.power := rfl
@[simp] theorem State.modHome_pins (n : Nat) (f : HomeLog → HomeLog) : (s.modHome n f).pins = s.pins := rfl
@[simp] theorem State.modHome_hubGen (n : Nat) (f : HomeLog → HomeLog) : (s.modHome n f).hubGen = s.hubGen := rfl
@[simp] theorem State.modHome_freeCtr (n : Nat) (f : HomeLog → HomeLog) : (s.modHome n f).freeCtr = s.freeCtr := rfl
@[simp] theorem State.modHome_pending (n : Nat) (f : HomeLog → HomeLog) : (s.modHome n f).pending = s.pending := rfl
@[simp] theorem State.modHome_sp (n : Nat) (f : HomeLog → HomeLog) (j : Nat) : (s.modHome n f).sp j = s.sp j := rfl
@[simp] theorem State.modHome_ply (n : Nat) (f : HomeLog → HomeLog) (m j : Nat) : (s.modHome n f).ply m j = s.ply m j := rfl
@[simp] theorem State.modHome_sk (n : Nat) (f : HomeLog → HomeLog) (j : Nat) : (s.modHome n f).sk j = s.sk j := rfl
@[simp] theorem State.modHome_dirOf (n : Nat) (f : HomeLog → HomeLog) (j : Nat) : (s.modHome n f).dirOf j = s.dirOf j := rfl
@[simp] theorem State.modHome_mch (n : Nat) (f : HomeLog → HomeLog) (j : Nat) : (s.modHome n f).mch j = s.mch j := rfl
@[simp] theorem State.modHome_tenant (n : Nat) (f : HomeLog → HomeLog) (j : Nat) : (s.modHome n f).tenant j = s.tenant j := rfl
@[simp] theorem State.modHome_entry (n : Nat) (f : HomeLog → HomeLog) (j : Nat) : (s.modHome n f).entry j = s.entry j := rfl
@[simp] theorem State.modHome_engine (n : Nat) (f : HomeLog → HomeLog) (j : Nat) : (s.modHome n f).engine j = s.engine j := rfl
@[simp] theorem State.modHome_device (n : Nat) (f : HomeLog → HomeLog) (j : Nat) : (s.modHome n f).device j = s.device j := rfl
@[simp] theorem State.modHome_flexP (n : Nat) (f : HomeLog → HomeLog) (j : Nat) : (s.modHome n f).flexP j = s.flexP j := rfl
@[simp] theorem State.modHome_rack (n : Nat) (f : HomeLog → HomeLog) (j : Nat) : (s.modHome n f).rack j = s.rack j := rfl
@[simp] theorem State.modHome_endpoint (n : Nat) (f : HomeLog → HomeLog) (j : Nat) : (s.modHome n f).endpoint j = s.endpoint j := rfl
@[simp] theorem State.modHome_site (n : Nat) (f : HomeLog → HomeLog) (j : Nat) : (s.modHome n f).site j = s.site j := rfl
@[simp] theorem State.modHome_mbox (n : Nat) (f : HomeLog → HomeLog) (j : Nat) : (s.modHome n f).mbox j = s.mbox j := rfl

@[simp] theorem State.modMch_time (c : Nat) (f : MemCh → MemCh) : (s.modMch c f).time = s.time := rfl
@[simp] theorem State.modMch_life (c : Nat) (f : MemCh → MemCh) : (s.modMch c f).life = s.life := rfl
@[simp] theorem State.modMch_mem (c : Nat) (f : MemCh → MemCh) : (s.modMch c f).mem = s.mem := rfl
@[simp] theorem State.modMch_cores (c : Nat) (f : MemCh → MemCh) : (s.modMch c f).cores = s.cores := rfl
@[simp] theorem State.modMch_home (c : Nat) (f : MemCh → MemCh) : (s.modMch c f).home = s.home := rfl
@[simp] theorem State.modMch_fab (c : Nat) (f : MemCh → MemCh) : (s.modMch c f).fab = s.fab := rfl
@[simp] theorem State.modMch_chan (c : Nat) (f : MemCh → MemCh) : (s.modMch c f).chan = s.chan := rfl
@[simp] theorem State.modMch_links (c : Nat) (f : MemCh → MemCh) : (s.modMch c f).links = s.links := rfl
@[simp] theorem State.modMch_tenants (c : Nat) (f : MemCh → MemCh) : (s.modMch c f).tenants = s.tenants := rfl
@[simp] theorem State.modMch_faults (c : Nat) (f : MemCh → MemCh) : (s.modMch c f).faults = s.faults := rfl
@[simp] theorem State.modMch_jalif (c : Nat) (f : MemCh → MemCh) : (s.modMch c f).jalif = s.jalif := rfl
@[simp] theorem State.modMch_params (c : Nat) (f : MemCh → MemCh) : (s.modMch c f).params = s.params := rfl
@[simp] theorem State.modMch_power (c : Nat) (f : MemCh → MemCh) : (s.modMch c f).power = s.power := rfl
@[simp] theorem State.modMch_pins (c : Nat) (f : MemCh → MemCh) : (s.modMch c f).pins = s.pins := rfl
@[simp] theorem State.modMch_hubGen (c : Nat) (f : MemCh → MemCh) : (s.modMch c f).hubGen = s.hubGen := rfl
@[simp] theorem State.modMch_freeCtr (c : Nat) (f : MemCh → MemCh) : (s.modMch c f).freeCtr = s.freeCtr := rfl
@[simp] theorem State.modMch_pending (c : Nat) (f : MemCh → MemCh) : (s.modMch c f).pending = s.pending := rfl
@[simp] theorem State.modMch_sp (c : Nat) (f : MemCh → MemCh) (j : Nat) : (s.modMch c f).sp j = s.sp j := rfl
@[simp] theorem State.modMch_ply (c : Nat) (f : MemCh → MemCh) (m j : Nat) : (s.modMch c f).ply m j = s.ply m j := rfl
@[simp] theorem State.modMch_sk (c : Nat) (f : MemCh → MemCh) (j : Nat) : (s.modMch c f).sk j = s.sk j := rfl
@[simp] theorem State.modMch_dirOf (c : Nat) (f : MemCh → MemCh) (j : Nat) : (s.modMch c f).dirOf j = s.dirOf j := rfl
@[simp] theorem State.modMch_homeOf (c : Nat) (f : MemCh → MemCh) (j : Nat) : (s.modMch c f).homeOf j = s.homeOf j := rfl
@[simp] theorem State.modMch_tenant (c : Nat) (f : MemCh → MemCh) (j : Nat) : (s.modMch c f).tenant j = s.tenant j := rfl
@[simp] theorem State.modMch_entry (c : Nat) (f : MemCh → MemCh) (j : Nat) : (s.modMch c f).entry j = s.entry j := rfl
@[simp] theorem State.modMch_engine (c : Nat) (f : MemCh → MemCh) (j : Nat) : (s.modMch c f).engine j = s.engine j := rfl
@[simp] theorem State.modMch_device (c : Nat) (f : MemCh → MemCh) (j : Nat) : (s.modMch c f).device j = s.device j := rfl
@[simp] theorem State.modMch_flexP (c : Nat) (f : MemCh → MemCh) (j : Nat) : (s.modMch c f).flexP j = s.flexP j := rfl
@[simp] theorem State.modMch_rack (c : Nat) (f : MemCh → MemCh) (j : Nat) : (s.modMch c f).rack j = s.rack j := rfl
@[simp] theorem State.modMch_endpoint (c : Nat) (f : MemCh → MemCh) (j : Nat) : (s.modMch c f).endpoint j = s.endpoint j := rfl
@[simp] theorem State.modMch_site (c : Nat) (f : MemCh → MemCh) (j : Nat) : (s.modMch c f).site j = s.site j := rfl
@[simp] theorem State.modMch_mbox (c : Nat) (f : MemCh → MemCh) (j : Nat) : (s.modMch c f).mbox j = s.mbox j := rfl

@[simp] theorem State.modTenant_time (p : Nat) (f : Tenant → Tenant) : (s.modTenant p f).time = s.time := rfl
@[simp] theorem State.modTenant_life (p : Nat) (f : Tenant → Tenant) : (s.modTenant p f).life = s.life := rfl
@[simp] theorem State.modTenant_mem (p : Nat) (f : Tenant → Tenant) : (s.modTenant p f).mem = s.mem := rfl
@[simp] theorem State.modTenant_cores (p : Nat) (f : Tenant → Tenant) : (s.modTenant p f).cores = s.cores := rfl
@[simp] theorem State.modTenant_home (p : Nat) (f : Tenant → Tenant) : (s.modTenant p f).home = s.home := rfl
@[simp] theorem State.modTenant_fab (p : Nat) (f : Tenant → Tenant) : (s.modTenant p f).fab = s.fab := rfl
@[simp] theorem State.modTenant_mcs (p : Nat) (f : Tenant → Tenant) : (s.modTenant p f).mcs = s.mcs := rfl
@[simp] theorem State.modTenant_chan (p : Nat) (f : Tenant → Tenant) : (s.modTenant p f).chan = s.chan := rfl
@[simp] theorem State.modTenant_links (p : Nat) (f : Tenant → Tenant) : (s.modTenant p f).links = s.links := rfl
@[simp] theorem State.modTenant_faults (p : Nat) (f : Tenant → Tenant) : (s.modTenant p f).faults = s.faults := rfl
@[simp] theorem State.modTenant_jalif (p : Nat) (f : Tenant → Tenant) : (s.modTenant p f).jalif = s.jalif := rfl
@[simp] theorem State.modTenant_params (p : Nat) (f : Tenant → Tenant) : (s.modTenant p f).params = s.params := rfl
@[simp] theorem State.modTenant_power (p : Nat) (f : Tenant → Tenant) : (s.modTenant p f).power = s.power := rfl
@[simp] theorem State.modTenant_pins (p : Nat) (f : Tenant → Tenant) : (s.modTenant p f).pins = s.pins := rfl
@[simp] theorem State.modTenant_hubGen (p : Nat) (f : Tenant → Tenant) : (s.modTenant p f).hubGen = s.hubGen := rfl
@[simp] theorem State.modTenant_freeCtr (p : Nat) (f : Tenant → Tenant) : (s.modTenant p f).freeCtr = s.freeCtr := rfl
@[simp] theorem State.modTenant_pending (p : Nat) (f : Tenant → Tenant) : (s.modTenant p f).pending = s.pending := rfl
@[simp] theorem State.modTenant_sp (p : Nat) (f : Tenant → Tenant) (j : Nat) : (s.modTenant p f).sp j = s.sp j := rfl
@[simp] theorem State.modTenant_ply (p : Nat) (f : Tenant → Tenant) (m j : Nat) : (s.modTenant p f).ply m j = s.ply m j := rfl
@[simp] theorem State.modTenant_sk (p : Nat) (f : Tenant → Tenant) (j : Nat) : (s.modTenant p f).sk j = s.sk j := rfl
@[simp] theorem State.modTenant_dirOf (p : Nat) (f : Tenant → Tenant) (j : Nat) : (s.modTenant p f).dirOf j = s.dirOf j := rfl
@[simp] theorem State.modTenant_homeOf (p : Nat) (f : Tenant → Tenant) (j : Nat) : (s.modTenant p f).homeOf j = s.homeOf j := rfl
@[simp] theorem State.modTenant_mch (p : Nat) (f : Tenant → Tenant) (j : Nat) : (s.modTenant p f).mch j = s.mch j := rfl
@[simp] theorem State.modTenant_entry (p : Nat) (f : Tenant → Tenant) (j : Nat) : (s.modTenant p f).entry j = s.entry j := rfl
@[simp] theorem State.modTenant_engine (p : Nat) (f : Tenant → Tenant) (j : Nat) : (s.modTenant p f).engine j = s.engine j := rfl
@[simp] theorem State.modTenant_device (p : Nat) (f : Tenant → Tenant) (j : Nat) : (s.modTenant p f).device j = s.device j := rfl
@[simp] theorem State.modTenant_flexP (p : Nat) (f : Tenant → Tenant) (j : Nat) : (s.modTenant p f).flexP j = s.flexP j := rfl
@[simp] theorem State.modTenant_rack (p : Nat) (f : Tenant → Tenant) (j : Nat) : (s.modTenant p f).rack j = s.rack j := rfl
@[simp] theorem State.modTenant_endpoint (p : Nat) (f : Tenant → Tenant) (j : Nat) : (s.modTenant p f).endpoint j = s.endpoint j := rfl
@[simp] theorem State.modTenant_site (p : Nat) (f : Tenant → Tenant) (j : Nat) : (s.modTenant p f).site j = s.site j := rfl
@[simp] theorem State.modTenant_mbox (p : Nat) (f : Tenant → Tenant) (j : Nat) : (s.modTenant p f).mbox j = s.mbox j := rfl

@[simp] theorem State.modEntry_time (k : Nat) (f : Entry → Entry) : (s.modEntry k f).time = s.time := rfl
@[simp] theorem State.modEntry_life (k : Nat) (f : Entry → Entry) : (s.modEntry k f).life = s.life := rfl
@[simp] theorem State.modEntry_mem (k : Nat) (f : Entry → Entry) : (s.modEntry k f).mem = s.mem := rfl
@[simp] theorem State.modEntry_cores (k : Nat) (f : Entry → Entry) : (s.modEntry k f).cores = s.cores := rfl
@[simp] theorem State.modEntry_home (k : Nat) (f : Entry → Entry) : (s.modEntry k f).home = s.home := rfl
@[simp] theorem State.modEntry_fab (k : Nat) (f : Entry → Entry) : (s.modEntry k f).fab = s.fab := rfl
@[simp] theorem State.modEntry_mcs (k : Nat) (f : Entry → Entry) : (s.modEntry k f).mcs = s.mcs := rfl
@[simp] theorem State.modEntry_links (k : Nat) (f : Entry → Entry) : (s.modEntry k f).links = s.links := rfl
@[simp] theorem State.modEntry_tenants (k : Nat) (f : Entry → Entry) : (s.modEntry k f).tenants = s.tenants := rfl
@[simp] theorem State.modEntry_faults (k : Nat) (f : Entry → Entry) : (s.modEntry k f).faults = s.faults := rfl
@[simp] theorem State.modEntry_jalif (k : Nat) (f : Entry → Entry) : (s.modEntry k f).jalif = s.jalif := rfl
@[simp] theorem State.modEntry_params (k : Nat) (f : Entry → Entry) : (s.modEntry k f).params = s.params := rfl
@[simp] theorem State.modEntry_power (k : Nat) (f : Entry → Entry) : (s.modEntry k f).power = s.power := rfl
@[simp] theorem State.modEntry_pins (k : Nat) (f : Entry → Entry) : (s.modEntry k f).pins = s.pins := rfl
@[simp] theorem State.modEntry_hubGen (k : Nat) (f : Entry → Entry) : (s.modEntry k f).hubGen = s.hubGen := rfl
@[simp] theorem State.modEntry_freeCtr (k : Nat) (f : Entry → Entry) : (s.modEntry k f).freeCtr = s.freeCtr := rfl
@[simp] theorem State.modEntry_pending (k : Nat) (f : Entry → Entry) : (s.modEntry k f).pending = s.pending := rfl
@[simp] theorem State.modEntry_sp (k : Nat) (f : Entry → Entry) (j : Nat) : (s.modEntry k f).sp j = s.sp j := rfl
@[simp] theorem State.modEntry_ply (k : Nat) (f : Entry → Entry) (m j : Nat) : (s.modEntry k f).ply m j = s.ply m j := rfl
@[simp] theorem State.modEntry_sk (k : Nat) (f : Entry → Entry) (j : Nat) : (s.modEntry k f).sk j = s.sk j := rfl
@[simp] theorem State.modEntry_dirOf (k : Nat) (f : Entry → Entry) (j : Nat) : (s.modEntry k f).dirOf j = s.dirOf j := rfl
@[simp] theorem State.modEntry_homeOf (k : Nat) (f : Entry → Entry) (j : Nat) : (s.modEntry k f).homeOf j = s.homeOf j := rfl
@[simp] theorem State.modEntry_mch (k : Nat) (f : Entry → Entry) (j : Nat) : (s.modEntry k f).mch j = s.mch j := rfl
@[simp] theorem State.modEntry_tenant (k : Nat) (f : Entry → Entry) (j : Nat) : (s.modEntry k f).tenant j = s.tenant j := rfl
@[simp] theorem State.modEntry_engine (k : Nat) (f : Entry → Entry) (j : Nat) : (s.modEntry k f).engine j = s.engine j := rfl
@[simp] theorem State.modEntry_device (k : Nat) (f : Entry → Entry) (j : Nat) : (s.modEntry k f).device j = s.device j := rfl
@[simp] theorem State.modEntry_flexP (k : Nat) (f : Entry → Entry) (j : Nat) : (s.modEntry k f).flexP j = s.flexP j := rfl
@[simp] theorem State.modEntry_rack (k : Nat) (f : Entry → Entry) (j : Nat) : (s.modEntry k f).rack j = s.rack j := rfl
@[simp] theorem State.modEntry_endpoint (k : Nat) (f : Entry → Entry) (j : Nat) : (s.modEntry k f).endpoint j = s.endpoint j := rfl
@[simp] theorem State.modEntry_site (k : Nat) (f : Entry → Entry) (j : Nat) : (s.modEntry k f).site j = s.site j := rfl
@[simp] theorem State.modEntry_mbox (k : Nat) (f : Entry → Entry) (j : Nat) : (s.modEntry k f).mbox j = s.mbox j := rfl

@[simp] theorem State.modEngine_time (e : Nat) (f : Engine → Engine) : (s.modEngine e f).time = s.time := rfl
@[simp] theorem State.modEngine_life (e : Nat) (f : Engine → Engine) : (s.modEngine e f).life = s.life := rfl
@[simp] theorem State.modEngine_mem (e : Nat) (f : Engine → Engine) : (s.modEngine e f).mem = s.mem := rfl
@[simp] theorem State.modEngine_cores (e : Nat) (f : Engine → Engine) : (s.modEngine e f).cores = s.cores := rfl
@[simp] theorem State.modEngine_home (e : Nat) (f : Engine → Engine) : (s.modEngine e f).home = s.home := rfl
@[simp] theorem State.modEngine_fab (e : Nat) (f : Engine → Engine) : (s.modEngine e f).fab = s.fab := rfl
@[simp] theorem State.modEngine_mcs (e : Nat) (f : Engine → Engine) : (s.modEngine e f).mcs = s.mcs := rfl
@[simp] theorem State.modEngine_links (e : Nat) (f : Engine → Engine) : (s.modEngine e f).links = s.links := rfl
@[simp] theorem State.modEngine_tenants (e : Nat) (f : Engine → Engine) : (s.modEngine e f).tenants = s.tenants := rfl
@[simp] theorem State.modEngine_faults (e : Nat) (f : Engine → Engine) : (s.modEngine e f).faults = s.faults := rfl
@[simp] theorem State.modEngine_jalif (e : Nat) (f : Engine → Engine) : (s.modEngine e f).jalif = s.jalif := rfl
@[simp] theorem State.modEngine_params (e : Nat) (f : Engine → Engine) : (s.modEngine e f).params = s.params := rfl
@[simp] theorem State.modEngine_power (e : Nat) (f : Engine → Engine) : (s.modEngine e f).power = s.power := rfl
@[simp] theorem State.modEngine_pins (e : Nat) (f : Engine → Engine) : (s.modEngine e f).pins = s.pins := rfl
@[simp] theorem State.modEngine_hubGen (e : Nat) (f : Engine → Engine) : (s.modEngine e f).hubGen = s.hubGen := rfl
@[simp] theorem State.modEngine_freeCtr (e : Nat) (f : Engine → Engine) : (s.modEngine e f).freeCtr = s.freeCtr := rfl
@[simp] theorem State.modEngine_pending (e : Nat) (f : Engine → Engine) : (s.modEngine e f).pending = s.pending := rfl
@[simp] theorem State.modEngine_sp (e : Nat) (f : Engine → Engine) (j : Nat) : (s.modEngine e f).sp j = s.sp j := rfl
@[simp] theorem State.modEngine_ply (e : Nat) (f : Engine → Engine) (m j : Nat) : (s.modEngine e f).ply m j = s.ply m j := rfl
@[simp] theorem State.modEngine_sk (e : Nat) (f : Engine → Engine) (j : Nat) : (s.modEngine e f).sk j = s.sk j := rfl
@[simp] theorem State.modEngine_dirOf (e : Nat) (f : Engine → Engine) (j : Nat) : (s.modEngine e f).dirOf j = s.dirOf j := rfl
@[simp] theorem State.modEngine_homeOf (e : Nat) (f : Engine → Engine) (j : Nat) : (s.modEngine e f).homeOf j = s.homeOf j := rfl
@[simp] theorem State.modEngine_mch (e : Nat) (f : Engine → Engine) (j : Nat) : (s.modEngine e f).mch j = s.mch j := rfl
@[simp] theorem State.modEngine_tenant (e : Nat) (f : Engine → Engine) (j : Nat) : (s.modEngine e f).tenant j = s.tenant j := rfl
@[simp] theorem State.modEngine_entry (e : Nat) (f : Engine → Engine) (j : Nat) : (s.modEngine e f).entry j = s.entry j := rfl
@[simp] theorem State.modEngine_device (e : Nat) (f : Engine → Engine) (j : Nat) : (s.modEngine e f).device j = s.device j := rfl
@[simp] theorem State.modEngine_flexP (e : Nat) (f : Engine → Engine) (j : Nat) : (s.modEngine e f).flexP j = s.flexP j := rfl
@[simp] theorem State.modEngine_rack (e : Nat) (f : Engine → Engine) (j : Nat) : (s.modEngine e f).rack j = s.rack j := rfl
@[simp] theorem State.modEngine_endpoint (e : Nat) (f : Engine → Engine) (j : Nat) : (s.modEngine e f).endpoint j = s.endpoint j := rfl
@[simp] theorem State.modEngine_site (e : Nat) (f : Engine → Engine) (j : Nat) : (s.modEngine e f).site j = s.site j := rfl
@[simp] theorem State.modEngine_mbox (e : Nat) (f : Engine → Engine) (j : Nat) : (s.modEngine e f).mbox j = s.mbox j := rfl

@[simp] theorem State.modDevice_time (d : Nat) (f : Device → Device) : (s.modDevice d f).time = s.time := rfl
@[simp] theorem State.modDevice_life (d : Nat) (f : Device → Device) : (s.modDevice d f).life = s.life := rfl
@[simp] theorem State.modDevice_mem (d : Nat) (f : Device → Device) : (s.modDevice d f).mem = s.mem := rfl
@[simp] theorem State.modDevice_cores (d : Nat) (f : Device → Device) : (s.modDevice d f).cores = s.cores := rfl
@[simp] theorem State.modDevice_home (d : Nat) (f : Device → Device) : (s.modDevice d f).home = s.home := rfl
@[simp] theorem State.modDevice_fab (d : Nat) (f : Device → Device) : (s.modDevice d f).fab = s.fab := rfl
@[simp] theorem State.modDevice_mcs (d : Nat) (f : Device → Device) : (s.modDevice d f).mcs = s.mcs := rfl
@[simp] theorem State.modDevice_links (d : Nat) (f : Device → Device) : (s.modDevice d f).links = s.links := rfl
@[simp] theorem State.modDevice_tenants (d : Nat) (f : Device → Device) : (s.modDevice d f).tenants = s.tenants := rfl
@[simp] theorem State.modDevice_faults (d : Nat) (f : Device → Device) : (s.modDevice d f).faults = s.faults := rfl
@[simp] theorem State.modDevice_jalif (d : Nat) (f : Device → Device) : (s.modDevice d f).jalif = s.jalif := rfl
@[simp] theorem State.modDevice_params (d : Nat) (f : Device → Device) : (s.modDevice d f).params = s.params := rfl
@[simp] theorem State.modDevice_power (d : Nat) (f : Device → Device) : (s.modDevice d f).power = s.power := rfl
@[simp] theorem State.modDevice_pins (d : Nat) (f : Device → Device) : (s.modDevice d f).pins = s.pins := rfl
@[simp] theorem State.modDevice_hubGen (d : Nat) (f : Device → Device) : (s.modDevice d f).hubGen = s.hubGen := rfl
@[simp] theorem State.modDevice_freeCtr (d : Nat) (f : Device → Device) : (s.modDevice d f).freeCtr = s.freeCtr := rfl
@[simp] theorem State.modDevice_pending (d : Nat) (f : Device → Device) : (s.modDevice d f).pending = s.pending := rfl
@[simp] theorem State.modDevice_sp (d : Nat) (f : Device → Device) (j : Nat) : (s.modDevice d f).sp j = s.sp j := rfl
@[simp] theorem State.modDevice_ply (d : Nat) (f : Device → Device) (m j : Nat) : (s.modDevice d f).ply m j = s.ply m j := rfl
@[simp] theorem State.modDevice_sk (d : Nat) (f : Device → Device) (j : Nat) : (s.modDevice d f).sk j = s.sk j := rfl
@[simp] theorem State.modDevice_dirOf (d : Nat) (f : Device → Device) (j : Nat) : (s.modDevice d f).dirOf j = s.dirOf j := rfl
@[simp] theorem State.modDevice_homeOf (d : Nat) (f : Device → Device) (j : Nat) : (s.modDevice d f).homeOf j = s.homeOf j := rfl
@[simp] theorem State.modDevice_mch (d : Nat) (f : Device → Device) (j : Nat) : (s.modDevice d f).mch j = s.mch j := rfl
@[simp] theorem State.modDevice_tenant (d : Nat) (f : Device → Device) (j : Nat) : (s.modDevice d f).tenant j = s.tenant j := rfl
@[simp] theorem State.modDevice_entry (d : Nat) (f : Device → Device) (j : Nat) : (s.modDevice d f).entry j = s.entry j := rfl
@[simp] theorem State.modDevice_engine (d : Nat) (f : Device → Device) (j : Nat) : (s.modDevice d f).engine j = s.engine j := rfl
@[simp] theorem State.modDevice_flexP (d : Nat) (f : Device → Device) (j : Nat) : (s.modDevice d f).flexP j = s.flexP j := rfl
@[simp] theorem State.modDevice_rack (d : Nat) (f : Device → Device) (j : Nat) : (s.modDevice d f).rack j = s.rack j := rfl
@[simp] theorem State.modDevice_endpoint (d : Nat) (f : Device → Device) (j : Nat) : (s.modDevice d f).endpoint j = s.endpoint j := rfl
@[simp] theorem State.modDevice_site (d : Nat) (f : Device → Device) (j : Nat) : (s.modDevice d f).site j = s.site j := rfl
@[simp] theorem State.modDevice_mbox (d : Nat) (f : Device → Device) (j : Nat) : (s.modDevice d f).mbox j = s.mbox j := rfl

@[simp] theorem State.modFlex_time (n : Nat) (f : Flex → Flex) : (s.modFlex n f).time = s.time := rfl
@[simp] theorem State.modFlex_life (n : Nat) (f : Flex → Flex) : (s.modFlex n f).life = s.life := rfl
@[simp] theorem State.modFlex_mem (n : Nat) (f : Flex → Flex) : (s.modFlex n f).mem = s.mem := rfl
@[simp] theorem State.modFlex_cores (n : Nat) (f : Flex → Flex) : (s.modFlex n f).cores = s.cores := rfl
@[simp] theorem State.modFlex_home (n : Nat) (f : Flex → Flex) : (s.modFlex n f).home = s.home := rfl
@[simp] theorem State.modFlex_fab (n : Nat) (f : Flex → Flex) : (s.modFlex n f).fab = s.fab := rfl
@[simp] theorem State.modFlex_mcs (n : Nat) (f : Flex → Flex) : (s.modFlex n f).mcs = s.mcs := rfl
@[simp] theorem State.modFlex_chan (n : Nat) (f : Flex → Flex) : (s.modFlex n f).chan = s.chan := rfl
@[simp] theorem State.modFlex_tenants (n : Nat) (f : Flex → Flex) : (s.modFlex n f).tenants = s.tenants := rfl
@[simp] theorem State.modFlex_faults (n : Nat) (f : Flex → Flex) : (s.modFlex n f).faults = s.faults := rfl
@[simp] theorem State.modFlex_jalif (n : Nat) (f : Flex → Flex) : (s.modFlex n f).jalif = s.jalif := rfl
@[simp] theorem State.modFlex_params (n : Nat) (f : Flex → Flex) : (s.modFlex n f).params = s.params := rfl
@[simp] theorem State.modFlex_power (n : Nat) (f : Flex → Flex) : (s.modFlex n f).power = s.power := rfl
@[simp] theorem State.modFlex_pins (n : Nat) (f : Flex → Flex) : (s.modFlex n f).pins = s.pins := rfl
@[simp] theorem State.modFlex_hubGen (n : Nat) (f : Flex → Flex) : (s.modFlex n f).hubGen = s.hubGen := rfl
@[simp] theorem State.modFlex_freeCtr (n : Nat) (f : Flex → Flex) : (s.modFlex n f).freeCtr = s.freeCtr := rfl
@[simp] theorem State.modFlex_pending (n : Nat) (f : Flex → Flex) : (s.modFlex n f).pending = s.pending := rfl
@[simp] theorem State.modFlex_sp (n : Nat) (f : Flex → Flex) (j : Nat) : (s.modFlex n f).sp j = s.sp j := rfl
@[simp] theorem State.modFlex_ply (n : Nat) (f : Flex → Flex) (m j : Nat) : (s.modFlex n f).ply m j = s.ply m j := rfl
@[simp] theorem State.modFlex_sk (n : Nat) (f : Flex → Flex) (j : Nat) : (s.modFlex n f).sk j = s.sk j := rfl
@[simp] theorem State.modFlex_dirOf (n : Nat) (f : Flex → Flex) (j : Nat) : (s.modFlex n f).dirOf j = s.dirOf j := rfl
@[simp] theorem State.modFlex_homeOf (n : Nat) (f : Flex → Flex) (j : Nat) : (s.modFlex n f).homeOf j = s.homeOf j := rfl
@[simp] theorem State.modFlex_mch (n : Nat) (f : Flex → Flex) (j : Nat) : (s.modFlex n f).mch j = s.mch j := rfl
@[simp] theorem State.modFlex_tenant (n : Nat) (f : Flex → Flex) (j : Nat) : (s.modFlex n f).tenant j = s.tenant j := rfl
@[simp] theorem State.modFlex_entry (n : Nat) (f : Flex → Flex) (j : Nat) : (s.modFlex n f).entry j = s.entry j := rfl
@[simp] theorem State.modFlex_engine (n : Nat) (f : Flex → Flex) (j : Nat) : (s.modFlex n f).engine j = s.engine j := rfl
@[simp] theorem State.modFlex_device (n : Nat) (f : Flex → Flex) (j : Nat) : (s.modFlex n f).device j = s.device j := rfl
@[simp] theorem State.modFlex_rack (n : Nat) (f : Flex → Flex) (j : Nat) : (s.modFlex n f).rack j = s.rack j := rfl
@[simp] theorem State.modFlex_endpoint (n : Nat) (f : Flex → Flex) (j : Nat) : (s.modFlex n f).endpoint j = s.endpoint j := rfl
@[simp] theorem State.modFlex_site (n : Nat) (f : Flex → Flex) (j : Nat) : (s.modFlex n f).site j = s.site j := rfl
@[simp] theorem State.modFlex_mbox (n : Nat) (f : Flex → Flex) (j : Nat) : (s.modFlex n f).mbox j = s.mbox j := rfl

@[simp] theorem State.modRack_time (k : Nat) (f : Rack → Rack) : (s.modRack k f).time = s.time := rfl
@[simp] theorem State.modRack_life (k : Nat) (f : Rack → Rack) : (s.modRack k f).life = s.life := rfl
@[simp] theorem State.modRack_mem (k : Nat) (f : Rack → Rack) : (s.modRack k f).mem = s.mem := rfl
@[simp] theorem State.modRack_cores (k : Nat) (f : Rack → Rack) : (s.modRack k f).cores = s.cores := rfl
@[simp] theorem State.modRack_home (k : Nat) (f : Rack → Rack) : (s.modRack k f).home = s.home := rfl
@[simp] theorem State.modRack_fab (k : Nat) (f : Rack → Rack) : (s.modRack k f).fab = s.fab := rfl
@[simp] theorem State.modRack_mcs (k : Nat) (f : Rack → Rack) : (s.modRack k f).mcs = s.mcs := rfl
@[simp] theorem State.modRack_chan (k : Nat) (f : Rack → Rack) : (s.modRack k f).chan = s.chan := rfl
@[simp] theorem State.modRack_tenants (k : Nat) (f : Rack → Rack) : (s.modRack k f).tenants = s.tenants := rfl
@[simp] theorem State.modRack_faults (k : Nat) (f : Rack → Rack) : (s.modRack k f).faults = s.faults := rfl
@[simp] theorem State.modRack_jalif (k : Nat) (f : Rack → Rack) : (s.modRack k f).jalif = s.jalif := rfl
@[simp] theorem State.modRack_params (k : Nat) (f : Rack → Rack) : (s.modRack k f).params = s.params := rfl
@[simp] theorem State.modRack_power (k : Nat) (f : Rack → Rack) : (s.modRack k f).power = s.power := rfl
@[simp] theorem State.modRack_pins (k : Nat) (f : Rack → Rack) : (s.modRack k f).pins = s.pins := rfl
@[simp] theorem State.modRack_hubGen (k : Nat) (f : Rack → Rack) : (s.modRack k f).hubGen = s.hubGen := rfl
@[simp] theorem State.modRack_freeCtr (k : Nat) (f : Rack → Rack) : (s.modRack k f).freeCtr = s.freeCtr := rfl
@[simp] theorem State.modRack_pending (k : Nat) (f : Rack → Rack) : (s.modRack k f).pending = s.pending := rfl
@[simp] theorem State.modRack_sp (k : Nat) (f : Rack → Rack) (j : Nat) : (s.modRack k f).sp j = s.sp j := rfl
@[simp] theorem State.modRack_ply (k : Nat) (f : Rack → Rack) (m j : Nat) : (s.modRack k f).ply m j = s.ply m j := rfl
@[simp] theorem State.modRack_sk (k : Nat) (f : Rack → Rack) (j : Nat) : (s.modRack k f).sk j = s.sk j := rfl
@[simp] theorem State.modRack_dirOf (k : Nat) (f : Rack → Rack) (j : Nat) : (s.modRack k f).dirOf j = s.dirOf j := rfl
@[simp] theorem State.modRack_homeOf (k : Nat) (f : Rack → Rack) (j : Nat) : (s.modRack k f).homeOf j = s.homeOf j := rfl
@[simp] theorem State.modRack_mch (k : Nat) (f : Rack → Rack) (j : Nat) : (s.modRack k f).mch j = s.mch j := rfl
@[simp] theorem State.modRack_tenant (k : Nat) (f : Rack → Rack) (j : Nat) : (s.modRack k f).tenant j = s.tenant j := rfl
@[simp] theorem State.modRack_entry (k : Nat) (f : Rack → Rack) (j : Nat) : (s.modRack k f).entry j = s.entry j := rfl
@[simp] theorem State.modRack_engine (k : Nat) (f : Rack → Rack) (j : Nat) : (s.modRack k f).engine j = s.engine j := rfl
@[simp] theorem State.modRack_device (k : Nat) (f : Rack → Rack) (j : Nat) : (s.modRack k f).device j = s.device j := rfl
@[simp] theorem State.modRack_flexP (k : Nat) (f : Rack → Rack) (j : Nat) : (s.modRack k f).flexP j = s.flexP j := rfl
@[simp] theorem State.modRack_endpoint (k : Nat) (f : Rack → Rack) (j : Nat) : (s.modRack k f).endpoint j = s.endpoint j := rfl
@[simp] theorem State.modRack_site (k : Nat) (f : Rack → Rack) (j : Nat) : (s.modRack k f).site j = s.site j := rfl
@[simp] theorem State.modRack_mbox (k : Nat) (f : Rack → Rack) (j : Nat) : (s.modRack k f).mbox j = s.mbox j := rfl

@[simp] theorem State.modEndpoint_time (e : Nat) (f : Endpoint → Endpoint) : (s.modEndpoint e f).time = s.time := rfl
@[simp] theorem State.modEndpoint_life (e : Nat) (f : Endpoint → Endpoint) : (s.modEndpoint e f).life = s.life := rfl
@[simp] theorem State.modEndpoint_mem (e : Nat) (f : Endpoint → Endpoint) : (s.modEndpoint e f).mem = s.mem := rfl
@[simp] theorem State.modEndpoint_cores (e : Nat) (f : Endpoint → Endpoint) : (s.modEndpoint e f).cores = s.cores := rfl
@[simp] theorem State.modEndpoint_home (e : Nat) (f : Endpoint → Endpoint) : (s.modEndpoint e f).home = s.home := rfl
@[simp] theorem State.modEndpoint_fab (e : Nat) (f : Endpoint → Endpoint) : (s.modEndpoint e f).fab = s.fab := rfl
@[simp] theorem State.modEndpoint_mcs (e : Nat) (f : Endpoint → Endpoint) : (s.modEndpoint e f).mcs = s.mcs := rfl
@[simp] theorem State.modEndpoint_chan (e : Nat) (f : Endpoint → Endpoint) : (s.modEndpoint e f).chan = s.chan := rfl
@[simp] theorem State.modEndpoint_tenants (e : Nat) (f : Endpoint → Endpoint) : (s.modEndpoint e f).tenants = s.tenants := rfl
@[simp] theorem State.modEndpoint_faults (e : Nat) (f : Endpoint → Endpoint) : (s.modEndpoint e f).faults = s.faults := rfl
@[simp] theorem State.modEndpoint_jalif (e : Nat) (f : Endpoint → Endpoint) : (s.modEndpoint e f).jalif = s.jalif := rfl
@[simp] theorem State.modEndpoint_params (e : Nat) (f : Endpoint → Endpoint) : (s.modEndpoint e f).params = s.params := rfl
@[simp] theorem State.modEndpoint_power (e : Nat) (f : Endpoint → Endpoint) : (s.modEndpoint e f).power = s.power := rfl
@[simp] theorem State.modEndpoint_pins (e : Nat) (f : Endpoint → Endpoint) : (s.modEndpoint e f).pins = s.pins := rfl
@[simp] theorem State.modEndpoint_hubGen (e : Nat) (f : Endpoint → Endpoint) : (s.modEndpoint e f).hubGen = s.hubGen := rfl
@[simp] theorem State.modEndpoint_freeCtr (e : Nat) (f : Endpoint → Endpoint) : (s.modEndpoint e f).freeCtr = s.freeCtr := rfl
@[simp] theorem State.modEndpoint_pending (e : Nat) (f : Endpoint → Endpoint) : (s.modEndpoint e f).pending = s.pending := rfl
@[simp] theorem State.modEndpoint_sp (e : Nat) (f : Endpoint → Endpoint) (j : Nat) : (s.modEndpoint e f).sp j = s.sp j := rfl
@[simp] theorem State.modEndpoint_ply (e : Nat) (f : Endpoint → Endpoint) (m j : Nat) : (s.modEndpoint e f).ply m j = s.ply m j := rfl
@[simp] theorem State.modEndpoint_sk (e : Nat) (f : Endpoint → Endpoint) (j : Nat) : (s.modEndpoint e f).sk j = s.sk j := rfl
@[simp] theorem State.modEndpoint_dirOf (e : Nat) (f : Endpoint → Endpoint) (j : Nat) : (s.modEndpoint e f).dirOf j = s.dirOf j := rfl
@[simp] theorem State.modEndpoint_homeOf (e : Nat) (f : Endpoint → Endpoint) (j : Nat) : (s.modEndpoint e f).homeOf j = s.homeOf j := rfl
@[simp] theorem State.modEndpoint_mch (e : Nat) (f : Endpoint → Endpoint) (j : Nat) : (s.modEndpoint e f).mch j = s.mch j := rfl
@[simp] theorem State.modEndpoint_tenant (e : Nat) (f : Endpoint → Endpoint) (j : Nat) : (s.modEndpoint e f).tenant j = s.tenant j := rfl
@[simp] theorem State.modEndpoint_entry (e : Nat) (f : Endpoint → Endpoint) (j : Nat) : (s.modEndpoint e f).entry j = s.entry j := rfl
@[simp] theorem State.modEndpoint_engine (e : Nat) (f : Endpoint → Endpoint) (j : Nat) : (s.modEndpoint e f).engine j = s.engine j := rfl
@[simp] theorem State.modEndpoint_device (e : Nat) (f : Endpoint → Endpoint) (j : Nat) : (s.modEndpoint e f).device j = s.device j := rfl
@[simp] theorem State.modEndpoint_flexP (e : Nat) (f : Endpoint → Endpoint) (j : Nat) : (s.modEndpoint e f).flexP j = s.flexP j := rfl
@[simp] theorem State.modEndpoint_rack (e : Nat) (f : Endpoint → Endpoint) (j : Nat) : (s.modEndpoint e f).rack j = s.rack j := rfl
@[simp] theorem State.modEndpoint_site (e : Nat) (f : Endpoint → Endpoint) (j : Nat) : (s.modEndpoint e f).site j = s.site j := rfl
@[simp] theorem State.modEndpoint_mbox (e : Nat) (f : Endpoint → Endpoint) (j : Nat) : (s.modEndpoint e f).mbox j = s.mbox j := rfl

@[simp] theorem State.modSite_time (g : Nat) (f : Site → Site) : (s.modSite g f).time = s.time := rfl
@[simp] theorem State.modSite_life (g : Nat) (f : Site → Site) : (s.modSite g f).life = s.life := rfl
@[simp] theorem State.modSite_mem (g : Nat) (f : Site → Site) : (s.modSite g f).mem = s.mem := rfl
@[simp] theorem State.modSite_cores (g : Nat) (f : Site → Site) : (s.modSite g f).cores = s.cores := rfl
@[simp] theorem State.modSite_home (g : Nat) (f : Site → Site) : (s.modSite g f).home = s.home := rfl
@[simp] theorem State.modSite_mcs (g : Nat) (f : Site → Site) : (s.modSite g f).mcs = s.mcs := rfl
@[simp] theorem State.modSite_chan (g : Nat) (f : Site → Site) : (s.modSite g f).chan = s.chan := rfl
@[simp] theorem State.modSite_links (g : Nat) (f : Site → Site) : (s.modSite g f).links = s.links := rfl
@[simp] theorem State.modSite_tenants (g : Nat) (f : Site → Site) : (s.modSite g f).tenants = s.tenants := rfl
@[simp] theorem State.modSite_faults (g : Nat) (f : Site → Site) : (s.modSite g f).faults = s.faults := rfl
@[simp] theorem State.modSite_jalif (g : Nat) (f : Site → Site) : (s.modSite g f).jalif = s.jalif := rfl
@[simp] theorem State.modSite_params (g : Nat) (f : Site → Site) : (s.modSite g f).params = s.params := rfl
@[simp] theorem State.modSite_power (g : Nat) (f : Site → Site) : (s.modSite g f).power = s.power := rfl
@[simp] theorem State.modSite_pins (g : Nat) (f : Site → Site) : (s.modSite g f).pins = s.pins := rfl
@[simp] theorem State.modSite_hubGen (g : Nat) (f : Site → Site) : (s.modSite g f).hubGen = s.hubGen := rfl
@[simp] theorem State.modSite_freeCtr (g : Nat) (f : Site → Site) : (s.modSite g f).freeCtr = s.freeCtr := rfl
@[simp] theorem State.modSite_pending (g : Nat) (f : Site → Site) : (s.modSite g f).pending = s.pending := rfl
@[simp] theorem State.modSite_sp (g : Nat) (f : Site → Site) (j : Nat) : (s.modSite g f).sp j = s.sp j := rfl
@[simp] theorem State.modSite_ply (g : Nat) (f : Site → Site) (m j : Nat) : (s.modSite g f).ply m j = s.ply m j := rfl
@[simp] theorem State.modSite_sk (g : Nat) (f : Site → Site) (j : Nat) : (s.modSite g f).sk j = s.sk j := rfl
@[simp] theorem State.modSite_dirOf (g : Nat) (f : Site → Site) (j : Nat) : (s.modSite g f).dirOf j = s.dirOf j := rfl
@[simp] theorem State.modSite_homeOf (g : Nat) (f : Site → Site) (j : Nat) : (s.modSite g f).homeOf j = s.homeOf j := rfl
@[simp] theorem State.modSite_mch (g : Nat) (f : Site → Site) (j : Nat) : (s.modSite g f).mch j = s.mch j := rfl
@[simp] theorem State.modSite_tenant (g : Nat) (f : Site → Site) (j : Nat) : (s.modSite g f).tenant j = s.tenant j := rfl
@[simp] theorem State.modSite_entry (g : Nat) (f : Site → Site) (j : Nat) : (s.modSite g f).entry j = s.entry j := rfl
@[simp] theorem State.modSite_engine (g : Nat) (f : Site → Site) (j : Nat) : (s.modSite g f).engine j = s.engine j := rfl
@[simp] theorem State.modSite_device (g : Nat) (f : Site → Site) (j : Nat) : (s.modSite g f).device j = s.device j := rfl
@[simp] theorem State.modSite_flexP (g : Nat) (f : Site → Site) (j : Nat) : (s.modSite g f).flexP j = s.flexP j := rfl
@[simp] theorem State.modSite_rack (g : Nat) (f : Site → Site) (j : Nat) : (s.modSite g f).rack j = s.rack j := rfl
@[simp] theorem State.modSite_endpoint (g : Nat) (f : Site → Site) (j : Nat) : (s.modSite g f).endpoint j = s.endpoint j := rfl
@[simp] theorem State.modSite_mbox (g : Nat) (f : Site → Site) (j : Nat) : (s.modSite g f).mbox j = s.mbox j := rfl

@[simp] theorem State.send_time (q : Packet) : (s.send q).time = s.time := rfl
@[simp] theorem State.send_life (q : Packet) : (s.send q).life = s.life := rfl
@[simp] theorem State.send_mem (q : Packet) : (s.send q).mem = s.mem := rfl
@[simp] theorem State.send_cores (q : Packet) : (s.send q).cores = s.cores := rfl
@[simp] theorem State.send_home (q : Packet) : (s.send q).home = s.home := rfl
@[simp] theorem State.send_mcs (q : Packet) : (s.send q).mcs = s.mcs := rfl
@[simp] theorem State.send_chan (q : Packet) : (s.send q).chan = s.chan := rfl
@[simp] theorem State.send_links (q : Packet) : (s.send q).links = s.links := rfl
@[simp] theorem State.send_tenants (q : Packet) : (s.send q).tenants = s.tenants := rfl
@[simp] theorem State.send_faults (q : Packet) : (s.send q).faults = s.faults := rfl
@[simp] theorem State.send_jalif (q : Packet) : (s.send q).jalif = s.jalif := rfl
@[simp] theorem State.send_params (q : Packet) : (s.send q).params = s.params := rfl
@[simp] theorem State.send_power (q : Packet) : (s.send q).power = s.power := rfl
@[simp] theorem State.send_pins (q : Packet) : (s.send q).pins = s.pins := rfl
@[simp] theorem State.send_hubGen (q : Packet) : (s.send q).hubGen = s.hubGen := rfl
@[simp] theorem State.send_freeCtr (q : Packet) : (s.send q).freeCtr = s.freeCtr := rfl
@[simp] theorem State.send_pending (q : Packet) : (s.send q).pending = s.pending := rfl
@[simp] theorem State.send_sp (q : Packet) (j : Nat) : (s.send q).sp j = s.sp j := rfl
@[simp] theorem State.send_ply (q : Packet) (m j : Nat) : (s.send q).ply m j = s.ply m j := rfl
@[simp] theorem State.send_sk (q : Packet) (j : Nat) : (s.send q).sk j = s.sk j := rfl
@[simp] theorem State.send_dirOf (q : Packet) (j : Nat) : (s.send q).dirOf j = s.dirOf j := rfl
@[simp] theorem State.send_homeOf (q : Packet) (j : Nat) : (s.send q).homeOf j = s.homeOf j := rfl
@[simp] theorem State.send_mch (q : Packet) (j : Nat) : (s.send q).mch j = s.mch j := rfl
@[simp] theorem State.send_tenant (q : Packet) (j : Nat) : (s.send q).tenant j = s.tenant j := rfl
@[simp] theorem State.send_entry (q : Packet) (j : Nat) : (s.send q).entry j = s.entry j := rfl
@[simp] theorem State.send_engine (q : Packet) (j : Nat) : (s.send q).engine j = s.engine j := rfl
@[simp] theorem State.send_device (q : Packet) (j : Nat) : (s.send q).device j = s.device j := rfl
@[simp] theorem State.send_flexP (q : Packet) (j : Nat) : (s.send q).flexP j = s.flexP j := rfl
@[simp] theorem State.send_rack (q : Packet) (j : Nat) : (s.send q).rack j = s.rack j := rfl
@[simp] theorem State.send_endpoint (q : Packet) (j : Nat) : (s.send q).endpoint j = s.endpoint j := rfl
@[simp] theorem State.send_site (q : Packet) (j : Nat) : (s.send q).site j = s.site j := rfl
@[simp] theorem State.send_mbox (q : Packet) (j : Nat) : (s.send q).mbox j = s.mbox j := rfl

@[simp] theorem State.modMbox_time (p : Nat) (f : Mbox → Mbox) : (s.modMbox p f).time = s.time := rfl
@[simp] theorem State.modMbox_life (p : Nat) (f : Mbox → Mbox) : (s.modMbox p f).life = s.life := rfl
@[simp] theorem State.modMbox_mem (p : Nat) (f : Mbox → Mbox) : (s.modMbox p f).mem = s.mem := rfl
@[simp] theorem State.modMbox_cores (p : Nat) (f : Mbox → Mbox) : (s.modMbox p f).cores = s.cores := rfl
@[simp] theorem State.modMbox_home (p : Nat) (f : Mbox → Mbox) : (s.modMbox p f).home = s.home := rfl
@[simp] theorem State.modMbox_fab (p : Nat) (f : Mbox → Mbox) : (s.modMbox p f).fab = s.fab := rfl
@[simp] theorem State.modMbox_mcs (p : Nat) (f : Mbox → Mbox) : (s.modMbox p f).mcs = s.mcs := rfl
@[simp] theorem State.modMbox_chan (p : Nat) (f : Mbox → Mbox) : (s.modMbox p f).chan = s.chan := rfl
@[simp] theorem State.modMbox_links (p : Nat) (f : Mbox → Mbox) : (s.modMbox p f).links = s.links := rfl
@[simp] theorem State.modMbox_tenants (p : Nat) (f : Mbox → Mbox) : (s.modMbox p f).tenants = s.tenants := rfl
@[simp] theorem State.modMbox_faults (p : Nat) (f : Mbox → Mbox) : (s.modMbox p f).faults = s.faults := rfl
@[simp] theorem State.modMbox_params (p : Nat) (f : Mbox → Mbox) : (s.modMbox p f).params = s.params := rfl
@[simp] theorem State.modMbox_power (p : Nat) (f : Mbox → Mbox) : (s.modMbox p f).power = s.power := rfl
@[simp] theorem State.modMbox_pins (p : Nat) (f : Mbox → Mbox) : (s.modMbox p f).pins = s.pins := rfl
@[simp] theorem State.modMbox_hubGen (p : Nat) (f : Mbox → Mbox) : (s.modMbox p f).hubGen = s.hubGen := rfl
@[simp] theorem State.modMbox_freeCtr (p : Nat) (f : Mbox → Mbox) : (s.modMbox p f).freeCtr = s.freeCtr := rfl
@[simp] theorem State.modMbox_pending (p : Nat) (f : Mbox → Mbox) : (s.modMbox p f).pending = s.pending := rfl
@[simp] theorem State.modMbox_sp (p : Nat) (f : Mbox → Mbox) (j : Nat) : (s.modMbox p f).sp j = s.sp j := rfl
@[simp] theorem State.modMbox_ply (p : Nat) (f : Mbox → Mbox) (m j : Nat) : (s.modMbox p f).ply m j = s.ply m j := rfl
@[simp] theorem State.modMbox_sk (p : Nat) (f : Mbox → Mbox) (j : Nat) : (s.modMbox p f).sk j = s.sk j := rfl
@[simp] theorem State.modMbox_dirOf (p : Nat) (f : Mbox → Mbox) (j : Nat) : (s.modMbox p f).dirOf j = s.dirOf j := rfl
@[simp] theorem State.modMbox_homeOf (p : Nat) (f : Mbox → Mbox) (j : Nat) : (s.modMbox p f).homeOf j = s.homeOf j := rfl
@[simp] theorem State.modMbox_mch (p : Nat) (f : Mbox → Mbox) (j : Nat) : (s.modMbox p f).mch j = s.mch j := rfl
@[simp] theorem State.modMbox_tenant (p : Nat) (f : Mbox → Mbox) (j : Nat) : (s.modMbox p f).tenant j = s.tenant j := rfl
@[simp] theorem State.modMbox_entry (p : Nat) (f : Mbox → Mbox) (j : Nat) : (s.modMbox p f).entry j = s.entry j := rfl
@[simp] theorem State.modMbox_engine (p : Nat) (f : Mbox → Mbox) (j : Nat) : (s.modMbox p f).engine j = s.engine j := rfl
@[simp] theorem State.modMbox_device (p : Nat) (f : Mbox → Mbox) (j : Nat) : (s.modMbox p f).device j = s.device j := rfl
@[simp] theorem State.modMbox_flexP (p : Nat) (f : Mbox → Mbox) (j : Nat) : (s.modMbox p f).flexP j = s.flexP j := rfl
@[simp] theorem State.modMbox_rack (p : Nat) (f : Mbox → Mbox) (j : Nat) : (s.modMbox p f).rack j = s.rack j := rfl
@[simp] theorem State.modMbox_endpoint (p : Nat) (f : Mbox → Mbox) (j : Nat) : (s.modMbox p f).endpoint j = s.endpoint j := rfl
@[simp] theorem State.modMbox_site (p : Nat) (f : Mbox → Mbox) (j : Nat) : (s.modMbox p f).site j = s.site j := rfl

@[simp] theorem State.modJalif_time (f : Jalif → Jalif) : (s.modJalif f).time = s.time := rfl
@[simp] theorem State.modJalif_life (f : Jalif → Jalif) : (s.modJalif f).life = s.life := rfl
@[simp] theorem State.modJalif_mem (f : Jalif → Jalif) : (s.modJalif f).mem = s.mem := rfl
@[simp] theorem State.modJalif_cores (f : Jalif → Jalif) : (s.modJalif f).cores = s.cores := rfl
@[simp] theorem State.modJalif_home (f : Jalif → Jalif) : (s.modJalif f).home = s.home := rfl
@[simp] theorem State.modJalif_fab (f : Jalif → Jalif) : (s.modJalif f).fab = s.fab := rfl
@[simp] theorem State.modJalif_mcs (f : Jalif → Jalif) : (s.modJalif f).mcs = s.mcs := rfl
@[simp] theorem State.modJalif_chan (f : Jalif → Jalif) : (s.modJalif f).chan = s.chan := rfl
@[simp] theorem State.modJalif_links (f : Jalif → Jalif) : (s.modJalif f).links = s.links := rfl
@[simp] theorem State.modJalif_tenants (f : Jalif → Jalif) : (s.modJalif f).tenants = s.tenants := rfl
@[simp] theorem State.modJalif_faults (f : Jalif → Jalif) : (s.modJalif f).faults = s.faults := rfl
@[simp] theorem State.modJalif_params (f : Jalif → Jalif) : (s.modJalif f).params = s.params := rfl
@[simp] theorem State.modJalif_power (f : Jalif → Jalif) : (s.modJalif f).power = s.power := rfl
@[simp] theorem State.modJalif_pins (f : Jalif → Jalif) : (s.modJalif f).pins = s.pins := rfl
@[simp] theorem State.modJalif_hubGen (f : Jalif → Jalif) : (s.modJalif f).hubGen = s.hubGen := rfl
@[simp] theorem State.modJalif_freeCtr (f : Jalif → Jalif) : (s.modJalif f).freeCtr = s.freeCtr := rfl
@[simp] theorem State.modJalif_pending (f : Jalif → Jalif) : (s.modJalif f).pending = s.pending := rfl
@[simp] theorem State.modJalif_sp (f : Jalif → Jalif) (j : Nat) : (s.modJalif f).sp j = s.sp j := rfl
@[simp] theorem State.modJalif_ply (f : Jalif → Jalif) (m j : Nat) : (s.modJalif f).ply m j = s.ply m j := rfl
@[simp] theorem State.modJalif_sk (f : Jalif → Jalif) (j : Nat) : (s.modJalif f).sk j = s.sk j := rfl
@[simp] theorem State.modJalif_dirOf (f : Jalif → Jalif) (j : Nat) : (s.modJalif f).dirOf j = s.dirOf j := rfl
@[simp] theorem State.modJalif_homeOf (f : Jalif → Jalif) (j : Nat) : (s.modJalif f).homeOf j = s.homeOf j := rfl
@[simp] theorem State.modJalif_mch (f : Jalif → Jalif) (j : Nat) : (s.modJalif f).mch j = s.mch j := rfl
@[simp] theorem State.modJalif_tenant (f : Jalif → Jalif) (j : Nat) : (s.modJalif f).tenant j = s.tenant j := rfl
@[simp] theorem State.modJalif_entry (f : Jalif → Jalif) (j : Nat) : (s.modJalif f).entry j = s.entry j := rfl
@[simp] theorem State.modJalif_engine (f : Jalif → Jalif) (j : Nat) : (s.modJalif f).engine j = s.engine j := rfl
@[simp] theorem State.modJalif_device (f : Jalif → Jalif) (j : Nat) : (s.modJalif f).device j = s.device j := rfl
@[simp] theorem State.modJalif_flexP (f : Jalif → Jalif) (j : Nat) : (s.modJalif f).flexP j = s.flexP j := rfl
@[simp] theorem State.modJalif_rack (f : Jalif → Jalif) (j : Nat) : (s.modJalif f).rack j = s.rack j := rfl
@[simp] theorem State.modJalif_endpoint (f : Jalif → Jalif) (j : Nat) : (s.modJalif f).endpoint j = s.endpoint j := rfl
@[simp] theorem State.modJalif_site (f : Jalif → Jalif) (j : Nat) : (s.modJalif f).site j = s.site j := rfl

@[simp] theorem State.modFaults_time (f : Faults → Faults) : (s.modFaults f).time = s.time := rfl
@[simp] theorem State.modFaults_life (f : Faults → Faults) : (s.modFaults f).life = s.life := rfl
@[simp] theorem State.modFaults_mem (f : Faults → Faults) : (s.modFaults f).mem = s.mem := rfl
@[simp] theorem State.modFaults_cores (f : Faults → Faults) : (s.modFaults f).cores = s.cores := rfl
@[simp] theorem State.modFaults_home (f : Faults → Faults) : (s.modFaults f).home = s.home := rfl
@[simp] theorem State.modFaults_fab (f : Faults → Faults) : (s.modFaults f).fab = s.fab := rfl
@[simp] theorem State.modFaults_mcs (f : Faults → Faults) : (s.modFaults f).mcs = s.mcs := rfl
@[simp] theorem State.modFaults_chan (f : Faults → Faults) : (s.modFaults f).chan = s.chan := rfl
@[simp] theorem State.modFaults_links (f : Faults → Faults) : (s.modFaults f).links = s.links := rfl
@[simp] theorem State.modFaults_tenants (f : Faults → Faults) : (s.modFaults f).tenants = s.tenants := rfl
@[simp] theorem State.modFaults_jalif (f : Faults → Faults) : (s.modFaults f).jalif = s.jalif := rfl
@[simp] theorem State.modFaults_params (f : Faults → Faults) : (s.modFaults f).params = s.params := rfl
@[simp] theorem State.modFaults_power (f : Faults → Faults) : (s.modFaults f).power = s.power := rfl
@[simp] theorem State.modFaults_pins (f : Faults → Faults) : (s.modFaults f).pins = s.pins := rfl
@[simp] theorem State.modFaults_hubGen (f : Faults → Faults) : (s.modFaults f).hubGen = s.hubGen := rfl
@[simp] theorem State.modFaults_freeCtr (f : Faults → Faults) : (s.modFaults f).freeCtr = s.freeCtr := rfl
@[simp] theorem State.modFaults_pending (f : Faults → Faults) : (s.modFaults f).pending = s.pending := rfl
@[simp] theorem State.modFaults_sp (f : Faults → Faults) (j : Nat) : (s.modFaults f).sp j = s.sp j := rfl
@[simp] theorem State.modFaults_ply (f : Faults → Faults) (m j : Nat) : (s.modFaults f).ply m j = s.ply m j := rfl
@[simp] theorem State.modFaults_sk (f : Faults → Faults) (j : Nat) : (s.modFaults f).sk j = s.sk j := rfl
@[simp] theorem State.modFaults_dirOf (f : Faults → Faults) (j : Nat) : (s.modFaults f).dirOf j = s.dirOf j := rfl
@[simp] theorem State.modFaults_homeOf (f : Faults → Faults) (j : Nat) : (s.modFaults f).homeOf j = s.homeOf j := rfl
@[simp] theorem State.modFaults_mch (f : Faults → Faults) (j : Nat) : (s.modFaults f).mch j = s.mch j := rfl
@[simp] theorem State.modFaults_tenant (f : Faults → Faults) (j : Nat) : (s.modFaults f).tenant j = s.tenant j := rfl
@[simp] theorem State.modFaults_entry (f : Faults → Faults) (j : Nat) : (s.modFaults f).entry j = s.entry j := rfl
@[simp] theorem State.modFaults_engine (f : Faults → Faults) (j : Nat) : (s.modFaults f).engine j = s.engine j := rfl
@[simp] theorem State.modFaults_device (f : Faults → Faults) (j : Nat) : (s.modFaults f).device j = s.device j := rfl
@[simp] theorem State.modFaults_flexP (f : Faults → Faults) (j : Nat) : (s.modFaults f).flexP j = s.flexP j := rfl
@[simp] theorem State.modFaults_rack (f : Faults → Faults) (j : Nat) : (s.modFaults f).rack j = s.rack j := rfl
@[simp] theorem State.modFaults_endpoint (f : Faults → Faults) (j : Nat) : (s.modFaults f).endpoint j = s.endpoint j := rfl
@[simp] theorem State.modFaults_site (f : Faults → Faults) (j : Nat) : (s.modFaults f).site j = s.site j := rfl
@[simp] theorem State.modFaults_mbox (f : Faults → Faults) (j : Nat) : (s.modFaults f).mbox j = s.mbox j := rfl

@[simp] theorem State.modPower_time (f : Power → Power) : (s.modPower f).time = s.time := rfl
@[simp] theorem State.modPower_life (f : Power → Power) : (s.modPower f).life = s.life := rfl
@[simp] theorem State.modPower_mem (f : Power → Power) : (s.modPower f).mem = s.mem := rfl
@[simp] theorem State.modPower_cores (f : Power → Power) : (s.modPower f).cores = s.cores := rfl
@[simp] theorem State.modPower_home (f : Power → Power) : (s.modPower f).home = s.home := rfl
@[simp] theorem State.modPower_fab (f : Power → Power) : (s.modPower f).fab = s.fab := rfl
@[simp] theorem State.modPower_mcs (f : Power → Power) : (s.modPower f).mcs = s.mcs := rfl
@[simp] theorem State.modPower_chan (f : Power → Power) : (s.modPower f).chan = s.chan := rfl
@[simp] theorem State.modPower_links (f : Power → Power) : (s.modPower f).links = s.links := rfl
@[simp] theorem State.modPower_tenants (f : Power → Power) : (s.modPower f).tenants = s.tenants := rfl
@[simp] theorem State.modPower_faults (f : Power → Power) : (s.modPower f).faults = s.faults := rfl
@[simp] theorem State.modPower_jalif (f : Power → Power) : (s.modPower f).jalif = s.jalif := rfl
@[simp] theorem State.modPower_params (f : Power → Power) : (s.modPower f).params = s.params := rfl
@[simp] theorem State.modPower_pins (f : Power → Power) : (s.modPower f).pins = s.pins := rfl
@[simp] theorem State.modPower_hubGen (f : Power → Power) : (s.modPower f).hubGen = s.hubGen := rfl
@[simp] theorem State.modPower_freeCtr (f : Power → Power) : (s.modPower f).freeCtr = s.freeCtr := rfl
@[simp] theorem State.modPower_pending (f : Power → Power) : (s.modPower f).pending = s.pending := rfl
@[simp] theorem State.modPower_sp (f : Power → Power) (j : Nat) : (s.modPower f).sp j = s.sp j := rfl
@[simp] theorem State.modPower_ply (f : Power → Power) (m j : Nat) : (s.modPower f).ply m j = s.ply m j := rfl
@[simp] theorem State.modPower_sk (f : Power → Power) (j : Nat) : (s.modPower f).sk j = s.sk j := rfl
@[simp] theorem State.modPower_dirOf (f : Power → Power) (j : Nat) : (s.modPower f).dirOf j = s.dirOf j := rfl
@[simp] theorem State.modPower_homeOf (f : Power → Power) (j : Nat) : (s.modPower f).homeOf j = s.homeOf j := rfl
@[simp] theorem State.modPower_mch (f : Power → Power) (j : Nat) : (s.modPower f).mch j = s.mch j := rfl
@[simp] theorem State.modPower_tenant (f : Power → Power) (j : Nat) : (s.modPower f).tenant j = s.tenant j := rfl
@[simp] theorem State.modPower_entry (f : Power → Power) (j : Nat) : (s.modPower f).entry j = s.entry j := rfl
@[simp] theorem State.modPower_engine (f : Power → Power) (j : Nat) : (s.modPower f).engine j = s.engine j := rfl
@[simp] theorem State.modPower_device (f : Power → Power) (j : Nat) : (s.modPower f).device j = s.device j := rfl
@[simp] theorem State.modPower_flexP (f : Power → Power) (j : Nat) : (s.modPower f).flexP j = s.flexP j := rfl
@[simp] theorem State.modPower_rack (f : Power → Power) (j : Nat) : (s.modPower f).rack j = s.rack j := rfl
@[simp] theorem State.modPower_endpoint (f : Power → Power) (j : Nat) : (s.modPower f).endpoint j = s.endpoint j := rfl
@[simp] theorem State.modPower_site (f : Power → Power) (j : Nat) : (s.modPower f).site j = s.site j := rfl
@[simp] theorem State.modPower_mbox (f : Power → Power) (j : Nat) : (s.modPower f).mbox j = s.mbox j := rfl

@[simp] theorem State.modPins_time (f : Pins → Pins) : (s.modPins f).time = s.time := rfl
@[simp] theorem State.modPins_life (f : Pins → Pins) : (s.modPins f).life = s.life := rfl
@[simp] theorem State.modPins_mem (f : Pins → Pins) : (s.modPins f).mem = s.mem := rfl
@[simp] theorem State.modPins_cores (f : Pins → Pins) : (s.modPins f).cores = s.cores := rfl
@[simp] theorem State.modPins_home (f : Pins → Pins) : (s.modPins f).home = s.home := rfl
@[simp] theorem State.modPins_fab (f : Pins → Pins) : (s.modPins f).fab = s.fab := rfl
@[simp] theorem State.modPins_mcs (f : Pins → Pins) : (s.modPins f).mcs = s.mcs := rfl
@[simp] theorem State.modPins_chan (f : Pins → Pins) : (s.modPins f).chan = s.chan := rfl
@[simp] theorem State.modPins_links (f : Pins → Pins) : (s.modPins f).links = s.links := rfl
@[simp] theorem State.modPins_tenants (f : Pins → Pins) : (s.modPins f).tenants = s.tenants := rfl
@[simp] theorem State.modPins_faults (f : Pins → Pins) : (s.modPins f).faults = s.faults := rfl
@[simp] theorem State.modPins_jalif (f : Pins → Pins) : (s.modPins f).jalif = s.jalif := rfl
@[simp] theorem State.modPins_params (f : Pins → Pins) : (s.modPins f).params = s.params := rfl
@[simp] theorem State.modPins_power (f : Pins → Pins) : (s.modPins f).power = s.power := rfl
@[simp] theorem State.modPins_hubGen (f : Pins → Pins) : (s.modPins f).hubGen = s.hubGen := rfl
@[simp] theorem State.modPins_freeCtr (f : Pins → Pins) : (s.modPins f).freeCtr = s.freeCtr := rfl
@[simp] theorem State.modPins_pending (f : Pins → Pins) : (s.modPins f).pending = s.pending := rfl
@[simp] theorem State.modPins_sp (f : Pins → Pins) (j : Nat) : (s.modPins f).sp j = s.sp j := rfl
@[simp] theorem State.modPins_ply (f : Pins → Pins) (m j : Nat) : (s.modPins f).ply m j = s.ply m j := rfl
@[simp] theorem State.modPins_sk (f : Pins → Pins) (j : Nat) : (s.modPins f).sk j = s.sk j := rfl
@[simp] theorem State.modPins_dirOf (f : Pins → Pins) (j : Nat) : (s.modPins f).dirOf j = s.dirOf j := rfl
@[simp] theorem State.modPins_homeOf (f : Pins → Pins) (j : Nat) : (s.modPins f).homeOf j = s.homeOf j := rfl
@[simp] theorem State.modPins_mch (f : Pins → Pins) (j : Nat) : (s.modPins f).mch j = s.mch j := rfl
@[simp] theorem State.modPins_tenant (f : Pins → Pins) (j : Nat) : (s.modPins f).tenant j = s.tenant j := rfl
@[simp] theorem State.modPins_entry (f : Pins → Pins) (j : Nat) : (s.modPins f).entry j = s.entry j := rfl
@[simp] theorem State.modPins_engine (f : Pins → Pins) (j : Nat) : (s.modPins f).engine j = s.engine j := rfl
@[simp] theorem State.modPins_device (f : Pins → Pins) (j : Nat) : (s.modPins f).device j = s.device j := rfl
@[simp] theorem State.modPins_flexP (f : Pins → Pins) (j : Nat) : (s.modPins f).flexP j = s.flexP j := rfl
@[simp] theorem State.modPins_rack (f : Pins → Pins) (j : Nat) : (s.modPins f).rack j = s.rack j := rfl
@[simp] theorem State.modPins_endpoint (f : Pins → Pins) (j : Nat) : (s.modPins f).endpoint j = s.endpoint j := rfl
@[simp] theorem State.modPins_site (f : Pins → Pins) (j : Nat) : (s.modPins f).site j = s.site j := rfl
@[simp] theorem State.modPins_mbox (f : Pins → Pins) (j : Nat) : (s.modPins f).mbox j = s.mbox j := rfl

@[simp] theorem State.setSp_sp (i : Nat) (x : Spindle) : (s.setSp i x).sp i = x := tget_tset_same _ _ _ _
theorem State.setSp_sp_other {i j : Nat} (x : Spindle) (h : j ≠ i) : (s.setSp i x).sp j = s.sp j := tget_tset_other _ _ _ h
@[simp] theorem State.modSp_sp (i : Nat) (f : Spindle → Spindle) : (s.modSp i f).sp i = f (s.sp i) := tget_tset_same _ _ _ _
theorem State.modSp_sp_other {i j : Nat} (f : Spindle → Spindle) (h : j ≠ i) : (s.modSp i f).sp j = s.sp j := tget_tset_other _ _ _ h
@[simp] theorem State.modSk_sk (k : Nat) (f : Skein → Skein) : (s.modSk k f).sk k = f (s.sk k) := tget_tmod_same _ _ _ _
theorem State.modSk_sk_other {k j : Nat} (f : Skein → Skein) (h : j ≠ k) : (s.modSk k f).sk j = s.sk j :=
  tget_tmod_other _ _ _ h
@[simp] theorem State.modDir_dirOf (l : Nat) (f : DirEntry → DirEntry) : (s.modDir l f).dirOf l = f (s.dirOf l) := tget_tmod_same _ _ _ _
theorem State.modDir_dirOf_other {l j : Nat} (f : DirEntry → DirEntry) (h : j ≠ l) : (s.modDir l f).dirOf j = s.dirOf j :=
  tget_tmod_other _ _ _ h
@[simp] theorem State.modHome_homeOf (n : Nat) (f : HomeLog → HomeLog) : (s.modHome n f).homeOf n = f (s.homeOf n) := tget_tmod_same _ _ _ _
theorem State.modHome_homeOf_other {n j : Nat} (f : HomeLog → HomeLog) (h : j ≠ n) : (s.modHome n f).homeOf j = s.homeOf j :=
  tget_tmod_other _ _ _ h
@[simp] theorem State.modMch_mch (c : Nat) (f : MemCh → MemCh) : (s.modMch c f).mch c = f (s.mch c) := tget_tmod_same _ _ _ _
theorem State.modMch_mch_other {c j : Nat} (f : MemCh → MemCh) (h : j ≠ c) : (s.modMch c f).mch j = s.mch j :=
  tget_tmod_other _ _ _ h
@[simp] theorem State.modTenant_tenant (p : Nat) (f : Tenant → Tenant) : (s.modTenant p f).tenant p = f (s.tenant p) := tget_tmod_same _ _ _ _
theorem State.modTenant_tenant_other {p j : Nat} (f : Tenant → Tenant) (h : j ≠ p) : (s.modTenant p f).tenant j = s.tenant j :=
  tget_tmod_other _ _ _ h
@[simp] theorem State.modEntry_entry (k : Nat) (f : Entry → Entry) : (s.modEntry k f).entry k = f (s.entry k) := tget_tmod_same _ _ _ _
theorem State.modEntry_entry_other {k j : Nat} (f : Entry → Entry) (h : j ≠ k) : (s.modEntry k f).entry j = s.entry j :=
  tget_tmod_other _ _ _ h
@[simp] theorem State.modEngine_engine (e : Nat) (f : Engine → Engine) : (s.modEngine e f).engine e = f (s.engine e) := tget_tmod_same _ _ _ _
theorem State.modEngine_engine_other {e j : Nat} (f : Engine → Engine) (h : j ≠ e) : (s.modEngine e f).engine j = s.engine j :=
  tget_tmod_other _ _ _ h
@[simp] theorem State.modDevice_device (d : Nat) (f : Device → Device) : (s.modDevice d f).device d = f (s.device d) := tget_tmod_same _ _ _ _
theorem State.modDevice_device_other {d j : Nat} (f : Device → Device) (h : j ≠ d) : (s.modDevice d f).device j = s.device j :=
  tget_tmod_other _ _ _ h
@[simp] theorem State.modFlex_flexP (n : Nat) (f : Flex → Flex) : (s.modFlex n f).flexP n = f (s.flexP n) := tget_tmod_same _ _ _ _
theorem State.modFlex_flexP_other {n j : Nat} (f : Flex → Flex) (h : j ≠ n) : (s.modFlex n f).flexP j = s.flexP j :=
  tget_tmod_other _ _ _ h
@[simp] theorem State.modRack_rack (k : Nat) (f : Rack → Rack) : (s.modRack k f).rack k = f (s.rack k) := tget_tmod_same _ _ _ _
theorem State.modRack_rack_other {k j : Nat} (f : Rack → Rack) (h : j ≠ k) : (s.modRack k f).rack j = s.rack j :=
  tget_tmod_other _ _ _ h
@[simp] theorem State.modEndpoint_endpoint (e : Nat) (f : Endpoint → Endpoint) : (s.modEndpoint e f).endpoint e = f (s.endpoint e) := tget_tmod_same _ _ _ _
theorem State.modEndpoint_endpoint_other {e j : Nat} (f : Endpoint → Endpoint) (h : j ≠ e) : (s.modEndpoint e f).endpoint j = s.endpoint j :=
  tget_tmod_other _ _ _ h
@[simp] theorem State.modSite_site (g : Nat) (f : Site → Site) : (s.modSite g f).site g = f (s.site g) := tget_tmod_same _ _ _ _
theorem State.modSite_site_other {g j : Nat} (f : Site → Site) (h : j ≠ g) : (s.modSite g f).site j = s.site j :=
  tget_tmod_other _ _ _ h
@[simp] theorem State.modMbox_mbox (p : Nat) (f : Mbox → Mbox) : (s.modMbox p f).mbox p = f (s.mbox p) := tget_tmod_same _ _ _ _
theorem State.modMbox_mbox_other {p j : Nat} (f : Mbox → Mbox) (h : j ≠ p) : (s.modMbox p f).mbox j = s.mbox j :=
  tget_tmod_other _ _ _ h
@[simp] theorem State.modPly_ply (k p : Nat) (f : Ply → Ply) : (s.modPly k p f).ply k p = f (s.ply k p) := tget_tmod_same _ _ _ _
/-- Plies below 20 of two skeins are different plies. -/
theorem State.modPly_ply_other {k p m q : Nat} (f : Ply → Ply) (hp : p < 20) (hq : q < 20) (h : m ≠ k ∨ q ≠ p) :
    (s.modPly k p f).ply m q = s.ply m q := tget_tmod_other _ _ _ (by omega)
@[simp] theorem State.send_net (q : Packet) : (s.send q).fab.net = s.fab.net ++ [q] := rfl

end Sys2Proof.Machine
end

