-- ==== Sys2Proof/Tests/Setup.lean ====
section
/-!
SUPPORT. The small reel that the tests start from, and readings of an answer: four skeins up, one spindle on each of the
first three, four channels of 64 GiB in service.
-/

namespace Sys2Proof.Tests

set_option Elab.async false

open Sys2Proof Sys2Proof.Machine

/-- A memory capability over a range with every permission. -/
def capAll (base len : Nat) : Cap := mkCap base len 0xFFF 0 0 true

/-- A spindle on ply 0 of a skein with its code, TSB, TDT and EVENT_BASE in local memory, and c1 over a data range. -/
def spin (k : Nat) : Spindle :=
  { arch := { codecap := capAll 0 0x100000, c := [(1, capAll 0x10000 0x10000)] }, host := some ⟨k, 0, 0⟩, released := true,
    tsb := capAll 0x80000 6144, tdt := capAll 0x90000 0x60000, eventBase := capAll 0x1000 512, ba := 0x2000 }

/-- A skein in service. -/
def skein0 : Skein := { present := true, linkState := 2, hubWidth := 64, buddyWidth := 24 }

/-- The place of spindle 0. -/
def h0 : Place := ⟨0, 0, 0⟩

/-- The small reel. -/
def reel : State :=
  { life := .run,
    cores := {
      spindles := [(0, spin 0), (1, spin 1), (2, spin 2)],
      plies := [(0, { state := 0, step := 0 }), (1, { state := 2 }), (20, { state := 0, step := 0 }), (40, { state := 0, step := 0 })],
      skeins := [(0, skein0), (1, skein0), (2, skein0), (3, skein0)] },
    mcs := { interleave := 1, chans := (List.range 4).map fun c => (c, { state := 1, dimms := 1, capacity := 64 }) } }

/-- The state that an answer holds. -/
def after (o : Host.Outcome State Fault Refusal) : State := match o with
  | .next t => t
  | _ => {}

/-- Spindle i is ready on place h, as a Bool. -/
def readyB (s : State) (i : Nat) (h : Place) : Bool :=
  s.canIssue i && decide ((s.sp i).host = some h) && (s.takeEvents i).isNone && (s.sp i).ops.isEmpty && (s.sp i).stores.isEmpty &&
    (s.sp i).serial.isNone && decide ((s.sp i).arch.pendInfo = 0) && !(s.sp i).arch.precise && s.faults.todo.isEmpty

theorem ready_of {s : State} {i : Nat} {h : Place} (e : readyB s i h = true) : s.Ready i h := by
  simp only [readyB, Bool.and_eq_true, decide_eq_true_eq, Option.isNone_iff_eq_none, List.isEmpty_iff, Bool.not_eq_true'] at e
  constructor <;> first | exact e.2 | tauto

/-- The reel with spindle 0, skein 0 or ply 0 of skein 0 changed. -/
def withSp (f : Spindle → Spindle) : State := reel.modSp 0 f
def withSk (f : Skein → Skein) : State := reel.modSk 0 f
def withPl (f : Ply → Ply) : State := reel.modPly 0 0 f
/-- The reel whose unit u of spindle 0 holds an operand 1. -/
def withO1 (u : Nat) (b : Cap) : State := withSp fun x => { x with arch := x.arch.modUnit u fun w => { w with o1 := b } }
/-- The reel whose skein 0 holds the lines named, in the L2 of ply 0. -/
def withLines (ls : List (Nat × SkLine)) : State := withSk fun z => { z with lines := ls }

end Sys2Proof.Tests
end

