-- ==== Sys2Proof/Tests/Witness8.lean ====
section
/-!
SUPPORT. Witnesses for the statements about faults, logs, Service mode, tenant pages and their units, clause by clause.
-/

namespace Sys2Proof.Tests

set_option Elab.async false

open Sys2Proof Sys2Proof.Machine

/-- The BMC mailbox's slot 3 with SEQ 7, and slot 3 of partition 2's page. -/
def bmc : Mb := ⟨49, 3, 7⟩
def page2 : Mb := ⟨2, 3, 7⟩

/-- A message on the idle BMC mailbox is taken, whatever its command. -/
theorem takes_bmc {s : State} (live : s.mailboxLive 49 = true) (run : s.life ≠ .halt) (idle : (s.mbox 49).busy.getLsbD 3 = false)
    (fresh : tget 0 (s.mbox 49).lastSeq 3 ≠ 8) (code : Nat) (who : Who) : s.Takes (s.ring1 49 3 7) bmc code who :=
  ⟨by decide, by decide, by decide, live, by cases who <;> rfl, fun h => absurd h run, Or.inr (Or.inr ⟨rfl, idle, fresh, rfl⟩)⟩

/-- The reel whose partition 2 has rung for a command. -/
def rung (code : Nat) : State :=
  (reel.modMbox 2 fun m => { m with req := [(12, ⟨BitVec.ofNat 128 (code + 7 * 2 ^ 32), false⟩)] }).ring1 2 3 7

/-- A command that waits in a page's slot is taken. -/
theorem takes_page : (rung 0x50).Takes (rung 0x50) page2 0x50 .any :=
  ⟨by decide, by decide, by decide, by decide +kernel, rfl, fun h => absurd h (by decide),
    Or.inl ⟨by decide, by decide +kernel, by decide +kernel, by decide +kernel, rfl⟩⟩

/-- Events of severity 6, 0 and between. -/
def halting : EventIn := { src := 0x0C02, inst := 0, spindle := none, detail := 0 }
def quietEvent : EventIn := { src := 0x0600, inst := 0, spindle := none, detail := 0 }
def silenced : State := { reel with params := [(paramKey 0x0E00 0x0600, 0)] }
def thirdEvent : EventIn := { src := 0x0102, inst := 5, spindle := some 1, detail := 0 }

theorem witness_FaultEventsAreCollected :
    reel.life ≠ .off ∧ sourceKnown halting.src = true ∧ sourceKnown quietEvent.src = true ∧ sourceKnown thirdEvent.src = true ∧
      reel.rollSecond.baseSev halting.src 0 = 6 ∧ silenced.rollSecond.baseSev quietEvent.src 0 = 0 ∧
      3 ≤ reel.rollSecond.baseSev thirdEvent.src 5 ∧ reel.rollSecond.baseSev thirdEvent.src 5 < 6 := by
  decide +kernel

/-- The reel with an active record of partition 2. -/
def active (r : ActRec) : State := { reel with faults := { reel.faults with active := [{ r with seq := 4, owner := 2 }] }, time := 1000 }

/-- The BMC mailbox's and partition 2's commands in a reel with that record; the page's has rung. -/
def activeTaken (r : ActRec) : State := (active r).ring1 49 3 7
def activeRung (code : Nat) : State :=
  { rung code with faults := { (rung code).faults with active := [{ seq := 4, owner := 2, sev := 4 }] } }

theorem witness_CountdownsAndRecordsAreServed_clear :
    (∀ code : Nat, ∀ who : Who, (active { sev := 3 }).Takes (activeTaken { sev := 3 }) bmc code who) ∧
      (activeTaken { sev := 3 }).recordFor (mbPart bmc) 4 = some { seq := 4, owner := 2, sev := 3 } ∧
      (∀ code : Nat, ∀ who : Who, (active { sev := 6 }).Takes (activeTaken { sev := 6 }) bmc code who) ∧
      (activeTaken { sev := 6 }).recordFor (mbPart bmc) 4 = some { seq := 4, owner := 2, sev := 6 } ∧
      (activeRung 0x51).Takes (activeRung 0x51) page2 0x51 .any ∧
      (activeRung 0x51).recordFor (mbPart page2) 4 = some { seq := 4, owner := 2, sev := 4 } ∧ (1000 : Nat) ≤ (active {}).time :=
  ⟨fun _ _ => takes_bmc (by decide +kernel) (by decide) (by decide +kernel) (by decide +kernel) _ _, by decide +kernel,
    fun _ _ => takes_bmc (by decide +kernel) (by decide) (by decide +kernel) (by decide +kernel) _ _, by decide +kernel,
    ⟨by decide, by decide, by decide, by decide +kernel, rfl, fun h => absurd h (by decide),
      Or.inl ⟨by decide, by decide +kernel, by decide +kernel, by decide +kernel, rfl⟩⟩, by decide +kernel, by decide⟩

theorem witness_CountdownsAndRecordsAreServed :
    (active { next := 1, due := 1000 }).faults.active.find? (fun r => r.seq == 4) = some { seq := 4, owner := 2, next := 1, due := 1000 } ∧
      (active { next := 4, due := 1000 }).faults.active.find? (fun r => r.seq == 4) = some { seq := 4, owner := 2, next := 4, due := 1000 } ∧
      (active { next := 5, due := 1000 }).faults.active.find? (fun r => r.seq == 4) = some { seq := 4, owner := 2, next := 5, due := 1000 } ∧
      (rung 0x50).Takes (rung 0x50) page2 0x50 .any ∧ (rung 0x50).recordFor (mbPart page2) 4 = none ∧
      (active {}).Takes ((active {}).ring1 49 3 7) bmc 0x50 .any ∧ (active {}).Takes ((active {}).ring1 49 3 7) bmc 0x51 .any ∧
      ((active {}).ring1 49 3 7).recordFor (mbPart bmc) 4 = some { seq := 4, owner := 2 } ∧ mbPart bmc = 0 ∧ mbPart page2 = 2 ∧
      ({ reel with faults := { reel.faults with service := true } } : State).faults.service = true ∧
      sourceKnown (bits (0x102 : Word).toNat 0 16) = true ∧ sourceKnown (bits (0xFF : Word).toNat 0 16) = false ∧
      bitAt (0x105 : Word).toNat 24 = false ∧ bitAt (0x1000005 : Word).toNat 24 = true ∧ reel.life ≠ .off :=
  by and_intros <;> decide +kernel

/-- The reel with the faults' unit in a state. -/
def faulted (f : Faults → Faults) : State := { reel with faults := f reel.faults, time := 10 ^ 15 }
def buf0 : Buf := ⟨0, 0, []⟩

/-- A pulse is due, or a drain is open, as the BMC mailbox asks for a snapshot. -/
theorem witness_SnapshotsLogsAndServiceMode_busy (r : Option SnapReq) (d : Option Nat) (code : Nat) (who : Who) :
    let s := faulted fun f => { f with pulseReq := r, draining := d }
    s.Takes (s.ring1 49 3 7) bmc code who ∧ (s.ring1 49 3 7).faults.pulseReq = r ∧ (s.ring1 49 3 7).faults.draining = d :=
  ⟨takes_bmc (by show (faulted id).mailboxLive 49 = true; decide +kernel) (by show (faulted id).life ≠ _; decide)
    (by show ((faulted id).mbox 49).busy.getLsbD 3 = false; decide +kernel)
    (by show tget 0 ((faulted id).mbox 49).lastSeq 3 ≠ 8; decide +kernel) _ _, rfl, rfl⟩

theorem witness_SnapshotsLogsAndServiceMode :
    (1 : Word).getLsbD 0 = true ∧ reel.faults.pulseReq = none ∧ reel.faults.draining = none ∧
      (∀ code : Nat, ∀ who : Who, reel.Takes (reel.ring1 49 3 7) bmc code who) ∧
      (faulted fun f => { f with draining := some 3 }).faults.draining = some 3 ∧
      (faulted fun f => { f with draining := some 3 }).faults.pulseReq = none ∧
      (faulted fun f => { f with pulseReq := some { fatal := true } }).faults.pulseReq = some { fatal := true } ∧
      (faulted id).time / 1000000000 ≠ (faulted id).faults.secStart ∧
      (faulted fun f => { f with secSup := 1 }).faults.secSup ≠ 0 ∧ reel.bufOk bmc buf0 = true ∧
      (reel.bufOut bmc buf0 []).1 = true ∧ (faulted fun f => { f with service := true }).faults.service = true ∧
      0 + (faulted id).param 0x0E06 0 * 1000000000 ≤ (faulted id).time :=
  ⟨by decide, rfl, rfl, fun _ _ => takes_bmc (by decide +kernel) (by decide) (by decide +kernel) (by decide +kernel) _ _, rfl, rfl, rfl,
    by decide +kernel, by decide, by decide +kernel, rfl, rfl, by decide +kernel⟩

/-- Page 4095 is of partition 1, which has the first 2 MiB; its press context is held by skein 0, modified or not. -/
def held (dirty : List Nat) : State :=
  let s := { reel with params := [(paramKey 0x0D10 4095, 1), (paramKey 0x0101 16, 2 ^ 63 + 2 ^ 31)], time := 10 ^ 15 }
  (s.modTenant 4095 fun t => { t with pHolder := some 0, cHolder := some 0 }).modSk 0 fun z => { z with
    ctxDirty := dirty, press := 1, cipher := 1, granted := 224, pCache := [4095] }
def missed (n : Nat) : State := { (withSk fun z => { z with
  press := 1, granted := 96, pMis := List.replicate n 1, entropyOk := true }) with time := 2 }

theorem witness_TenantPagesAndUnitsAreServed :
    capMem (capAll 0x10000 65536) = true ∧ capHasAll (capAll 0x10000 65536) [pLOAD, pSTORE] = true ∧ 65536 ≤ capLen (capAll 0x10000 65536) ∧
      (held []).memRange 0x10000 65536 = true ∧
      inRanges ((held []).partRanges ((held []).param 0x0D10 4095)) (capBase (capAll 0x10000 65536)) 65536 = true ∧
      ¬ 65536 ≤ capLen (capAll 0x10000 65535) ∧ ((held []).tenant 4095).pHolder = some 0 ∧ ((held []).tenant 4095).busyP = none ∧
      ((held []).tenant 4095).cHolder = some 0 ∧ ((held []).tenant 4095).busyC = none ∧ (held [4095]).pcUnfastened 0 4095 = true ∧
      (held []).pcUnfastened 0 4095 = false ∧ ((held []).sk 0).pcState (pcNumber .press) = 1 ∧
      ((held []).sk 0).pcState (pcNumber .cipher) = 1 ∧ (held []).pcBusy 0 (pcNumber .cipher) = 0 ∧
      ((held []).sk 0).pIdleAt + (held []).param 0x0D00 0 * 1000 ≤ (held []).time ∧
      ((held []).sk 0).cIdleAt + (held []).param 0x0D00 0 * 1000 ≤ (held []).time ∧ (((held []).pcPages 0 .press).any fun pg => (held []).pcUnfastened 0 pg) = false ∧
      (held []).pcBusy 0 (pcNumber .press) = 0 ∧ (((held []).pcPages 0 .cipher).any fun pg => (held []).pcUnfastened 0 pg) = false ∧ ((missed 2).sk 0).pMis = [1, 1] ∧
      ((missed 2).sk 0).pcState (pcNumber .press) = 1 ∧ ((missed 1).sk 0).pMis = [1] ∧ (missed 1).skeinUp 0 = true ∧
      ((missed 1).sk 0).entropyOk = true := by
  decide +kernel

end Sys2Proof.Tests
end

