-- ==== Sys2Proof/Tests/Witness9.lean ====
section
/-!
SUPPORT. Witnesses for the statements about parameters, the change set and the tally pulses, clause by clause.
-/

namespace Sys2Proof.Tests

set_option Elab.async false

open Sys2Proof Sys2Proof.Machine

/-- The reel's BMC message as Jalif takes it. -/
def told (s : State) : State := s.ring1 49 3 7
theorem reel_takes (code : Nat) (who : Who) : reel.Takes (told reel) bmc code who :=
  takes_bmc (by decide +kernel) (by decide) (by decide +kernel) (by decide +kernel) code who

theorem witness_ParametersAndNoticesAreRead :
    (∀ code : Nat, ∀ who : Who, reel.Takes (told reel) bmc code who) ∧ paramRow 0x0006 = none ∧
      (∃ r, paramRow 0x0C02 = some r ∧ paramIndexOk r 63 = true ∧ r.service = false ∧ 8 * 23 < r.width) ∧
      (told reel).mayRead (mbPart bmc) 0x0C02 63 = true ∧ (rung 0x01).Takes (rung 0x01) page2 0x01 .any ∧
      (rung 0x01).mayRead (mbPart page2) 0x0C02 63 = false :=
  ⟨reel_takes, by decide, ⟨⟨0x0C02, 192, 64, true, false⟩, by decide, by decide, rfl, by decide⟩, by decide +kernel,
    ⟨by decide, by decide, by decide, by decide +kernel, rfl, fun h => absurd h (by decide),
      Or.inl ⟨by decide, by decide +kernel, by decide +kernel, by decide +kernel, rfl⟩⟩, by decide +kernel⟩

/-- A change set in a state, with values, that the BMC mailbox opened. -/
def changing (st : Nat) (vals : List Staged) : State :=
  reel.modJalif fun j => { j with change := { st := st, opener := 49, vals := vals, mb := some bmc, acks := 0x1001 } }
theorem changing_takes (st : Nat) (vals : List Staged) (code : Nat) (who : Who) :
    (changing st vals).Takes (told (changing st vals)) bmc code who :=
  takes_bmc (by show (changing 0 []).mailboxLive 49 = true; decide +kernel) (by show (changing 0 []).life ≠ _; decide)
    (by show ((changing 0 []).mbox 49).busy.getLsbD 3 = false; decide +kernel)
    (by show tget 0 ((changing 0 []).mbox 49).lastSeq 3 ≠ 8; decide +kernel) code who
/-- The change set's state as its opener's command finds it. -/
def opened (st : Nat) (vals : List Staged) : State := (told (changing st vals)).modChange fun c => { c with last := 0 }
theorem changing_change (st : Nat) (vals : List Staged) (code : Nat) (states : List Nat) (h : states.contains st = true) :
    (changing st vals).TakesChange (opened st vals) bmc code states :=
  ⟨told (changing st vals), changing_takes st vals code .zero, Or.inr rfl, h, rfl⟩

/-- A set that passes every check: partition 0 has the first 2 MiB and spindle 0. -/
def okSet : List Staged := [{ id := 0x0101, idx := 0, val := 2 ^ 63 + 2 ^ 31 }, { id := 0x0103, idx := 0, val := 0 }]
/-- Dies 0 and 12 have still to acknowledge, 1 ms after the COMMIT. -/
def waitingAcks : State := { changing 3 okSet with time := 1000000 }

theorem witness_ChangeSetIsStagedCheckedAndCommitted :
    (∀ code : Nat, reel.Takes (told reel) bmc code .zero) ∧ (told reel).jalif.change.st = 0 ∧
      (changing 1 []).TakesChange (opened 1 []) bmc 0x11 [1, 2] ∧ (opened 1 []).stageStatus [] 0x0801 0 1000 = 0 ∧
      (opened 1 []).stageStatus [] 0x0801 1 1000 ≠ 0 ∧
      (changing 2 okSet).TakesChange (opened 2 okSet) bmc 0x13 [2] ∧
      (opened 2 okSet).checkSet okSet = none ∧ (opened 2 []).checkSet [] = some (1, 0x0A, 0x0101, 0) ∧
      (changing 3 okSet).jalif.change.st = 3 ∧ waitingAcks.jalif.change.st = 3 ∧ waitingAcks.acksLeft = true ∧
      waitingAcks.jalif.change.last + 1000000 ≤ waitingAcks.time ∧ waitingAcks.jalif.change.mb = some bmc ∧ bmc.slot < 4 ∧
      (changing 1 []).jalif.change.last + (changing 1 []).param 0x0F01 0 * 1000000000 ≤ { changing 1 [] with time := 10 ^ 15 }.time ∧
      (told reel).censusDiff = 0 ∧ (told (reel.modJalif fun j => { j with gen := 2 })).censusDiff ≠ 0 :=
  ⟨fun _ => reel_takes _ _, rfl, changing_change _ _ _ _ rfl, by decide +kernel, by decide +kernel, changing_change _ _ _ _ rfl,
    by decide +kernel, by decide +kernel, rfl, rfl, by decide +kernel, by decide +kernel, rfl, by decide, by decide +kernel, by decide +kernel,
    by decide +kernel⟩

/-- All dies have acknowledged; partition 2, with its start record in its range, waits for its release. -/
def due : State := (changing 3 okSet).modJalif fun j => { j with change := { j.change with acks := 0 } }
def retiring : State := reel.modJalif fun j => { j with retireq := [7] }
def snapping (fatal : Bool) : State := { reel with faults := { reel.faults with pulseReq := some { fatal := fatal } } }

/-- Partition 0, with 2 MiB and spindle 0, waits for its release. -/
def released0 : State :=
  let s := { reel with params := [(paramKey 0x0101 0, 2 ^ 63 + 2 ^ 31), (paramKey 0x0103 0, 0)] }
  (s.modSp 0 fun x => { x with released := false }).modJalif fun j => { j with
    toRelease := [2, 0], boot := { j.boot with p0Load := 0, p0Len := 4096, p0Entry := 255 } }

theorem witness_TallyPulsesApplyChanges :
    due.life ≠ .off ∧ due.jalif.nextPulse ≤ due.time ∧ due.commitDue = true ∧ due.jalif.change.mb = some bmc ∧
      retiring.commitDue = false ∧ retiring.jalif.retireq = [7] ∧ retiring.jalif.change.st ≠ 3 ∧
      (∀ b : Bool, (snapping b).faults.pulseReq = some { fatal := b }) ∧ (snapping true).commitDue = false ∧
      (snapping true).jalif.retireq = [] ∧ (∀ code : Nat, reel.Takes (told reel) bmc code .zero) ∧
      (told reel).installed = 4 * 63 * 2 ^ 30 ∧
      (told reel).noRetired (4096 * ((4 * 63 * 2 ^ 30 - 1) / 4096)) 4096 = true ∧ (told reel).mcs.retired = [] ∧
      released0.running = true ∧ released0.jalif.toRelease.contains 0 = true ∧
      released0.readStart 0 = (some released0.startZero, released0) ∧ released0.startZero.isSome = true ∧
      released0.spindlesOf 0 = [0] :=
  ⟨by decide, by decide, by decide +kernel, rfl, by decide +kernel, rfl, by decide, fun _ => rfl, by decide +kernel, rfl,
    fun _ => reel_takes _ _, by decide +kernel, by decide +kernel, rfl, by decide +kernel, by decide +kernel, rfl, by decide +kernel,
    by decide +kernel⟩

end Sys2Proof.Tests
end

