-- ==== Sys2Proof/Tests/Witness10.lean ====
section
/-!
SUPPORT. Witnesses for the statements about spindle commands, freezes and migration, clause by clause.
-/

namespace Sys2Proof.Tests

set_option Elab.async false

open Sys2Proof Sys2Proof.Machine

/-- The reel with a change, as a BMC message finds it: taken. -/
def takenB (s : State) : Bool :=
  s.mailboxLive 49 && decide (s.life ≠ .halt) && !(s.mbox 49).busy.getLsbD 3 && decide (tget 0 (s.mbox 49).lastSeq 3 ≠ 8)
theorem taken_of {s : State} (e : takenB s = true) (code : Nat) (who : Who) : s.Takes (told s) bmc code who := by
  simp only [takenB, Bool.and_eq_true, decide_eq_true_eq, Bool.not_eq_true'] at e
  apply takes_bmc <;> tauto

/-- Spindle 0 stopped with its state kept, its slot full; suspended; on its way; and Service mode. -/
def stopped : State := withSp fun x => { x with stopped := 6, slot := some {}, arch := { x.arch with imask := 0x20000 } }
def released1 (suspended : Bool) : State :=
  { (withSp fun x => { x with suspended := suspended, host := if suspended then none else some ⟨0, 0, 0⟩ }) with
    params := [(paramKey 0x0103 0, 0), (paramKey 0x0101 0, 2 ^ 63 + 2 ^ 31)] }.modJalif fun j => { j with
      boot := { j.boot with p0Load := 0, p0Len := 4096, p0Entry := 255 } }
def serviced : State := { reel with faults := { reel.faults with service := true } }
def lostCh : State := reel.modMch 15 fun m => { m with state := 2 }
/-- Partition 48 and page 4095 of it, in a stage of a freeze. -/
def freezing (pst : Nat) (frozen : Bool) (scope : Option Nat) : State :=
  ({ reel with params := [(paramKey 0x0100 48, 1), (paramKey 0x0D10 4095, 48), (paramKey 0x0103 1, 48)] }.modTenant 4095 fun t =>
    { t with frozen := frozen }).modJalif fun j => { j with
      partState := [(48, pst)], freezes := scope.toList.map fun c => { scope := c, target := if c = 0 then 48 else 4095 } }

theorem witness_SpindleAndFreezeCommandsAreServed :
    ((∀ code : Nat, ∀ who : Who, reel.Takes (told reel) bmc code who) ∧ (told reel).spindleKnown 479 = false ∧
      (told reel).spindleKnown 0 = true ∧ ((told reel).sp 0).retained = false) ∧
    ((∀ code : Nat, stopped.Takes (told stopped) bmc code .zero) ∧ (told stopped).spindleKnown 0 = true ∧
      ((told stopped).sp 0).retained = true ∧ slotBusy ((told stopped).sp 0) = true ∧ ((told stopped).sp 0).slot = some {}) ∧
    ((∀ b : Bool, ∀ code : Nat, (released1 b).Takes (told (released1 b)) bmc code .zero) ∧
      (∀ b : Bool, (told (released1 b)).partOf 0 = some 0 ∧ (told (released1 b)).spindleKnown 0 = true ∧
        ((told (released1 b)).sp 0).suspended = b) ∧ ((told (released1 false)).sp 0).host = some ⟨0, 0, 0⟩ ∧
      ((told (released1 false)).ply 0 0).state ≠ 3 ∧
      (told (released1 false)).readStart 0 = (some (told (released1 false)).startZero, told (released1 false)) ∧
      (told (released1 false)).startZero.isSome = true) ∧
    ((told reel).bufOk bmc buf0 = true ∧ ((told reel).sp 0).slot = none ∧ ((told reel).sp 0).host.isSome = true ∧
      ((told reel).sp 0).moving = false ∧ (told reel).skeinUp 0 = true ∧
      ((told reel).hosted 0).length + ((told reel).targets.filter fun d => d.skein == 0).length < 40 ∧
      (∃ d, (told reel).movePlace 0 none = some d)) ∧
    ((∀ code : Nat, serviced.Takes (told serviced) bmc code .zero) ∧ (told serviced).faults.service = true ∧
      ((told serviced).sp 0).host = some ⟨0, 0, 0⟩ ∧ ((told serviced).sk 0).split = false ∧ ((told serviced).ply 0 0).state = 0 ∧
      ((told serviced).ply 0 0).testPend = false) ∧
    ((∀ code : Nat, lostCh.Takes (told lostCh) bmc code .zero) ∧ ((told lostCh).mch 15).state = 2 ∧ ((told lostCh).mch 15).retrain = none) ∧
    ((∀ pst b sc, ∀ code : Nat, (freezing pst b sc).Takes (told (freezing pst b sc)) bmc code .zero) ∧
      (told (freezing 3 false none)).targetFrozen 0 48 = true ∧ scopeOk 0 48 = true ∧ scopeOk 1 4095 = true ∧
      (told (freezing 1 false none)).freezeTarget 0 48 = true ∧ (told (freezing 1 false none)).targetFrozen 0 48 = false ∧
      (told (freezing 1 false none)).freezing 0 48 = false ∧ (told (freezing 1 false none)).freezeTarget 1 4095 = true ∧
      (told (freezing 1 false none)).targetFrozen 1 4095 = false ∧ (told (freezing 1 false none)).freezing 1 4095 = false ∧
      (told (freezing 1 true none)).targetFrozen 1 4095 = true ∧ (freezing 2 false (some 1)).freezing 1 4095 = true ∧
      (freezing 2 false (some 1)).pageStable 4095 = true ∧ (freezing 2 false (some 0)).freezing 0 48 = true ∧
      (let s := (freezing 2 true (some 0)).modSp 1 fun x => { x with frozen := true };
       (foldS (s.spindlesOf 48) (fun i (v : State) => v.park i) s).freezeReady 0 48 = true)) := by
  refine ⟨⟨reel_takes, ?_⟩, ⟨fun c => taken_of (by decide +kernel) c _, ?_⟩, ⟨?_, ?_, ?_⟩, ?_, ⟨fun c => taken_of (by decide +kernel) c _, ?_⟩,
    ⟨fun c => taken_of (by decide +kernel) c _, ?_⟩, ?_, ?_⟩
  · decide +kernel
  · decide +kernel
  · intro b; cases b <;> exact fun c => taken_of (by decide +kernel) c _
  · intro b; cases b <;> decide +kernel
  · exact ⟨by decide +kernel, by decide +kernel, rfl, by decide +kernel⟩
  · and_intros <;> first | decide +kernel | exact ⟨⟨0, 1, 0⟩, by decide +kernel⟩
  · decide +kernel
  · decide +kernel
  · exact fun pst b sc c => taken_of (by show takenB (freezing 0 false none) = true; decide +kernel) c _
  · decide +kernel

end Sys2Proof.Tests
end

