-- ==== Sys2Proof/Tests/Witness6.lean ====
section
/-!
SUPPORT. Witnesses for the statements about submissions, the ledger, its attempts and the completion rings, clause by clause.
-/

namespace Sys2Proof.Tests

set_option Elab.async false

open Sys2Proof Sys2Proof.Machine

/-- Parameters under which tenant page 3 is of partition 1, device 7 is an NVMe device of it whose path 0 is flex port 0 (up), and
device 8 a PCIe function; the submissions are accepted. -/
def channelParams : List (Nat × Nat) :=
  [(paramKey 0x0D10 3, 1), (paramKey 0x0B03 7, 1 + 4 * 1 + 2 ^ 8), (paramKey 0x0B03 8, 2 + 4 * 1 + 2 ^ 8), (paramKey 0x0B03 9, 3),
    (paramKey 0x0B04 28, 2 ^ 63), (paramKey 0x0B00 3, 64), (paramKey 0x0B01 1, 64), (paramKey 0x0B02 1, 1),
    (paramKey 0x0B05 3, 2 ^ 63 + 2 ^ 12 * 1 + 2 ^ 52 * 5), (paramKey 0x0B06 3, 1 + 2 ^ 19 * 64), (paramKey 0x0B08 0, 3)]
def channelReel : State :=
  let s := { reel with params := channelParams, chan := { reel.chan with accepting := true } }
  s.modFlex 0 fun x => { x with state := 2 }

/-- The page's capability slots: its completion authority, a block of 192 bytes at 0x40, and a data range; and the block of a
READ of 4 bytes for device 7 through slot 2. -/
def submitReel : State :=
  let s := channelReel.modTenant 3 fun t => { t with
    slots := [(0, mkCap 0 0 (2 ^ pSTORE) 3 3 true), (1, mkCap 0x40 192 (2 ^ pLOAD) 0 0 true), (2, capAll 0x1000 4096)] }
  { s with mem := s.mem.setLine 0 { data := BitVec.ofNat 1024 ((1 + 3 * 2 ^ 16 + 1 * 2 ^ 32 + 1 * 2 ^ 40 + 7 * 2 ^ 48 + 1 * 2 ^ 64) * 2 ^ 512),
                                    tags := 0, poison := false }
           |>.setLine 1 { data := BitVec.ofNat 1024 (2 * 2 ^ 44 + 4 * 2 ^ 64), tags := 0, poison := false } }
def submitBlock : List Nat := match (submitReel.hubBytes 0x40 192).1 with
  | some (xs, _) => xs
  | none => []

theorem find_first (f : Nat → Bool) (n : Nat) (h : f 0 = true) : (List.range (n + 1)).find? f = some 0 := by
  rw [List.range_succ_eq_map, List.find?_cons, h]

theorem witness_SubmissionsEnterTheLedgerOrAreRejected :
    (∃ k, submitReel.Submits 3 1 0 submitBlock k) ∧ ({ reel with chan := { reel.chan with accepting := false } } : State).chan.accepting = false ∧
      reel.ring 3 = none ∧ channelReel.slotOk 3 15 (capAll 0x1000 4096) = true ∧ channelReel.slotOk 3 0 (capAll 0x1000 4096) = false := by
  refine ⟨⟨Config.ledgerStart 0 % 65536, ?_⟩, rfl, by decide +kernel, by decide +kernel, by decide +kernel⟩
  refine ⟨by decide +kernel, by decide +kernel, by decide +kernel, by decide +kernel, by decide +kernel, by decide +kernel,
    by decide +kernel, by decide +kernel, ?_⟩
  unfold State.freeSlot
  rw [find_first _ 65535 (by rfl)]
  rfl

/-- The ledger with entry 9 of the page, in a state, for device 7. -/
def withEntry (e : Entry) : State := { channelReel with chan := { channelReel.chan with ledger := [(9, e)] } }
def entry7 (st : LState) : Entry := { st := st, tenant := 3, part := 1, device := 7, op := 2, tag := 9 * 2 ^ 20 }

theorem witness_LedgerEntriesAdvance :
    (withEntry (entry7 .queued)).entry 9 = entry7 .queued ∧ (withEntry (entry7 .queued)).firstQueued (entry7 .queued) = true ∧
      (withEntry (entry7 .queued)).laneFault (entry7 .queued) = none ∧ (entry7 .queued).lanes = false ∧
      (withEntry (entry7 .queued)).chooseEngine (entry7 .queued) = some 0 ∧
      (withEntry (entry7 .queued)).choosePath (entry7 .queued) = some 0 ∧ (withEntry (entry7 .queued)).devType 7 = 1 ∧
      (withEntry (entry7 .queued)).devType 8 = 2 ∧ (withEntry (entry7 .active)).engineUp 0 = true ∧ (withEntry (entry7 .issued)).segsUncovered (entry7 .issued) = false ∧
      (withEntry (entry7 .issued)).streamPoison (entry7 .issued) = none ∧
      ((withEntry { entry7 .redrive with everIssued := true, redrives := 2 }).entry 9).everIssued = true ∧
      1 ≤ ((withEntry { entry7 .redrive with everIssued := true, redrives := 2 }).entry 9).redrives := by
  decide +kernel

/-- An idempotent entry, for device d. -/
def idem (st : LState) (d : Nat) : Entry := { entry7 st with device := d, idem := true }
def old (s : State) : State := { s with time := 10 ^ 18 }

/-- MayRedrive as a Bool. -/
theorem may_redrive {s : State} {k : Nat} (e : (decide (s.devType (s.entry k).device ≠ 3) && (s.entry k).idem && !(s.entry k).cancel &&
    !(s.entry k).removed && decide ((s.entry k).redrives + 1 ≤ s.param 0x0B08 0)) = true) : s.MayRedrive k := by
  simp only [Bool.and_eq_true, decide_eq_true_eq, Bool.not_eq_true'] at e
  constructor <;> tauto

theorem witness_AttemptsAreCancelledTimedOutAndRedriven :
    bits (9 * 2 ^ 20) 20 16 = 9 ∧ (entry7 .queued).tag = (9 * 2 ^ 20) % 2 ^ 48 ∧ (entry7 .queued).tenant = 3 ∧
      (entry7 .queued).st = .queued ∧ bits 0 20 16 = 0 ∧ (reel.entry 0).st = .free ∧ (reel.entry 0).tag = 0 ∧
      ((old (withEntry (idem .issued 8))).entry 9).issueTime + (old (withEntry (idem .issued 8))).attemptLimit (idem .issued 8) ≤
        (old (withEntry (idem .issued 8))).time ∧
      (old (withEntry (idem .issued 7))).devType 7 = 1 ∧ (old (withEntry (idem .issued 8))).devType 8 = 2 ∧
      (old (withEntry (idem .issued 8))).MayRedrive 9 ∧ (withEntry { idem .issued 7 with abortWait := true }).MayRedrive 9 ∧
      (let s := old (withEntry { idem .issued 7 with abortWait := true })
       (s.entry 9).abortAt + bits (s.param 0x0B03 (s.entry 9).device) 8 24 * 1000000 ≤ s.time) ∧
      (idem .redrive 8).st = .redrive ∧ (old (withEntry (idem .redrive 8))).anyPath 8 = false ∧
      0 + (old (withEntry (idem .redrive 8))).param 0x0B09 0 * 1000000 ≤ (old (withEntry (idem .redrive 8))).time := by
  and_intros <;> first
    | decide +kernel
    | exact may_redrive (by decide +kernel)

/-- The page's ring of 32 entries at 0x1000 in a state, with a TERMINAL entry. -/
def ringed (st : Nat) : State := (withEntry (entry7 .terminal)).modTenant 3 fun t => { t with ringState := st, prod := 32, consumed := 1 }

theorem witness_CompletionRingsAreServed :
    (ringed 1).ring 3 = some (0x1000, 5) ∧ (ringed 1).nextPost 3 = some (9, entry7 .terminal) ∧
      ((ringed 1).tenant 3).ringState = 1 ∧ ((ringed 1).tenant 3).clearing = false ∧ ((ringed 1).tenant 3).ringUsed < 2 ^ 5 ∧
      (ringed 1).ringLineOk (0x1000 + 128 + 32 * (32 % 2 ^ 5)) 32 = true ∧
      ((ringed 1).hubWrite (0x1000 + 128 + 32 * (32 % 2 ^ 5)) (completionBytes 0 (9 * 2 ^ 20) 0 0 0 ((32 / 2 ^ 5 + 1) % 2) 0 0)).1 = true ∧
      ((ringed 2).tenant 3).ringState = 2 ∧ ((old (ringed 2)).tenant 3).polledAt + 1000 ≤ (old (ringed 2)).time ∧ (ringed 2).ringLineOk 0x1000 8 = true ∧
      ((ringed 2).hubBytes 0x1000 8).1 = some ([0, 0, 0, 0, 0, 0, 0, 0], false) ∧
      (((ringed 2).tenant 3).prod + 2 ^ 64 - leNat [0, 0, 0, 0, 0, 0, 0, 0]) % 2 ^ 64 ≤ 2 ^ 5 ∧
      (old (ringed 1)).tellDue ((old (ringed 1)).param 0x0B06 3) ⟨1, some 0⟩ = true ∧ bits ((old (ringed 1)).param 0x0B06 3) 0 2 = 1 := by
  decide +kernel

/-- Engine 127 in a state, with failures. -/
def engineIn (st : Nat) (fails : List Nat) : State :=
  { reel.modEngine 127 fun x => { x with state := st, fails := fails } with time := 1000000000 }

theorem witness_EnginesAndLedgerWordsFail :
    ((engineIn 0 []).engine 127).state ≠ 1 ∧ ((engineIn 0 []).engine 127).fails = [] ∧ ((engineIn 0 [1, 2]).engine 127).state = 0 ∧
      ((engineIn 0 [1, 2]).engine 127).fails = [1, 2] ∧ (engineIn 0 [1, 2]).time < 1 + 1000000000 ∧
      ((engineIn 2 []).engine 127).state = 2 ∧ ((withEntry (entry7 .queued)).entry 9).st = .queued := by
  decide +kernel

end Sys2Proof.Tests
end

