-- ==== Sys2Proof/Tests/Witness11.lean ====
section
/-!
SUPPORT. Witnesses for the statement about migration, clause by clause: an image whose tag verifies is built from a header and
any encrypted body.
-/

namespace Sys2Proof.Tests

set_option Elab.async false

open Sys2Proof Sys2Proof.Machine

/-- The tag of an image with a header of 64 bytes and an encrypted body. -/
def sealTag (key : List Nat) (hd ct : List Nat) : List Nat :=
  let h := ghKey key
  let iv := imgIv (imgHead hd).reel (imgHead hd).counter
  let (a1, p1) := ghUpdate h 0 [] hd
  let a2 := if p1.isEmpty then a1 else ghBlock h a1 p1
  let (a3, p3) := ghUpdate h a2 [] ct
  gcmTag key iv a3 p3 hd.length ct.length
/-- The image. -/
def image (key hd ct : List Nat) : List Nat := hd ++ ct ++ sealTag key hd ct

theorem nth_lt {xs : List Nat} (h : ∀ b ∈ xs, b < 256) (k : Nat) : nth xs k < 256 := by
  unfold nth
  rw [List.getD_eq_getElem?_getD]
  cases e : xs[k]? with
  | none => decide
  | some b => exact h b (List.mem_of_getElem? e)

theorem leBytes_lt (n x : Nat) : ∀ b ∈ leBytes n x, b < 256 := by
  intro b hb
  obtain ⟨k, -, rfl⟩ := List.mem_map.mp hb
  exact Nat.mod_lt _ (by decide)

theorem xorBytes_lt {xs ys : List Nat} (hx : ∀ b ∈ xs, b < 256) (hy : ∀ b ∈ ys, b < 256) : ∀ b ∈ xorBytes xs ys, b < 256 := by
  intro b hb
  obtain ⟨k, -, rfl⟩ := List.mem_map.mp hb
  exact Nat.xor_lt_two_pow (n := 8) (nth_lt hx k) (nth_lt hy k)

theorem beBytes_length (n x : Nat) : (beBytes n x).length = n := by simp [beBytes, leBytes]

theorem sealTag_length (key hd ct : List Nat) : (sealTag key hd ct).length = 16 := by
  show (xorBytes _ _).length = 16
  simp [xorBytes, beBytes_length]

/-- The first counter block of the key and IV holds bytes. -/
def CounterBytes (key hd : List Nat) : Prop := ∀ b ∈ gcmCtr key (imgIv (imgHead hd).reel (imgHead hd).counter) 0, b < 256

theorem sealTag_lt {key hd : List Nat} (ct : List Nat) (h : CounterBytes key hd) : ∀ b ∈ sealTag key hd ct, b < 256 := by
  unfold sealTag gcmTag
  refine xorBytes_lt (fun b hb => ?_) h
  exact leBytes_lt _ _ b (List.mem_reverse.mp hb)

theorem fieldAt_append {hd r : List Nat} {o n : Nat} (h : o + n ≤ hd.length) : fieldAt (hd ++ r) o n = fieldAt hd o n := by
  unfold fieldAt
  rw [List.drop_append_of_le_length (by omega), List.take_append_of_le_length (by rw [List.length_drop]; omega)]

theorem imgHead_append {hd r : List Nat} (h : hd.length = 64) : imgHead (hd ++ r) = imgHead hd := by
  unfold imgHead
  simp only [fieldAt_append (hd := hd) (r := r) (o := 0) (n := 4) (by omega), fieldAt_append (hd := hd) (r := r) (o := 6) (n := 2) (by omega),
    fieldAt_append (hd := hd) (r := r) (o := 8) (n := 4) (by omega), fieldAt_append (hd := hd) (r := r) (o := 12) (n := 2) (by omega),
    fieldAt_append (hd := hd) (r := r) (o := 14) (n := 1) (by omega), fieldAt_append (hd := hd) (r := r) (o := 15) (n := 1) (by omega),
    fieldAt_append (hd := hd) (r := r) (o := 16) (n := 8) (by omega), fieldAt_append (hd := hd) (r := r) (o := 24) (n := 4) (by omega)]

theorem image_length {hd : List Nat} (key ct : List Nat) (h : hd.length = 64) : (image key hd ct).length = 80 + ct.length := by
  simp only [image, List.length_append, sealTag_length, h]; omega

/-- An image whose header names a loaded key and that has not been restored before opens. -/
theorem opens {s : State} {hd ct : List Nat} {magic : Option Nat} {noKey : Nat} {replay : Bool} (len : hd.length = 64)
    (version : fieldAt hd 4 2 = 1) (kind : ∀ m, magic = some m → (imgHead hd).magic = m) (key : (imgHead hd).key ≤ 7)
    (loaded : (s.migKey (imgHead hd).key).loaded = true)
    (fresh : s.jalif.restored.contains ((imgHead hd).reel, (imgHead hd).counter) = false) :
    ∃ body, s.openImage (image (s.migKey (imgHead hd).key).bytes hd ct) magic noKey replay = .good (imgHead hd) body := by
  generalize e : (s.migKey (imgHead hd).key).bytes = k
  have l := image_length k ct len
  have hh : imgHead (image k hd ct) = imgHead hd := by unfold image; rw [List.append_assoc]; exact imgHead_append len
  have hv : fieldAt (image k hd ct) 4 2 = 1 := by
    unfold image; rw [List.append_assoc, fieldAt_append (by omega)]; exact version
  have t1 : (image k hd ct).take 64 = hd := by
    unfold image; rw [List.append_assoc, List.take_append_of_le_length (by omega), List.take_of_length_le (by omega)]
  have t2 : ((image k hd ct).drop 64).take ((image k hd ct).length - 80) = ct := by
    rw [l]; unfold image
    rw [List.append_assoc, ← len, List.drop_left, List.take_append_of_le_length (by omega), List.take_of_length_le (by omega)]
  have t3 : (image k hd ct).drop ((image k hd ct).length - 16) = sealTag k hd ct := by
    rw [l]; unfold image
    have n : 80 + ct.length - 16 = (hd ++ ct).length := by simp only [List.length_append, len]; omega
    rw [n, List.drop_left]
  have hopen : ∃ body, gcmOpen k (imgIv (imgHead hd).reel (imgHead hd).counter) hd ct (sealTag k hd ct) = some body :=
    ⟨_, by unfold gcmOpen; exact if_pos rfl⟩
  obtain ⟨body, hb⟩ := hopen
  refine ⟨body, ?_⟩
  unfold State.openImage
  simp only [hh, hv, t1, t2, t3, e, hb, fresh, loaded]
  cases magic with
  | none => simp [l, key]
  | some m => simp [l, key, kind m rfl]

/-- The image as a payload of the BMC mailbox: the command reads it whole. -/
def bmcBuf (xs : List Nat) : Buf := ⟨0, 0, xs.map (BitVec.ofNat 8)⟩

theorem bmc_reads {s : State} {xs : List Nat} (h : ∀ b ∈ xs, b < 256) (n : Nat) (hn : n ≤ xs.length) :
    s.bufIn bmc (bmcBuf xs) n = (some (xs.take n, false), s) := by
  have e : ofBytes (bmcBuf xs).payload = xs := by
    show (xs.map (BitVec.ofNat 8)).map BitVec.toNat = xs
    rw [List.map_map]
    conv_rhs => rw [← List.map_id xs]
    exact List.map_congr_left fun b hb => by simp [Nat.mod_eq_of_lt (h b hb)]
  unfold State.bufIn
  rw [if_pos (by rfl), e, List.take_append_of_le_length hn]

theorem image_lt {key hd ct : List Nat} (hh : ∀ b ∈ hd, b < 256) (hc : ∀ b ∈ ct, b < 256) (h : CounterBytes key hd) :
    ∀ b ∈ image key hd ct, b < 256 := by
  intro b hb
  rcases List.mem_append.mp hb with hb | hb
  · exact (List.mem_append.mp hb).elim (hh b) (hc b)
  · exact sealTag_lt ct h b hb

/-- The reel with a migration key of zeros, spindle 0 frozen without its state, and page 3 of partition 1 frozen with its slots. -/
def migrating (xs : List Entry) : State :=
  let s := (submitReel.modTenant 3 fun t => { t with frozen := true }).modSp 0 fun x => { x with frozen := true, noSave := true }
  { s with params := (paramKey 0x0101 16, 2 ^ 63 + 2 ^ 31) :: s.params }.modJalif fun j => { j with
    keys := [(0, { loaded := true, len := 2, words := [0, 0, 0, 0] })], imgE := [(0, xs)] }
def frozen3 : Cap := mkCap 0 4096 (2 ^ pFREEZE) 3 3 true
theorem migrating_takes (xs : List Entry) (code : Nat) (who : Who) : (migrating xs).Takes (told (migrating xs)) bmc code who :=
  taken_of (by show takenB (migrating []) = true; decide +kernel) code who

/-- The headers of an image of each kind under key 0, COUNTER 0, and an image with n encrypted bytes. -/
def head (magic count : Nat) : List Nat := ({ magic := magic, count := count } : ImgHead).bytes
def zeroImage (magic count n : Nat) : List Nat := image (List.replicate 32 0) (head magic count) (List.replicate n 0)

/-- The image of n encrypted bytes, as the payload, is read whole, its header alone, and it opens. -/
def ReadAndOpened (es : List Entry) (magic count n : Nat) (m : Option Nat) (noKey : Nat) (replay : Bool) : Prop :=
  (told (migrating es)).bufIn bmc (bmcBuf (zeroImage magic count n)) (80 + n) = (some (zeroImage magic count n, false), told (migrating es)) ∧
    (told (migrating es)).bufIn bmc (bmcBuf (zeroImage magic count n)) 64 = (some (head magic count, false), told (migrating es)) ∧
    bufSize bmc (bmcBuf (zeroImage magic count n)) = 80 + n ∧
    ∃ body, (told (migrating es)).openImage (zeroImage magic count n) m noKey replay = .good { magic := magic, count := count } body

theorem zero_opens {magic count : Nat} (n : Nat) (len : (head magic count).length = 64) (version : fieldAt (head magic count) 4 2 = 1)
    (key : imgHead (head magic count) = { magic := magic, count := count }) (low : ∀ b ∈ head magic count, b < 256) (xs : List Entry)
    (noKey : Nat) (replay : Bool) {m : Option Nat} (kind : ∀ k, m = some k → magic = k) :
    ReadAndOpened xs magic count n m noKey replay := by
  have hk : ((told (migrating xs)).migKey 0).bytes = List.replicate 32 0 := by
    show ((told (migrating [])).migKey 0).bytes = _; decide +kernel
  have hc : CounterBytes (List.replicate 32 0) (head magic count) := by
    unfold CounterBytes; rw [key]
    show ∀ b ∈ gcmCtr (List.replicate 32 0) (imgIv 0 0) 0, b < 256
    decide +kernel
  have l : (zeroImage magic count n).length = 80 + n := by
    unfold zeroImage; rw [image_length _ _ len, List.length_replicate]
  have lt : ∀ b ∈ zeroImage magic count n, b < 256 :=
    image_lt low (fun b hb => by rw [List.eq_of_mem_replicate hb]; decide) hc
  refine ⟨?_, ?_, ?_, ?_⟩
  · rw [bmc_reads lt _ (by omega), List.take_of_length_le (by omega)]
  · rw [bmc_reads lt _ (by omega)]
    unfold zeroImage image
    rw [List.append_assoc, List.take_append_of_le_length (by omega), List.take_of_length_le (by omega)]
  · show (List.map _ _).length = _
    rw [List.length_map, l]
  · have h := opens (s := told (migrating xs)) (hd := head magic count) (ct := List.replicate n 0) (magic := m) (noKey := noKey)
      (replay := replay) len version (fun k e => by rw [key]; exact kind k e) (by rw [key]; exact Nat.zero_le 7)
      (by rw [key]; show ((told (migrating [])).migKey 0).loaded = true; decide +kernel) (by rw [key]; rfl)
    rw [key] at h
    change ∃ body, (told (migrating xs)).openImage (image ((told (migrating xs)).migKey 0).bytes _ _) m noKey replay = _ at h
    rw [hk] at h
    exact h

theorem witness_MigrationSavesAndRestores_saves :
    (∀ code : Nat, ∀ who : Who, (migrating []).Takes (told (migrating [])) bmc code who) ∧
      ((told (migrating [])).sp 0).frozen = true ∧ ((told ((migrating []).modSp 0 fun x => { x with noSave := false })).sp 0).noSave = false ∧
      ((told (migrating [])).migKey 0).loaded = true ∧ (told (migrating [])).bufOk bmc buf0 = true ∧ roomFor bmc buf0 16384 = true ∧
      freezeCap frozen3 = true ∧ capOtype frozen3 = 3 ∧ ((told (migrating [])).tenant 3).frozen = true ∧
      (told (migrating [])).param 0x0D02 0 = 0 ∧ ((told (migrating [])).pageUnfastened 3).isNone = true ∧
      ((told (migrating [])).tagRange 0x1000 16) = some 1 ∧ ((told (migrating [])).tagged 0x1000 16).1 = some [] ∧
      ((told (migrating [])).tenant 3).press.st = 0 ∧ ((told (migrating [])).tenant 3).cipher.st = 0 ∧
      (told (migrating [])).pagePart 3 ≠ 0 :=
  by and_intros <;> first | exact migrating_takes [] | decide +kernel

/-- Images that open, of each kind, and one of a wrong kind, which has status 0x12. -/
theorem witness_MigrationSavesAndRestores_restores :
    ReadAndOpened [] 0x54505350 0 16304 (some 0x54505350) 0x14 true ∧
    ReadAndOpened [] 0x54504358 0 1968 (some 0x54504358) 0x14 true ∧
    ReadAndOpened [] 0 0 0 none 0x12 true ∧
    (told (migrating [])).openImage (List.replicate 16384 0) (some 0x54505350) 0x14 true = .bad 0x12 ∧
    (told (migrating [])).hubLines [] = (some [], told (migrating [])) :=
  ⟨zero_opens (m := some 0x54505350) 16304 (by decide +kernel) (by decide +kernel) (by decide +kernel) (by decide +kernel) [] 0x14 true
      fun _ e => Option.some.inj e,
    zero_opens (m := some 0x54504358) 1968 (by decide +kernel) (by decide +kernel) (by decide +kernel) (by decide +kernel) [] 0x14 true
      fun _ e => Option.some.inj e,
    zero_opens (magic := 0) (count := 0) (m := none) 0 (by decide +kernel) (by decide +kernel) (by decide +kernel) (by decide +kernel) [] 0x12 true
      (fun _ e => nomatch e), by decide +kernel, rfl⟩

/-- Channel images with no entry and with one, of this reel; the entry passes the checks of an import. -/
def oneFrozen : Entry := { entry7 .frozen with op := 3 }

theorem witness_MigrationSavesAndRestores_imports :
    ReadAndOpened [] 0x54504C47 0 0 (some 0x54504C47) 0x12 false ∧
    ReadAndOpened [oneFrozen] 0x54504C47 1 256 (some 0x54504C47) 0x12 false ∧
    (told (migrating [oneFrozen])).ownImage { magic := 0x54504C47, count := 1 } = true ∧
    tget [] (told (migrating [oneFrozen])).jalif.imgE 0 = [oneFrozen] ∧ (told (migrating [oneFrozen])).importFails 3 oneFrozen = 0 ∧
    (∃ k, (told (migrating [oneFrozen])).freeSlot = some k) := by
  refine ⟨zero_opens (m := some 0x54504C47) 0 (by decide +kernel) (by decide +kernel) (by decide +kernel) (by decide +kernel) [] 0x12 false
      fun _ e => Option.some.inj e,
    zero_opens (m := some 0x54504C47) 256 (by decide +kernel) (by decide +kernel) (by decide +kernel) (by decide +kernel) [oneFrozen] 0x12
      false fun _ e => Option.some.inj e, by decide +kernel, by decide +kernel, by decide +kernel,
    ⟨Config.ledgerStart 0 % 65536, ?_⟩⟩
  unfold State.freeSlot
  rw [find_first _ 65535 (by rfl)]
  rfl

end Sys2Proof.Tests
end

