-- ==== Sys2Proof/Tests/Witness12.lean ====
section
/-!
SUPPORT. Witnesses for the statements about resets, the boot and re-admission, clause by clause.
-/

namespace Sys2Proof.Tests

set_option Elab.async false

open Sys2Proof Sys2Proof.Machine

/-- What boot steps find when everything is good, and a firmware image that verifies. -/
def goodBoot : BootIn :=
  { iout := List.replicate 13 400, recovery := false, selfTestOk := true, pgCore := 0x1FFF, pgAux := true, regMissing := 0, recGood := true, copyGood := true,
    hubPllOk := true, skeinPllOk := 0xFFF, skeinTestOk := 0xFFF, hubMasks := [], hubFars := [], buddyMasks := [], plyGood := [], cmpBad := [],
    draftOk := [], plyErrors := [], refA := true, refB := true }
def goodBank (v : Nat) : BankImage := { sigOk := true, version := v, draft := { version := 2, code := [1] }, draftSigOk := true, engineVer := 1 }
/-- A package that is OFF, whose boot record's owner key is fused and whose banks hold versions 1 and 2. -/
def off (pwr rst : Bool) : State :=
  (reel.modJalif fun j => { j with
    fused := some (Config.sha384 j.boot.ownerKey), recOk := true, bankA := some (goodBank 1), bankB := some (goodBank 2) }).modPins fun p =>
    { p with pwrOk := pwr, resetN := rst }
def offLife (pwr rst : Bool) : State := { off pwr rst with life := .off }
def draining : State := { (reel.modJalif fun j => { j with drainMb := some bmc, drainKind := 1, resetReq := some 1 }) with time := 10 ^ 15 }

theorem witness_ResetsFollowTheirSequence :
    (∀ code : Nat, reel.Takes (told reel) bmc code .zero) ∧ (told reel).life = .run ∧ (told reel).jalif.drainMb = none ∧
      (told reel).jalif.resetReq = none ∧ (∀ code : Nat, draining.Takes (told draining) bmc code .zero) ∧
      (told draining).jalif.drainMb.isSome = true ∧ draining.jalif.drainMb = some bmc ∧ bmc.slot < 4 ∧
      (draining.chan.ledger.any fun e => e.2.st != .free) = false ∧
      draining.jalif.drainAt + draining.param 0x0B0A 0 * 1000000 ≤ draining.time ∧ draining.jalif.resetReq = some 1 ∧
      draining.life ≠ .off ∧ draining.jalif.drainAt + 1000000 ≤ draining.time ∧ (∀ p r, (offLife p r).life = .off ∧ (offLife p r).pins.pwrOk = p ∧ (offLife p r).pins.resetN = r) ∧
      (offLife true false).RecordGood goodBoot (offLife true false).jalif.boot ∧
      ({ goodBoot with skeinPllOk := 0x7FF }).skeinPllOk.getLsbD 11 = false ∧ goodBoot.pgCore.getLsbD 12 = true ∧
      goodBoot.regMissing &&& 0x3FF000 = 0 ∧
      chooseBank (offLife true false).jalif.bankA (offLife true false).jalif.bankB = some (1, goodBank 2, false) :=
  ⟨fun c => reel_takes c _, by decide, rfl, rfl, fun c => taken_of (by decide +kernel) c _, rfl, rfl, by decide, by decide, by decide +kernel, rfl,
    by decide, by decide +kernel, fun _ _ => ⟨rfl, rfl, rfl⟩, ⟨rfl, rfl, Or.inl ⟨rfl, rfl⟩, rfl⟩, by decide, by decide, by decide, rfl⟩

/-- The reel in ROM with good DIMMs in quad 0, in FILL, and with partition 0's image of three bytes at 32 MiB of SPI. -/
def rom (kind mode : Nat) : State :=
  { (reel.modJalif fun j => { j with bootOk := true, boot := { j.boot with interleave := mode } }).modPower fun p =>
      { p with hubResetLast := kind } with life := .rom }
def dimm (ok : Bool) : ChTrain := { ok := ok, rate := 6400, dimms := 1, x8 := false, gib := 64, serials := [1] }
def image0 : List Byte := [1, 2, 3]
def filling0 (digest : BitVec 384) : State :=
  { (reel.modJalif fun j => { j with filled := true, boot := { j.boot with
      p0Spi := 2 ^ 25, p0Len := 3, p0Digest := digest, config := [{ id := 0x0103, idx := 0, val := 0 }] } }) with life := .fill }

theorem witness_BootStepsLeadToStaged :
    (rom 1 1).life = .rom ∧ (rom 1 1).jalif.bootOk = true ∧ (rom 1 1).power.hubResetLast % 16 = 1 ∧
      (rom 32 1).power.hubResetLast % 16 ≠ 1 ∧ quadGood [] 0 = false ∧ quadGood (List.replicate 4 (dimm true)) 0 = true ∧
      (rom 32 1).jalif.boot.interleave ≠ 0 ∧ (trainOf [dimm true, dimm false] 1).ok = false ∧
      reelInterleaves (List.replicate 16 (dimm true)) 0xF = true ∧ (rom 32 0).jalif.boot.interleave = 0 ∧
      ({ rom 32 0 with life := .fill } : State).jalif.filled = false ∧ (filling0 0).jalif.filled = true ∧ (filling0 0).jalif.fillDone = false ∧
      image0.length = (filling0 (Config.sha384 image0)).jalif.boot.p0Len ∧ 2 ^ 25 ≤ (filling0 (Config.sha384 image0)).jalif.boot.p0Spi ∧
      Config.sha384 image0 = (filling0 (Config.sha384 image0)).jalif.boot.p0Digest ∧ (filling0 0).localRange 0 3 = true ∧
      (filling0 0).jalif.boot.config ≠ [] ∧ ([] : List Byte).length ≠ (filling0 0).jalif.boot.p0Len ∧
      (∀ code : Nat, ∀ who : Who, reel.Takes (told reel) bmc code who) ∧ (told reel).bufOk bmc buf0 = true ∧
      ((told reel).bufIn bmc buf0 (bufSize bmc buf0)).1 = some ([], false) ∧ (told reel).bootValid [] = false ∧
      reel.jalif.fused = none ∧ (offLife true true).jalif.fused.isSome = true ∧ reel.jalif.recovery = false :=
  by and_intros <;> first | exact reel_takes | rfl | decide +kernel

/-- A boot record whose fields have the shapes of R472; it is valid where the signature oracle accepts it under the fused key. -/
theorem witness_BootStepsLeadToStaged_record (s : State) (xs : List Nat) (shape : bootShape xs = true)
    (key : s.jalif.fused = some (Config.sha384 (toBytes ((xs.drop 0x20).take 97))))
    (sig : Config.ecdsaOk (toBytes ((xs.drop 0x20).take 97)) (toBytes (xs.take (fieldAt xs 8 4))) (toBytes (xs.drop (fieldAt xs 8 4))) = true) :
    s.bootValid xs = true := by
  simp [State.bootValid, shape, key, sig]

/-- A recovery that waits for its firmware. -/
def recovering : State := reel.modJalif fun j => { j with recovery := true, bootIn := some goodBoot }

theorem witness_BootStepsLeadToStaged_recovery :
    (∀ code : Nat, recovering.Takes (told recovering) bmc code .bmc) ∧ recovering.jalif.recovery = true ∧
      recovering.jalif.bootIn = some goodBoot ∧ (goodBank 1).sigOk = true :=
  ⟨fun c => taken_of (by decide +kernel) c _, rfl, rfl, rfl⟩

/-- Training that finds every lane good at both ends. -/
def allLanes : TrainMasks :=
  { hub := ⟨BitVec.allOnes 96, BitVec.allOnes 96⟩, buddy := ⟨BitVec.allOnes 96, BitVec.allOnes 96⟩ }

/-- The reel whose rack ports and flex groups serve; skein 3 lost, in a stage of its training. -/
def ported : State := ((reel.modRack 11 fun x => { x with state := 2 }).modJalif fun j => { j with boot := { j.boot with flex := [(5, 1)] } })
def lost3 (link tries : Nat) : State :=
  ((reel.modSk 3 fun z => { z with lost := true, linkState := link, admitTries := tries, allowance := 132 }).modPins fun p =>
    { p with pgCore := 0x1FFF }).modPower fun p => { p with domains := [(363, 1)] }
def admission (pll test : Bool) (good : BitVec 20) : AdmitResult :=
  { pgHigh := true, refRuns := true, pllOk := pll, masks := allLanes, testOk := test, plyGood := good,
    cmpBad := [], draftOk := BitVec.allOnes 20 }
def atAdmission (s : State) (r : AdmitResult) : State :=
  if r.pgHigh then s.modPins fun p => { p with pgCore := p.pgCore ||| BitVec.ofNat 13 (2 ^ 3) } else s

theorem witness_PartialResetsAndReadmission :
    (∀ code : Nat, reel.Takes (told reel) bmc code .zero) ∧ ((told reel).faults.active.any fun a => a.skein == some 0) = false ∧
      (told reel).skeinUp 0 = true ∧ (told reel).running = true ∧ (∀ code : Nat, ported.Takes (told ported) bmc code .zero) ∧
      ((told ported).rack 11).state ≠ 0 ∧ (told ported).running = true ∧ (told ported).flexRole 5 ≠ 0 ∧
      (told ported).flexExists 20 = true ∧
      (atAdmission (lost3 0 0) (admission true true 0)).admissible 3 (admission true true 0) = true ∧ ((lost3 0 0).sk 3).linkState = 0 ∧
      (atAdmission (lost3 1 1) (admission false true 0)).admissible 3 (admission false true 0) = true ∧ ((lost3 1 1).sk 3).linkState ≠ 0 ∧
      (lost3 1 1).domainState (360 + 3) = 1 ∧ ((lost3 1 1).sk 3).admitTries < 2 ∧
      (atAdmission (lost3 1 0) (admission true false 0)).admissible 3 (admission true false 0) = true ∧
      (atAdmission (lost3 1 0) (admission true true (BitVec.allOnes 20))).admissible 3 (admission true true (BitVec.allOnes 20)) = true ∧
      (((atAdmission (lost3 1 0) (admission true true (BitVec.allOnes 20))).train 3 allLanes).sk 3).hubWidth ≠ 0 ∧
      (lost3 1 0).param 0x0504 0 ≤ ((List.range 20).filter fun p =>
        (BitVec.allOnes 20).getLsbD p && !(((lost3 1 0).sk 3).split && ((lost3 1 0).ply 3 p).state == 3)).length :=
  by and_intros <;> first | decide +kernel | exact fun c => taken_of (by decide +kernel) c _

end Sys2Proof.Tests
end

