-- ==== Sys2Proof/Tests/Witness13.lean ====
section
/-!
SUPPORT. Witnesses for the statements about power, clocks and rails, the arithmetic, capabilities, the memory, the queue and the
encoding of bundles, clause by clause.
-/

namespace Sys2Proof.Tests

set_option Elab.async false

open Sys2Proof Sys2Proof.Machine

/-- A request at skein 0's keeper, whose allowance is n. -/
def asksStep (n : Nat) : State := withSk fun z => { z with allowance := n, waiting := [{ what := .step 0 0 1, beads := 32 }] }
/-- Ply 0 of skein 0 on its way from step 4 to step 6, or down; spindle 0 in a wait. -/
def stepping (goal : Nat) : State := withPl fun y => { y with step := 4, wantStep := goal }
def allWait : State := { (withSp fun x => { x with waitUntil := some 9 }) with params := [(paramKey 0x1003 0, 1)], time := 1000 }
/-- A hub domain that powers up; ply 19 of skein 11 waking; the unit gate of skein 11. -/
def gating (d : Nat) : State := { (reel.modPower fun p => { p with domains := [(d, 2)] }) with time := 10 ^ 15 }
def wakes : State :=
  { ((reel.modPly 11 19 fun y => { y with step := 15, wantStep := 0 }).modSk 11 fun z => { z with pcGate := 3 }) with time := 10 ^ 15 }
/-- Skein 0 and the hub throttled for 1 ms. -/
def throttledLong : State := { ((withSk fun z => { z with hard := true }).modPower fun p => { p with hubHard := true }) with time := 1000000 }
/-- Skein 0 hot, or cooled with heat withdrawn. -/
def heated (temp heat : Nat) : State := withSk fun z => { z with temp := temp, heat := heat, allowance := 132 }

theorem witness_PowerIsGrantedMeasuredAndWithdrawn :
    (∀ n : Fin 3, (asksStep n).waitingAt 0 = [{ what := .step 0 0 1, beads := 32 }]) ∧
      (let s := asksStep 132
       s.throttled (.step 0 0 1) = false ∧ s.grantedAt 0 + s.reqNeed { what := .step 0 0 1, beads := 32 } ≤ s.limitAt 0 ∧
         s.grantedSum + s.reqNeed { what := .step 0 0 1, beads := 32 } ≤ 60800) ∧
      ¬ ((asksStep 0).grantedAt 0 + (asksStep 0).reqNeed { what := .step 0 0 1, beads := 32 } ≤ (asksStep 0).limitAt 0) ∧
      (((stepping 6).ply 0 0).step < 9 ∧ ((stepping 6).ply 0 0).wantStep < 9 ∧ ((stepping 6).ply 0 0).step ≠ ((stepping 6).ply 0 0).wantStep) ∧
      ((stepping 3).ply 0 0).wantStep < ((stepping 3).ply 0 0).step ∧
      (allWait.param 0x1003 0 ≠ 0 ∧ allWait.spindlesOn 0 0 = [0] ∧ (allWait.sp 0).waitUntil.isSome = true ∧
        (allWait.sp 0).waitFrom + allWait.param 0x1003 0 * 1000 ≤ allWait.time ∧
        (allWait.ply 0 0).state = 0 ∧ (allWait.ply 0 0).step < 9) ∧
      ((gating 312).domainState 312 = 2 ∧ (gating 312).domainWaits 312 = false ∧ (gating 371).domainState 371 = 2 ∧
        (gating 371).domainWaits 371 = false ∧ (gating 312).gateLate 312 = true ∧ (gating 371).gateLate 371 = true ∧
        wakes.gateLate 305 = true) ∧
      ((wakes.ply (305 / 26) (305 % 26)).waking = true ∧ 305 < 312 ∧ 305 % 26 < 20 ∧ (reel.ply (305 / 26) (305 % 26)).waking = false ∧
        310 < 312 ∧ 310 % 26 = 24 ∧ (wakes.sk (310 / 26)).pcGate.getLsbD 0 = true ∧ (wakes.sk (310 / 26)).pcGate.getLsbD 1 = true) ∧
      (reel.life ≠ .off ∧ reel.life ≠ .halt ∧ reel.live = true ∧ reel.power.nextSample ≤ reel.time ∧ reel.power.nextRebal ≤ reel.time) ∧
      (throttledLong.live = true ∧ (throttledLong.sk 0).hard = true ∧ (throttledLong.sk 0).hardAt + 1000000 ≤ throttledLong.time ∧
        throttledLong.power.hubHard = true ∧ throttledLong.power.hubHardAt + 1000000 ≤ throttledLong.time) ∧
      ((heated 127 0).skeinUp 0 = true ∧ (heated 127 0).param 0x1006 0 < ((heated 127 0).sk 0).temp ∧
        ((heated 0 8).sk 0).temp + 2 ≤ (heated 0 8).param 0x1006 0 ∧ ((heated 0 8).sk 0).heat ≠ 0) ∧
      (reel.skeinUp 0 = true ∧ (reel.sk 0).hard = false ∧ reel.power.hubHard = false ∧ (reel.ply 0 0).step < 9) := by
  decide +kernel

/-- The reel with a part of its power state changed, at a tick. -/
def powered (t : Nat) (f : Power → Power) : State := { reel.modPower f with time := t }
def marking (role t : Nat) : State := { reel with params := [(paramKey 0x1020 0, role)], time := t }

theorem witness_ClocksRailsAndTestPort :
    reel.life ≠ .off ∧ reel.life ≠ .halt ∧ (powered 0 fun p => { p with refSel := 0, refB := true }).power.refSel = 0 ∧
      (powered 0 fun p => { p with refSel := 0, refB := true }).power.refB = true ∧ reel.skeinUp 0 = true ∧
      (reel.mch 0).state ≠ 0 ∧ (reel.modSite 1 fun g => { g with state := 2 }).life = .run ∧
      ((reel.modSite 1 fun g => { g with state := 2 }).site 1).state = 2 ∧ (marking 1 0).param 0x1020 0 ≠ 0 ∧
      (marking 1 0).time % (marking 1 0).markPeriod = 0 ∧ (marking 2 0).param 0x1020 0 = 2 ∧ (marking 2 0).running = true ∧
      (marking 2 0).power.tally.bitsIn.length < 63 ∧
      (marking 2 (10 ^ 15)).power.tally.lastMark + 4 * (marking 2 (10 ^ 15)).markPeriod ≤ (marking 2 (10 ^ 15)).time := by
  decide +kernel

/-- A queue with a command, and without one. -/
def queued : State := { reel with pending := [.idcode, .bypass] }

theorem witness_StepRunsFrontCommand : queued.pending = .idcode :: [.bypass] ∧ reel.pending = [] := ⟨rfl, rfl⟩
theorem witness_IdleStepCountsOneTick : { reel with time := 2 ^ 64 - 1 }.pending = [] := rfl
theorem witness_AluResultsAndFlags : reel.Ready 0 h0 := ready_of (by decide +kernel)

/-- Dividends and divisors of each case of the divider's table. -/
theorem witness_MultiplierAndDividerResults :
    reel.Ready 0 h0 ∧ Cap64 ((reel.sp 0).arch.unit 5).o1 = 0 ∧
      ((withO1 5 (capNum (2 ^ 64 - 1))).Ready 0 h0 ∧ (Cap64 (((withO1 5 (capNum (2 ^ 64 - 1))).sp 0).arch.unit 5).o1).toInt = -1 ∧
        (BitVec.ofInt 64 (-(2 ^ 63))).toInt = -(2 ^ 63)) ∧
      ((withO1 5 (capNum 7)).Ready 0 h0 ∧ Cap64 (((withO1 5 (capNum 7)).sp 0).arch.unit 5).o1 = 7 ∧
        (100 : Word).toNat = (7 : Word).toNat * 14 + 2 ∧ 2 < (7 : Word).toNat ∧
        (-100 : Word).toInt = (7 : Word).toInt * (-14) + (-2) ∧ (-2 : Int).natAbs < (7 : Word).toInt.natAbs ∧
        ((-2 : Int) < 0 ↔ (-100 : Word).toInt < 0)) :=
  ⟨ready_of (by decide +kernel), by decide +kernel, ⟨ready_of (by decide +kernel), by decide +kernel, by decide⟩,
    ready_of (by decide +kernel), by decide +kernel, by decide, by decide, by decide, by decide, by decide⟩

theorem witness_CapabilityOperationsNeverEnlarge :
    (∃ d, capOp 4 (capAll 0x1000 0x1000) ⟨BitVec.ofNat 128 (0x1FFF + 2 ^ 52), false⟩ = .ok d ∧ d.tag = true) ∧
      (∃ d, capOp 5 (capAll 0x1000 0x1000) ⟨3, false⟩ = .ok d ∧ d.tag = true) ∧
      capOp 4 (capAll 0x1000 0x1000) ⟨BitVec.ofNat 128 (0x1FFF + 2 ^ 53), false⟩ = .error 7 ∧
      (∀ n : Fin 15, n.val = 4 ∨ n.val = 5 ∨ n.val = 6 ∨ n.val = 7 ∨ n.val = 13 → capOp n Cap.zero Cap.zero = .error 1) :=
  ⟨⟨mkCap 0x1FFF 1 0xFFF 0 0 true, by decide +kernel, rfl⟩, ⟨mkCap 0x1000 0x1000 3 0 0 true, by decide +kernel, rfl⟩, by decide +kernel,
    by decide +kernel⟩

theorem witness_EveryStepKeepsMemoryCanonical : reel.mem.wf = true ∧ (∃ t, step queued = .next t) :=
  ⟨by decide, ⟨_, rfl⟩⟩

/-- A move with every field at its highest value, and an immediate one. -/
def fullMove (k : Nat) : Move :=
  { slot := k, guard := 15, neg := true, imm := false, dst := 2047, src := 2047, mod := 8191, pair := true, immV := 0 }
def immMove (k : Nat) : Move :=
  { slot := k, guard := 15, neg := false, imm := true, dst := 2047, src := 0, mod := 0, pair := false, immV := 2 ^ 26 - 1 }

theorem witness_BundleDecodesAsEncoded :
    (∀ k : Fin 3, (fullMove k).Fits ∧ (fullMove k).slot = k ∧ (immMove k).Fits) ∧ (immMove 0).slot = 0 := by
  unfold Move.Fits
  decide

end Sys2Proof.Tests
end

