-- ==== Sys2Proof/Tests/Witness4.lean ====
section
/-!
SUPPORT. Witnesses for the statements about caches and coherence, clause by clause.
-/

namespace Sys2Proof.Tests

set_option Elab.async false

open Sys2Proof Sys2Proof.Machine

/-- Line 5 in ply 0 of skein 0 in a fasten state, its committed copy in the buddy. -/
def cached (f : FState) : State :=
  ((withLines [(5, { l2 := 1, fst := f, l1d := 3 })]).modSk (buddyOf 0) fun z =>
    { z with dbl := [(5, { cVal := some LineVal.zero })] }).modPly 0 0 fun y => { y with l2 := [(80, { line := 6 })] }

theorem witness_CacheErrorsAreLoggedAndRecovered :
    ((cached .clean).skl 0 5).l1d &&& fibreBits 0 ≠ 0 ∧ ((cached .clean).sk 0).split = false ∧
      (let s := (cached .clean).modSk 0 fun z => { z with split := true }
       (s.sk 0).split = true ∧ (s.skl 0 5).l1d &&& BitVec.ofNat 40 (2 ^ 1) ≠ 0) ∧
      (∀ f : FState, ((cached f).skl 0 5).l2.getLsbD 0 = true ∧ ((cached f).skl 0 5).fst = f) ∧ ((cached .clean).sk 0).loose = false ∧
      (tget {} ((cached .fastenedDirty).sk (buddyOf 0)).dbl 5).cVal = some LineVal.zero ∧ (cached .unfastened).skeinUp 0 = true ∧
      (tget {} ((cached .unfastened).ply 0 0).l2 80).line = 5 + 1 ∧ ((cached .unfastened).skl 0 5).dirty = true ∧
      (cached .clean).life ≠ .off ∧ (cached .clean).life ≠ .halt := by
  refine ⟨by decide +kernel, by decide +kernel, by decide +kernel, ?_, by decide +kernel⟩
  intro f; cases f <;> decide +kernel

/-- The prefetcher of ply 0 is on, a line is in the side buffer, way 2 is to go off, and a cleaning goes on. -/
def maintained : State :=
  { ((withLines [(5, { l2 := 1, sbh := 1, l3 := true })]).modPly 0 0 fun y =>
      { y with l2State := 1, l2Off := 4, cleaning := true, sb := [5], l2 := [(80, { line := 6 })] }).modSk 0 fun z =>
      { z with l3State := 1, cleaning := true }
    with params := [(paramKey 0x0700 0, 1)], time := 10 ^ 12 }
/-- The last two misses of fibre 0 were lines 7 and 8. -/
def prefetching : State := { (withPl fun y => { y with strides := [(0, 9), (1, 8)] }) with params := [(paramKey 0x0700 0, 1)] }

theorem witness_PrefetchAndCacheMaintenance :
    prefetching.Quiet ∧ prefetching.running = true ∧ prefetching.skeinUp 0 = true ∧ (prefetching.ply 0 0).state = 0 ∧
      prefetching.l2Up 0 0 = true ∧ prefetching.param 0x0700 0 = 1 ∧ prefetching.memRange (128 * 9) 128 = true ∧
      (prefetching.ply 0 0).strideHit 9 = true ∧ (prefetching.skl 0 9).held = false ∧ (prefetching.sk 0).leaving 9 = false ∧ (∀ r ∈ (prefetching.sk 0).reqs, r.pkt.line ≠ 9) ∧
      maintained.Quiet ∧ (maintained.skl 0 5).sbh.getLsbD 0 = true ∧
      tget 0 (maintained.ply 0 0).sbAt 5 + plyTicks (maintained.ply 0 0).step (maintained.param 0x0701 0) ≤ maintained.time + 1 ∧
      (maintained.ply 0 0).l2State = 1 ∧
      (∀ l ∈ maintained.slotLines 0 (some 0) (fun _ => true), (maintained.skl 0 l).fst ≠ .unfastened ∧ (maintained.skl 0 l).fst ≠ .closing) ∧
      (maintained.sk 0).l3State = 1 ∧
      (∀ l ∈ maintained.slotLines 0 none (fun _ => true), (maintained.skl 0 l).fst ≠ .unfastened ∧ (maintained.skl 0 l).fst ≠ .closing) ∧
      (maintained.ply 0 0).l2Off.getLsbD 2 = true ∧
      (∀ l ∈ maintained.slotLines 0 (some 0) (fun n => n % 16 == 2),
        (maintained.skl 0 l).fst ≠ .unfastened ∧ (maintained.skl 0 l).fst ≠ .closing) ∧ (maintained.ply 0 0).cleaning = true ∧
      (maintained.ply 0 0).cleanAt + maintained.param 0x0709 0 * 1000 ≤ maintained.time ∧ (maintained.sk 0).cleaning = true ∧
      (maintained.sk 0).cleanAt + maintained.param 0x0709 0 * 1000 ≤ maintained.time := by
  unfold State.Quiet
  decide +kernel

/-- A request of skein 0 for line 0. -/
def rq (cmd : Nat) : Packet := { cmd := cmd, src := 0, dst := 12, line := 0, tag := 3 }

/-- The reel whose directory has an entry for line 0. -/
def listed (d : DirEntry) : State := { reel with home := { reel.home with dir := [(0, d)] } }

theorem servable_listed (c : Nat) (d : DirEntry) : (listed d).Servable (rq c) :=
  ⟨fun _ => by show (listed {}).skeinUp 0 = true; decide +kernel, rfl, by show (listed {}).recalling 0 = false; decide +kernel,
    by show (((listed {}).homeOf (homeSlice 0)).topq.any fun q => q.line == 0) = false; decide +kernel,
    by show topAge (rq 0) = false ∧ (listed {}).slotsUsed 0 false < (listed {}).plainSlots; decide +kernel,
    by simp [State.waysHeld, listed, rq, reel]⟩

theorem witness_HomeServesRequests :
    reel.Servable (rq 1) ∧ reel.dirOf (rq 1).line = {} ∧ (rq 1).src < 12 ∧ (rq 9).aux % 2 = 0 ∧
      reel.firstPart { rq 9 with cmd := 0x09 } = none ∧
      (∀ c ∈ [0x01, 0x02, 0x07, 0x08, 0x09], reel.Comes c (rq c)) :=
  ⟨⟨fun _ => by decide +kernel, rfl, by decide +kernel, by decide +kernel, by decide +kernel, by decide +kernel⟩, rfl, by decide,
    by decide, rfl, by unfold State.Comes; decide +kernel⟩

/-- No packet is under way: every packet comes to its end. -/
theorem comes_alone {s : State} (h : s.fab.net = []) (c : Nat) (p : Packet) : s.Comes c p := by
  simp [State.Comes, State.heldUp, h]

/-- A transaction is open on line 0. -/
def busyLine : State := { reel with home := { reel.home with txns := [{ line := 0, req := rq 1, await := 4 }] } }

theorem witness_HomeFollowsHolders :
    (rq 1).src < 12 ∧ (listed { state := 1, sharers := 1 }).skeinUp 0 = true ∧
      (listed { state := 1, sharers := 1 }).Servable (rq 3) ∧ ((listed { state := 1, sharers := 1 }).dirOf 0).state = 1 ∧
      ((listed { state := 1, sharers := 1 }).dirOf 0).owner = 15 ∧ ((listed { state := 1, sharers := 1 }).dirOf 0).sharers = skBit 0 ∧
      (listed { state := 3, owner := 2 }).Servable (rq 1) ∧ 2 ≤ ((listed { state := 3, owner := 2 }).dirOf 0).state ∧
      (listed { state := 3, owner := 2 }).skeinUp 2 = true ∧ ((listed { state := 3, owner := 2 }).dirOf 0).sharers = 0 ∧
      (busyLine.txnOn 0).isSome = true ∧ topAge (rq 1) = false ∧
      ((listed { state := 2, owner := 0 }).dirOf 0).state = 2 ∧ ((listed { state := 2, owner := 0 }).dirOf 0).owner = 0 ∧
      (listed { state := 2, owner := 0 }).txnAt 0 = none ∧ ((listed { state := 2, owner := 0 }).homeOf (homeSlice 0)).topq = [] ∧
      (listed { state := 2, owner := 0 }).home.biHeld = [] ∧ (rq 5).hint ≠ 1 ∧
      (∀ c d, (listed d).Comes c (rq c)) ∧ (∀ c, busyLine.Comes c (rq c)) :=
  ⟨by decide, by decide +kernel, servable_listed 3 _, rfl, rfl, by decide, servable_listed 1 _, by decide +kernel, by decide +kernel,
    rfl, by decide +kernel, by decide, rfl, rfl, rfl, rfl, rfl, by decide, fun _ _ => comes_alone rfl _ _,
    fun _ => comes_alone rfl _ _⟩

/-- A snoop of line 5 at skein 0, and a recall of a set of which it holds nothing. -/
def snp (cmd : Nat) : Packet := { cmd := cmd, src := 12, dst := 0, line := 5 }
def recallPkt : Packet := { cmd := 0x13, src := 12, dst := 0, line := 9, aux := 3 }
def recallSt : State := { reel with fab := { reel.fab with net := [recallPkt] } }

theorem witness_SkeinsAnswerSnoops :
    (∀ f : FState, let s := withLines [(5, { l2 := 1, fst := f })];
      s.Snoops 0 (snp 0x10) ∧ (s.skl 0 5).fst = f ∧ (s.sk 0).loose = false ∧ ∀ c, s.Comes c (snp c)) ∧
      recallPkt.dst = 0 ∧ recallPkt.cmd = 0x13 ∧ recallSt.skeinUp 0 = true ∧
      recallSt.linesInSet 0 (recallPkt.aux % 4) (bits recallPkt.line 0 18) = [] ∧ recallSt.fab.net = [recallPkt] := by
  refine ⟨?_, by decide +kernel, by decide +kernel, by decide +kernel, by decide +kernel, by decide +kernel⟩
  intro f
  refine ⟨⟨?_, ?_, ?_, ?_, ?_⟩, ?_, rfl, fun _ => comes_alone rfl _ _⟩ <;> cases f <;>
    first | decide +kernel | (unfold State.NoStoresOn; decide +kernel)

/-- Skein 0's request for line 0 awaits the answer of skein 2. -/
def awaiting (c : Nat) (d : DirEntry) : State :=
  { reel with home := { reel.home with dir := [(0, d)], txns := [{ line := 0, req := rq c, await := skBit 2 }] } }
def toHome (cmd : Nat) : Packet := { cmd := cmd, src := 2, dst := 12, dstNode := homeNode (homeSlice 0), line := 0 }

theorem witness_SnoopAnswersEndTransactions :
    (∀ c e : Nat, ∀ d : DirEntry, (awaiting c d).Awaits (toHome e) { line := 0, req := rq c, await := skBit 2 } ∧
        (awaiting c d).Comes e (toHome e)) ∧
      (rq 2).cmd = 0x02 ∧ (toHome 0x19).aux < 8 ∧ (rq 1).cmd = 0x01 ∧
      ((awaiting 1 { state := 3, owner := 2 }).dirOf 0).owner = 2 ∧ 12 ≤ (toHome 0x1A).dst :=
  ⟨fun c e d => ⟨⟨rfl, ⟨rfl, by simp [toHome], rfl⟩, by and_intros <;> rfl, ⟨show 2 < 12 by decide, show 0 < 12 by decide, show 0 ≠ 2 by decide⟩,
      ⟨rfl, rfl, by show (awaiting 0 {}).recalling 0 = false; decide +kernel⟩⟩, comes_alone rfl _ _⟩,
    rfl, by decide, rfl, rfl, by decide⟩

/-- Skein 0 has asked for line 5, its request waiting or not, and an eviction of line 5 is on its way. -/
def asking (wait : Bool) : State := withSk fun z => { z with
  reqs := [{ pkt := { cmd := 1, src := 0, line := 5, tag := 3 }, wait := wait }], evicts := [{ cmd := 5, line := 5, tag := 3 }] }
def answerPkt (cmd : Nat) : Packet := { cmd := cmd, src := 12, dst := 0, line := 5, tag := 3 }

theorem witness_SkeinsTakeAnswers :
    (asking false).Asked 0 { pkt := { cmd := 1, src := 0, line := 5, tag := 3 } } (answerPkt 0x1C) ∧ (asking false).NoStoresOn 0 ∧
      (asking false).l2Up 0 0 = true ∧ ((asking false).ply 0 0).l2 = [] ∧ (asking false).l2Allowed 0 0 0 = true ∧
      (∀ c, (asking false).Comes c (answerPkt c)) ∧ (asking true).skeinUp 0 = true ∧
      ((asking true).sk 0).reqs = [{ pkt := { cmd := 1, src := 0, line := 5, tag := 3 }, wait := true }] ∧
      topAge { cmd := 1, src := 0, line := 5, tag := 3 } = false ∧
      ((asking true).sk 0).evicts = [{ cmd := 5, line := 5, tag := (answerPkt 0x1F).tag }] ∧ (∀ c, (asking true).Comes c (answerPkt c)) := by
  unfold State.NoStoresOn
  exact ⟨⟨⟨rfl, rfl⟩, rfl, by decide +kernel, rfl, by decide⟩, by decide +kernel, by decide +kernel, rfl, by decide +kernel,
    fun _ => comes_alone rfl _ _, by decide +kernel, rfl, by decide, rfl, fun _ => comes_alone rfl _ _⟩

/-- A request of the top age as old as its limit, and a CXL range that is shared. -/
def oldReq : State :=
  { (withSk fun z => { z with reqs := [{ pkt := { cmd := 1, src := 0, line := 5, tag := 3, age := 15 } }] }) with
    time := reel.param 0x0802 0 * 1000 }

/-- The reel with a shared CXL range of 1 GiB whose first line has a directory entry. -/
def cxlSt (d : DirEntry) : State :=
  { (reel.modSk 2 fun z => { z with lines := [(2 ^ 37, { l2 := 1, fst := .unfastened })] }) with
    home := { reel.home with dir := [(2 ^ 37, d)] }, params := [(paramKey 0x0A20 0, 2 ^ 63 + 2 ^ 37 + 2 ^ 14)] }

theorem witness_HomeSlicesActOnErrors :
    ({ pkt := { cmd := 1, src := 0, line := 5, tag := 3, age := 15 } } : Req) ∈ (oldReq.sk 0).reqs ∧
      topAge { cmd := 1, src := 0, line := 5, tag := 3, age := 15 } = true ∧ 0 + oldReq.param 0x0802 0 * 1000 ≤ oldReq.time ∧
      (reel.homeOf (homeSlice 5)).recallOn = false ∧ homeSlice 5 < 8 ∧ reel.skeinUp 0 = true ∧
      (∀ d : DirEntry, (cxlSt d).cxlOf (128 * 2 ^ 37) = some ⟨2 ^ 44, 2 ^ 30, 0, true, false⟩ ∧ (cxlSt d).txnOn (2 ^ 37) = none ∧
        (cxlSt d).recalling (2 ^ 37) = false ∧ (cxlSt d).granting 12 (2 ^ 37) = false ∧ (cxlSt d).home.biHeld = []) ∧
      (cxlSt { state := 1, sharers := 3 }).ownerOfLine (2 ^ 37) = none ∧
      (cxlSt { state := 3, owner := 2 }).ownerOfLine (2 ^ 37) = some 2 ∧
      (let s := cxlSt { state := 3, owner := 2 }
       (s.skl 2 (2 ^ 37)).fst = .unfastened ∧ (s.skl 2 (2 ^ 37)).held = true ∧ (s.sk 2).loose = false ∧ s.NoStoresOn 2) := by
  unfold State.NoStoresOn
  exact ⟨List.mem_singleton.mpr rfl, by decide +kernel, by decide +kernel, by decide +kernel, by decide +kernel, by decide +kernel,
    fun _ => ⟨by show (cxlSt {}).cxlOf (128 * 2 ^ 37) = _; decide +kernel, rfl,
      by show (cxlSt {}).recalling (2 ^ 37) = false; decide +kernel, rfl, rfl⟩,
    by decide +kernel, by decide +kernel, by decide +kernel⟩

end Sys2Proof.Tests
end

