-- ==== Sys2Proof/Tests/Witness2.lean ====
section
/-!
SUPPORT. Witnesses for the statements about deliveries, returns, bundles, completions and long operations, clause by clause.
-/

namespace Sys2Proof.Tests

set_option Elab.async false

open Sys2Proof Sys2Proof.Machine

/-- A descriptor that fulfils R124, and the line that holds it in granules g to g + 3. -/
def descr : Descr := ⟨capAll 0x3000 0x1000, capAll 0x4000 0x1000, capAll 0x5000 0x1000, 1⟩
def descrLine (g : Nat) : LineVal :=
  linePutCap (linePutCap (linePutCap (linePutCap LineVal.zero g descr.entry) (g + 1) descr.stack) (g + 2) descr.data) (g + 3)
    (capNum descr.flags)

/-- A reel that holds the line of descriptor n. -/
def described (n : Nat) : State :=
  withLines [(lineOf (0x90000 + 64 * n), { l2 := 1, val := descrLine ((0x90000 + 64 * n) % 128 / 16) })]

/-- Delivers as a Bool. -/
def deliversB (s : State) (i n : Nat) (h : Place) (d : Descr) : Bool :=
  let a := capBase (s.sp i).tdt + 64 * n
  let o := (s.sp i).memSeq
  s.tsbOk (s.sp i) && !tsbBusy (s.sp i) && !(s.skl h.skein (lineOf (capBase (s.sp i).tsb))).held && capMem (s.sp i).tdt &&
    capHasAll (s.sp i).tdt [pLOAD, pLOADCAP] && capCovers (s.sp i).tdt a 64 && s.memRange a 64 &&
    (linesOf a 64).all (fun l => (s.skl h.skein l).l2.getLsbD h.ply && !(s.skl h.skein l).val.poison) &&
    decide (d = ⟨s.viewGranule i h a o, s.viewGranule i h (a + 16) o, s.viewGranule i h (a + 32) o,
      (s.viewGranule i h (a + 48) o).bits.toNat % 2 ^ 64⟩) && decide (d.cause = 0)

theorem delivers_of {s : State} {i n : Nat} {h : Place} {d : Descr} (e : deliversB s i n h d = true) : s.Delivers i n h d := by
  simp only [deliversB, Bool.and_eq_true, decide_eq_true_eq, Bool.not_eq_true', List.all_eq_true] at e
  constructor <;> first | exact e.1.1.2 | tauto

/-- The system call of the highest number. -/
theorem witness_TrapDeliversSystemCall :
    (described 4095).Ready 0 h0 ∧ (4095 : Word).toNat ≤ 4095 ∧ (described 4095).Delivers 0 4095 h0 descr :=
  ⟨ready_of (by decide +kernel), by decide, delivers_of (by decide +kernel)⟩

/-- Boundary as a Bool. -/
def boundaryB (s : State) (i : Nat) (h : Place) : Bool :=
  s.canIssue i && decide ((s.sp i).host = some h) && (s.sp i).ops.isEmpty && (s.sp i).stores.isEmpty && (s.sp i).trapPend.isNone &&
    !(s.sp i).exhausted && (s.sp i).precPend.isNone && s.faults.todo.isEmpty

theorem boundary_of {s : State} {i : Nat} {h : Place} (e : boundaryB s i h = true) : s.Boundary i h := by
  simp only [boundaryB, Bool.and_eq_true, decide_eq_true_eq, Bool.not_eq_true', List.isEmpty_iff, Option.isNone_iff_eq_none] at e
  constructor <;> first | exact e.2 | tauto

/-- Interrupt 255 pending. -/
def pending255 : State := (described (4096 + 255)).modSp 0 fun x =>
  { x with intPending := BitVec.ofNat 256 (2 ^ 255 + 1), arch := { x.arch with imask := 0x10F } }
/-- A notice pending, NOTICE in IMASK being 0. -/
def noticed (f : Spindle → Spindle) : State := withSp fun x => f { x with arch := { x.arch with imask := 0x10 } }

theorem witness_DueEventsAreDelivered :
    pending255.Boundary 0 h0 ∧ dueNotice (pending255.sp 0) = none ∧ dueInterrupt (pending255.sp 0) = some 255 ∧
      pending255.Delivers 0 (4096 + 255) h0 descr ∧
      [(noticed fun x => { x with notice1 := true }, 1), (noticed fun x => { x with notice2 := true }, 2),
        (noticed fun x => { x with notice5 := some 1 }, 5)].all (fun e => boundaryB e.1 0 h0 && decide (dueNotice (e.1.sp 0) = some e.2) &&
          e.1.tsbOk (e.1.sp 0) && !tsbBusy (e.1.sp 0) && eventBaseOk (e.1.sp 0) &&
          !(e.1.skl 0 (lineOf (capBase (e.1.sp 0).tsb))).held) = true :=
  ⟨boundary_of (by decide +kernel), by decide +kernel, by decide +kernel, delivers_of (by decide +kernel), by decide +kernel⟩

/-- A reel that holds the 48 lines of the TSB, with a saved LOOP_DEPTH of 4. -/
def saved : State :=
  withLines ((natsFrom 0x1000 48).map fun l =>
    (l, { l2 := 1, val := if l = 0x1000 then linePutCap LineVal.zero 6 (capNum 4) else LineVal.zero }))

/-- A reel whose save slot is in use. -/
def slotted : State := withSp fun x => { x with slot := some {}, arch := { x.arch with imask := 0x20110 } }

theorem witness_EretRestoresSavedState :
    saved.Ready 0 h0 ∧ saved.tsbOk (saved.sp 0) = true ∧ saved.LinesHere h0 (linesOf (capBase (saved.sp 0).tsb) 6144) ∧
      (loWord (saved.viewGranule 0 h0 (capBase (saved.sp 0).tsb + 16 * 6) 0)).toNat = 4 ∧ slotted.Ready 0 h0 ∧
      (slotted.sp 0).slot = some {} ∧ slotBusy (slotted.sp 0) = true ∧ slotted.tsbOk (slotted.sp 0) = true ∧
      (slotted.skl 0 (lineOf (capBase (slotted.sp 0).tsb))).held = false :=
  ⟨ready_of (by decide +kernel), by decide +kernel, by unfold State.LinesHere; decide +kernel, by decide +kernel,
    ready_of (by decide +kernel), rfl, by decide +kernel, by decide +kernel, by decide +kernel⟩

/-- A reel that holds the line of BA with a bundle at it. -/
def fetched (b : Nat) : State := withLines [(64, { l2 := 1, val := linePut LineVal.zero 0 16 b })]

/-- The hypotheses of BundleIssuesByItsKind for a bundle of a kind. -/
def issuesIn (s : State) (k b : Nat) : Bool :=
  let x := s.sp 0
  let ms := s.liveMoves 0 x b
  readyB s 0 h0 && !x.resume && x.ahead.isEmpty && (s.fetchFail x).isNone && lineGet (s.skl 0 64).val 0 16 == b && bundleKind b == k &&
    (illegalOf b).isNone && (ms.flatMap (Live.fails x)).isEmpty
def issuesAs (k b : Nat) : Bool := issuesIn (fetched b) k b
/-- The triggers of a bundle. -/
def triggersOf (b : Nat) : List Trig := ((fetched b).liveMoves 0 ((fetched b).sp 0) b).filterMap Live.trigger

/-- A normal bundle that writes a register and starts an addition, and one that writes two registers; a long-immediate bundle; a
coprocessor bundle whose guard is false, and one that asks the guest bound to unit 80 (R74). -/
def addBundle : Nat := encodeBundle 0 (encodeSlot { imm := true, dst := 1, immV := 5 }) (encodeSlot { dst := 0x204, src := 1 }) 0
def copBundle (neg : Bool) : Nat := encodeBundle 2 (encodeSlot { neg := neg, dst := 0x704, src := 1 }) 0 0
theorem witness_BundleIssuesByItsKind :
    (issuesAs 0 addBundle = true ∧ (triggersOf addBundle).map (·.u) = [0]) ∧
      issuesAs 0 (encodeBundle 0 (encodeSlot { imm := true, dst := 1, immV := 5 }) (encodeSlot { dst := 2, src := 1 }) 0) = true ∧
      (issuesAs 1 (encodeBundle 1 (encodeSlot { dst := 1 }) 7 0) = true ∧ triggersOf (encodeBundle 1 (encodeSlot { dst := 1 }) 7 0) = []) ∧
      (issuesAs 2 (copBundle true) = true ∧ triggersOf (copBundle true) = []) ∧
      (let s := { fetched (copBundle false) with params := [(paramKey 0x0945 0, 1)] }
       issuesIn s 2 (copBundle false) = true ∧ (triggersOf (copBundle false)).map (·.u) = [80] ∧ s.copBinding 0 80 ≠ 0) ∧
      (fetched 0).LinesHere h0 [64] := by
  and_intros <;> first | decide +kernel | (unfold State.LinesHere; decide +kernel)

/-- Runs as a Bool. -/
def runsB (s : State) (i : Nat) (h : Place) : Bool :=
  s.dataRuns i && decide ((s.sp i).host = some h) && (s.sp i).stores.isEmpty && !(s.sp i).freezeReq && s.faults.todo.isEmpty

theorem runs_of {s : State} {i : Nat} {h : Place} (e : runsB s i h = true) : s.Runs i h := by
  simp only [runsB, Bool.and_eq_true, decide_eq_true_eq, Bool.not_eq_true', List.isEmpty_iff] at e
  constructor <;> first | exact e.2 | tauto

/-- Operations in flight on spindle 0. -/
def flying (rs : List OpRec) : State := withSp fun x => { x with ops := rs }
def aLoad : OpRec := { unit := 10, trig := 4, kind := .load 0x10000 1 false false 0 }
def loadHeld : State := (flying [aLoad]).modSk 0 fun z => { z with lines := [(512, { l2 := 1 })] }

theorem witness_UnitCompletionDeliversResult :
    (flying [{ unit := 4, res := capNum 6 }]).Runs 0 h0 ∧
      ((flying [{ unit := 4, res := capNum 6 }]).sp 0).frontOp 4 = some { unit := 4, res := capNum 6 } ∧
      loadHeld.Runs 0 h0 ∧ (loadHeld.sp 0).frontOp 10 = some aLoad ∧ (loadHeld.sp 0).mayPerform .load 0 = true ∧
      loadHeld.LinesHere h0 [lineOf 0x10000] :=
  ⟨runs_of (by decide +kernel), by decide +kernel, runs_of (by decide +kernel), by decide +kernel, by decide +kernel,
    by unfold State.LinesHere; decide +kernel⟩

/-- A WAIT for the tick at which the reel stands, and a DEADLINE at it. -/
def waiting : State :=
  { withSp (fun x => { x with waitUntil := some 7, ops := [{ unit := 15, trig := 10, kind := .wait 7 }],
                              arch := { x.arch with deadline := 7 } }) with time := 7 }

theorem witness_TimebaseEndsWaitsAndDeadlines :
    waiting.Quiet ∧ waiting.alive 0 = true ∧ (waiting.sp 0).waitUntil = some 7 ∧ 7 ≤ waiting.time ∧
      (waiting.sp 0).freezeReq = false ∧
      (waiting.sp 0).ops = [{ unit := 15, trig := 10, kind := .wait (BitVec.ofNat 64 7), ba := 0 }] ∧ waiting.dataRuns 0 = true ∧
      (waiting.sp 0).arch.deadline ≠ 0 ∧ (waiting.sp 0).arch.deadline.toNat ≤ waiting.time :=
  ⟨rfl, by decide +kernel, rfl, by decide, rfl, rfl, by decide +kernel, by decide +kernel, by decide +kernel⟩

/-- A way operation in flight, with way 3 locked as given. -/
def waying (cop lock : Nat) : State :=
  (flying [{ unit := 15, trig := 11, kind := .cacheop cop 0 0 3 false 0 0 }]).modPly 0 0 fun y => { y with l2Lock := tset 0 [] 3 lock }

theorem witness_CacheOperationCompletesWithResult :
    (waying 3 0).Runs 0 h0 ∧ ((waying 3 0).sp 0).serial = none ∧ ((waying 3 0).sp 0).serialNext = [] ∧ tget 0 ((waying 3 0).ply 0 0).l2Lock 3 = 0 ∧
      (waying 3 0).wayUp 0 0 false 3 = true ∧ 0 < (waying 3 0).param 0x0703 0 ∧
      4 ≤ ((List.range 16).filter fun v => v != 3 && (waying 3 0).wayOn 0 0 false v && tget 0 ((waying 3 0).ply 0 0).l2Lock v == 0).length ∧
      (waying 5 1).Runs 0 h0 ∧ ((waying 5 1).partOf 0).getD 0 = 0 ∧ tget 0 ((waying 5 1).ply 0 0).l2Lock 3 = 1 :=
  ⟨runs_of (by decide +kernel), rfl, rfl, by decide +kernel, by decide +kernel, by decide +kernel, by decide +kernel,
    runs_of (by decide +kernel), by decide +kernel, by decide +kernel⟩

/-- A BFILL of remain bytes into c1's range in progress, its lines owned; and a DLDIV. -/
def filling (remain : Nat) : State :=
  let p : Progress := { unit := 17, remain := remain, dst := capAll 0x10000 0x10000 }
  (withSp fun x => { x with longOn := true, longTrig := 5, arch := { x.arch with progress := p } }).modSk 0 fun z =>
    { z with lines := (natsFrom 512 64).map fun l => (l, { l2 := 1, own := .exclusive }) }
def dividing : State := withSp fun x => { x with longOn := true, longTrig := 14, arch := { x.arch with progress := { unit := 8 } } }

/-- The hypotheses on a BFILL whose next piece has n bytes. -/
def fills (s : State) (n : Nat) : Bool :=
  let p := (s.sp 0).arch.progress
  s.alive 0 && runsB s 0 h0 && (s.sp 0).longOn && (s.sp 0).ops.isEmpty && p.unit == 17 && (s.sp 0).longTrig == 5 && !(s.sp 0).longCt && pointBytes (s.sp 0) s.freeCtr == n &&
    decide (s.admitted p.dst pSTORE (capBase p.dst + p.done) n = (n, none)) && s.l2Up 0 0 &&
    (linesOf (capBase p.dst + p.done) n).all fun l =>
      (s.skl 0 l).l2.getLsbD 0 && decide ((s.skl 0 l).own ≠ .shared) && !(s.skl 0 l).stalled

theorem witness_LongOperationProgressesAndCompletes :
    fills (filling 8192) 4096 = true ∧ (filling 8192).takeDue 0 0x2000 true = none ∧ fills (filling 4096) 4096 = true ∧
      dividing.alive 0 = true ∧ dividing.Runs 0 h0 ∧ (dividing.sp 0).longOn = true ∧ (dividing.sp 0).ops = [] ∧
      (dividing.sp 0).longCt = false ∧
      dividing.takeDue 0 0x2000 true = none ∧ (dividing.sp 0).arch.progress.unit = 8 :=
  ⟨by decide +kernel, by decide +kernel, by decide +kernel, by decide +kernel, runs_of (by decide +kernel), rfl, rfl,
    rfl, by decide +kernel, rfl⟩

/-- A request of unit 80 that has left for guest site 1. -/
def copRec : OpRec := { unit := 80, trig := 4, kind := .answer 0 0 false 0 }
def copPkt : Packet := { cmd := 0x2C, line := 0, aux := 80 * 16 + 4 }
def asksGuest (t : Nat) : State := { (flying [copRec]).modSite 1 fun g => { g with opens := [copPkt] } with time := t }

theorem witness_CoprocessorRequestIsAnswered :
    (asksGuest 0).Runs 0 h0 ∧ (asksGuest 0).copWaits 0 0 = some copRec ∧ (asksGuest 0).copOpen 0 0 = some (1, copPkt) ∧
      copPkt.since + bits ((asksGuest (10 ^ 9)).param 0x0945 (16 * copPkt.part)) 16 16 * 1000 ≤ (asksGuest (10 ^ 9)).time :=
  ⟨runs_of (by decide +kernel), by decide +kernel, by decide +kernel, by decide +kernel⟩

end Sys2Proof.Tests
end

