-- ==== Sys2Proof/Tests/Witness5.lean ====
section
/-!
SUPPORT. Witnesses for the statements about the fabric, the guest sites and the memory channels, clause by clause.
-/

namespace Sys2Proof.Tests

set_option Elab.async false

open Sys2Proof Sys2Proof.Machine

/-- Spindle 0 has an uncached load of n bytes at a in flight, with the serial output q. -/
def ucLoad (a n : Nat) : OpRec := { unit := 10, trig := 4, kind := .answer a n false 0 }
def loads (a n : Nat) (q : Option Serial) : State := withSp fun x => { x with ops := [ucLoad a n], serial := q }
def out (k : SerialKind) (a : Nat) (sent : Bool) : Serial := { kind := k, seq := 1, addr := a, size := 8, sent := sent }
/-- Loads as a Bool, for a load of n bytes at a. -/
def loadsB (s : State) (a n : Nat) (q : Option Serial) : Bool :=
  decide (s.ucLoadAt 0 a = some (ucLoad a n)) && (s.sp 0).mayPerform .ucLoad 0 && decide (0 < n) &&
    decide ((s.sp 0).frontOp 10 = some (ucLoad a n)) && decide ((s.sp 0).serial = q)
theorem loads_of {s : State} {a n : Nat} {q : Option Serial} (e : loadsB s a n q = true) : s.Loads 0 a n false (ucLoad a n) q := by
  simp only [loadsB, Bool.and_eq_true, decide_eq_true_eq] at e
  exact { here := by tauto, kind := ⟨⟨0, rfl, by tauto⟩, by tauto, Or.inl rfl⟩, first := e.1.2, out := e.2 }
/-- The TIME register of the reel, the first register of skein 3's block, and the state in which skein 3 is fenced. -/
def regA : Nat := regBase + 0x8
def skeinReg : Nat := regBase + 0x100000000 + 0x10000000 * 3
def fencedSk : State := (loads skeinReg 8 none).setFence 3 { st := 2 }
/-- A window of guest site 0, and a request of spindle 0 open there. -/
def guestUc : Packet := { cmd := 0x28, src := 12, dst := 13, tag := 7, lines := [0] }
def guestWaits : State := (loads guestBase 8 (some (out .ucLoad guestBase true))).modSite 0 fun g => { g with opens := [guestUc] }

/-- The gate has the number of spindle 0's output. -/
def gated : State := { reel with home := { reel.home with gate := [(0, { seq := 1 })] } }

theorem witness_UncachedAccessesAreAnswered :
    (loads regA 8 none).Runs 0 h0 ∧ (loads regA 8 none).Loads 0 regA 8 false (ucLoad regA 8) none ∧
      (loads regA 8 none).addrKind regA = .register ∧ (loads regA 8 none).regFenced (regA - regBase) = none ∧
      inConfigSpace (regA - regBase) = false ∧ fencedSk.Runs 0 h0 ∧ fencedSk.Loads 0 skeinReg 8 false (ucLoad skeinReg 8) none ∧
      fencedSk.addrKind skeinReg = .register ∧ fencedSk.regFenced (skeinReg - regBase) = some 3 ∧
      (loads flexBase 8 (some (out .ucLoad flexBase true))).Runs 0 h0 ∧
      (loads flexBase 8 (some (out .ucLoad flexBase true))).Loads 0 flexBase 8 false (ucLoad flexBase 8)
        (some (out .ucLoad flexBase true)) ∧
      (out .ucLoad flexBase true).Left .ucLoad flexBase ∧
      (∀ g : SiteId, ((loads flexBase 8 (some (out .ucLoad flexBase true))).site g).opens = []) ∧
      guestWaits.Runs 0 h0 ∧ guestWaits.Loads 0 guestBase 8 false (ucLoad guestBase 8) (some (out .ucLoad guestBase true)) ∧
      (guestWaits.site 0).opens = [guestUc] ∧ 0 + guestWaits.param 0x0942 0 * 1000 ≤ { guestWaits with time := 10 ^ 12 }.time ∧
      ((withSp fun x => { x with serial := some (out .ucStore flexBase true) }).sp 0).serial = some (out .ucStore flexBase true) ∧
      (out .ucStore flexBase true).Left .ucStore flexBase ∧
      (tget {} (loads flexBase 8 (some (out .ucLoad flexBase true))).home.gate 0).seq = (ucLoad flexBase 8).ser ∧
      (tget {} gated.home.gate 0).seq = (out .ucStore flexBase true).seq := by
  and_intros <;> first
    | exact runs_of (by decide +kernel)
    | exact loads_of (by decide +kernel)
    | decide +kernel

/-- A store to the IV of the last tenant page as the pending output, and a load from a guest's window. -/
def ivA : Nat := regBase + 0x3000000 + 0x1000 * 4095 + 0x18
def storesIv : State := withSp fun x => { x with serial := some (out .ucStore ivA false) }
def guestSite : State :=
  { ((withSp fun x => { x with serial := some (out .ucLoad guestBase false) }).modSite 0 fun g => { g with state := 2 }) with
    params := [(paramKey 0x0944 0, 2 ^ 95 + 2 ^ 43 * 65536)] }

theorem witness_SerialOutputIsPerformedOnce :
    reel.Runs 0 h0 ∧ storesIv.Runs 0 h0 ∧ (storesIv.sp 0).serial = some (out .ucStore ivA false) ∧
      storesIv.mayLeave 0 (out .ucStore ivA false) = true ∧ (tget {} storesIv.home.gate 0).seq ≠ (out .ucStore ivA false).seq ∧
      guestSite.Runs 0 h0 ∧ (guestSite.sp 0).serial = some (out .ucLoad guestBase false) ∧
      guestSite.mayLeave 0 (out .ucLoad guestBase false) = true ∧ guestSite.addrKind guestBase = .guest 0 ∧
      guestSite.siteTakes 0 0 = true :=
  ⟨runs_of (by decide +kernel), runs_of (by decide +kernel), by decide +kernel, by decide +kernel, by decide +kernel,
    runs_of (by decide +kernel), by decide +kernel, by decide +kernel, by decide +kernel, by decide +kernel⟩

/-- Skein 5 waits for its training; skein 0 has all lanes. -/
def training : State := reel.modSk 5 fun z => { z with linkState := 1 }
/-- Lane 0 has had more replays in this millisecond than its limit. -/
def laned : State := withSk fun z => { z with lanes := BitVec.allOnes 96, replayAt := List.replicate 65535 0 }
def agedPkt : Packet := { cmd := 1, src := 0, dst := 12, line := 3 }
def aging : State := { reel with fab := { reel.fab with net := [agedPkt] }, time := 10 ^ 9 }
def muted : State := { reel with time := 10 ^ 9 }

theorem witness_StrandAndMeshEvents :
    reel.life ≠ .off ∧ reel.life ≠ .halt ∧ reel.skeinUp 0 = true ∧ aging.fab.net = [agedPkt] ∧
      max agedPkt.since agedPkt.agedAt + fabricTicks 256 ≤ aging.time ∧ muted.skeinUp 0 = true ∧ muted.life = .run ∧
      (muted.sk 0).upAt + 2000 ≤ muted.time ∧ (muted.sk 0).narrowEnd ≤ muted.time ∧
      (training.sk 5).present = false ∧ (training.sk 5).linkState = 1 ∧ training.skeinUp (buddyOf 5) = false ∧
      laned.skeinUp 0 = true ∧ 1 &&& activeLanes (laned.sk 0).lanes 0 (laned.hubLanesOf 0) ≠ 0 ∧
      laned.param 0x0913 0 < laned.recentReplays 0 ∧
      roleWidth (goodLanes ((laned.sk 0).lanes &&& ~~~(1 &&& activeLanes (laned.sk 0).lanes 0 (laned.hubLanesOf 0))) 0
        (laned.hubLanesOf 0)).length (laned.hubLanesOf 0) ≠ 0 := by
  decide +kernel

/-- The fence of skein 3 in each stage of the handshake. -/
def fencing (st : Nat) : State := reel.setFence 3 { st := st }

theorem witness_DrainAndFenceHandshake :
    (reel.fence (fdomKey (.skein 3))).st = 0 ∧ ((fencing 1).fence (fdomKey (.skein 3))).st = 1 ∧
      (fencing 1).fdomBusy (.skein 3) = false ∧ 0 + drainLimit (.skein 3) ≤ { fencing 1 with time := 10 ^ 9 }.time ∧
      ((fencing 2).fence (fdomKey (.skein 3))).st = 2 ∧ (fencing 2).fdomUp (.skein 3) = true := by
  decide +kernel

/-- Probe 31 of skein 0 armed at port 0 of node 0: it counts, or it traces; the header of a RD_SHARED that leaves ply 0. -/
def leavesPly : BitVec 128 := BitVec.ofNat 128 (0x01 * 2 ^ 4 + 18 * 2 ^ 42 + 12 * 2 ^ 50)
def probed (mode : Nat) : State := withSk fun z => { z with probes := [(31, { ctl := BitVec.ofNat 64 (1 + 2 * mode) })] }
/-- Site 0 is up; its last capability slot opens the first 4 KiB to partition 1 for loads. -/
def siteUp : State := { (reel.modSite 0 fun g => { g with state := 2 }) with
  params := [(paramKey 0x0943 63, 2 ^ 127 + 2 ^ 98 + 2 ^ 96 + 2 ^ 52 * 4096)] }
/-- A read by the guest of site 0 under that slot. -/
def guestRead (line : Nat) : Packet := { cmd := 0x07, src := 13, part := 1, tenant := some 63, line := line, tag := 9 }

theorem witness_ProbesAndGuests :
    (∀ m : Fin 3, (probed m).probeSees 0 ((probed m).probe 0 31).ctl.toNat leavesPly = true ∧
        leavesPly &&& ((probed m).probe 0 31).mask = ((probed m).probe 0 31).mtch &&& ((probed m).probe 0 31).mask) ∧
      (flowTake siteUp.time (siteUp.param 0x0941 0) (1 + (guestRead 31).len) (siteUp.site 0).flow).isSome = true ∧
      (probed 0).skeinUp 0 = true ∧ ((probed 0).probe 0 31).ctl.getLsbD 0 = true ∧ bits ((probed 0).probe 0 31).ctl.toNat 1 2 = 0 ∧
      ((probed 2).probe 0 31).ctl.getLsbD 0 = true ∧ bits ((probed 2).probe 0 31).ctl.toNat 1 2 = 2 ∧
      ((probed 2).probe 0 31).ctl.getLsbD 13 = false ∧ ((probed 2).sk 0).trace.next < 4094 ∧
      (siteUp.site 0).state = 2 ∧ (siteUp.fence 16).st ≠ 2 ∧ siteUp.guestCheck 0 (guestRead 31) = 0 ∧ siteUp.partCut 1 = false ∧
      siteUp.guestCheck 0 (guestRead 32) ≠ 0 ∧
      ((reel.modSite 0 fun g => { g with state := 1 }).site 0).state = 1 := by
  decide +kernel

/-- The last line of channel 0, a copy of line 5 for its repair, and a scrubber at work. -/
def lastOff : Nat := 64 * 2 ^ 23 - 1
def copyOf5 : State :=
  { (withLines [(5, { l2 := 1 })]) with home := { reel.home with dir := [(5, { state := 2, owner := 0 })] } }
def scrub (off : Nat) : State := { (reel.modMch 0 fun m => { m with scrubbing := true, scrubAt := off }) with time := 10 ^ 15 }

theorem witness_MemoryReadsAreCorrected :
    reel.chUp 0 = true ∧ lastOff < reel.channelLines 0 ∧ tget 0 (reel.mch 0).flipped lastOff = 0 ∧ (reel.mch 0).reps = [] ∧
      reel.lineAt 0 5 = some 5 ∧ reel.partnerUp 0 5 = false ∧ copyOf5.lineAt 0 5 = some 5 ∧ copyOf5.partnerUp 0 5 = false ∧
      copyOf5.chUp 0 = true ∧ copyOf5.cacheRepair 5 = some LineVal.zero ∧ reel.cacheRepair 5 = none ∧
      (scrub 0).chUp 0 = true ∧ ((scrub 0).mch 0).scrubbing = true ∧ ((scrub 0).mch 0).scrubAt = 0 ∧ (scrub 0).mcs.retired = [] ∧
      (if ((scrub 0).mch 0).scrubFlow.1 = (scrub 0).time / 1000000 then ((scrub 0).mch 0).scrubFlow.2 else 0) < (scrub 0).param 0x0A03 0 ∧
      tget 0 ((scrub 0).mch 0).flipped 0 = 0 ∧ 0 + 1 < (scrub 0).channelLines 0 ∧
      ((scrub lastOff).mch 0).scrubAt = lastOff ∧ lastOff + 1 = (scrub lastOff).channelLines 0 ∧
      ((scrub 0).mch 0).late = false ∧ ((scrub 0).mch 0).lapStart + (scrub 0).param 0x0A04 0 * 1000000000 ≤ (scrub 0).time := by
  decide +kernel

/-- Channel 15 in a state of its restoration, and the reel in Service mode. -/
def chAt (st : Nat) : State := reel.modMch 15 fun m => { m with state := st }
def service : State := { reel with faults := { reel.faults with service := true } }

theorem witness_ChannelsAreLostAndRestored :
    (reel.mch 0).state ≠ 0 ∧ (reel.mch 0).state ≠ 2 ∧ reel.param 0x0A07 0 < 2 ^ 32 ∧
      ((chAt 5).mch 15).resilverAt + (chAt 5).resilverTicks 15 ≤ { chAt 5 with time := 10 ^ 15 }.time ∧ ((chAt 3).mch 15).state = 3 ∧ ((chAt 4).mch 15).state = 4 ∧
      ((chAt 5).mch 15).state = 5 ∧ service.faults.service = true ∧ (5 : Word).getLsbD 1 = false := by
  decide +kernel

end Sys2Proof.Tests
end

