-- ==== Sys2Proof/Tests/Witness7.lean ====
section
/-!
SUPPORT. Witnesses for the statements about flex ports, rack ports and rack operations, clause by clause.
-/

namespace Sys2Proof.Tests

set_option Elab.async false

open Sys2Proof Sys2Proof.Machine

/-- Flex port 20 of a group in the PCIe role, in a state; its windows: DMA window 63 opens 64 KiB at 64 KiB for a requester, and
interrupt entry 2047 interrupt 255 of spindle 2. -/
def flexAt (st : Nat) : State :=
  let s := { reel with params := [(paramKey 0x0C02 63, 2 ^ 191 + 3 * 2 ^ 88 + 2 ^ 52 + 2 ^ 16 + 0x1234),
                                  (paramKey 0x0C03 2047, 2 ^ 63 + 0x1234 + 2 * 2 ^ 22 + 255 * 2 ^ 31),
                                  (paramKey 0x0C01 0, 2 ^ 127 + 20 * 2 ^ 56 + 2 ^ 28)] }
  (s.modFlex 20 fun x => { x with state := st }).modJalif fun j => { j with boot := { j.boot with flex := [(5, 1)] } }
def flexLoad : Serial := { kind := .ucLoad, seq := 1, addr := flexBase, size := 8, sent := true }
def flexWaits : State :=
  { ((flexAt 2).modSp 0 fun x => { x with ops := [ucLoad flexBase 8], serial := some flexLoad }) with time := 10 ^ 15 }
def inbound (addr n : Nat) : Inbound :=
  { port := 20, rid := 0x1234, addr := addr, write := true, data := List.replicate n 0, len := 0, ep := false }

/-- A back-invalidate response for a line of a shared CXL range, held since tick 5. -/
def biWaits : State :=
  { reel with home := { reel.home with biHeld := [(2 ^ 37, false, false, 5)] }, time := 10 ^ 15,
              params := [(paramKey 0x0A20 0, 2 ^ 63 + 2 ^ 37 + 2 ^ 14)] }

theorem witness_FlexPortsTrainContainAndAdmit :
    (flexAt 1).flexExists 20 = true ∧ (flexAt 1).flexRole (20 / 4) = 1 ∧ ((flexAt 1).flexP 20).state = 1 ∧
      (flexAt 3).flexExists 20 = true ∧ ((flexAt 3).flexP 20).state = 3 ∧ ((flexAt 2).flexP 20).state = 2 ∧
      flexWaits.Runs 0 h0 ∧ flexWaits.Loads 0 flexBase 8 false (ucLoad flexBase 8) (some flexLoad) ∧
      flexLoad.Left .ucLoad flexBase ∧ (flexWaits.flexUsers 20).contains 0 = true ∧ 0 + flexWaits.param 0x0C04 0 * 1000 ≤ flexWaits.time ∧
      (flexAt 2).dmaWindow (inbound 0xFFF0 16) = some 0x1FFF0 ∧
      ((flexAt 2).hubWrite 0x1FFF0 (ofBytes (inbound 0xFFF0 16).data)).1 = true ∧ (flexAt 2).dmaWindow (inbound 0xFFF1 16) = none ∧
      (inbound (0x4100000000000000 + 4 * 2047) 4).data.length = 4 ∧ bitAt ((flexAt 2).param 0x0C03 2047) 63 = true ∧
      bits ((flexAt 2).param 0x0C03 2047) 0 16 = 0x1234 ∧ bits ((flexAt 2).param 0x0C03 2047) 22 9 = 2 ∧
      (((flexAt 2).modFlex 20 fun x => { x with cxl := true }).flexP 20).cxl = true ∧ ((flexAt 2).mbox 0).room = true ∧
      ((flexAt 2).mbox 0).held = [] ∧ (flexAt 3).param 0x0C05 0 * 1000000 ≤ { flexAt 3 with time := 10 ^ 15 }.time ∧
      (inbound 0xFFF0 16).addr < 2 ^ 48 ∧ biWaits.cxlOf (128 * 2 ^ 37) = some ⟨2 ^ 44, 2 ^ 30, 0, true, false⟩ ∧
      biWaits.home.biHeld = [(2 ^ 37, false, false, 5)] ∧ 5 + biWaits.biLimit (2 ^ 37) ≤ biWaits.time := by
  and_intros <;> first
    | exact runs_of (by decide +kernel)
    | exact loads_of (by decide +kernel)
    | decide +kernel

/-- Rack port 11 is enabled for reel 9 at all widths, in a state, with a width and replays. -/
def rackAt (st width replays : Nat) : State :=
  { reel with params := [(paramKey 0x0C40 11, 1 + 9 * 2), (paramKey 0x0C42 0, 5)] }.modRack 11 fun x =>
    { x with state := st, width := width, msReplays := replays, peer := 9, peerInc := 1 }

theorem witness_RackPortsTrainAndFail :
    ((rackAt 2 4 4).rack 11).state = 2 ∧ (rackAt 2 4 4).time < ((rackAt 2 4 4).rack 11).msStart + 1000000 ∧
      ((rackAt 2 4 4).rack 11).msReplays + 1 ≤ (rackAt 2 4 4).param 0x0C42 0 ∧ (((rackAt 2 4 4).rack 11).replay 0).tries ≤ 8 ∧
      8 < (({ (rackAt 2 4 4).rack 11 with tries := 8 } : Rack).replay 0).tries ∧ blockGood (ofBytes ([] : List Byte)) = false ∧
      ((rackAt 2 4 4).rack 11).upAt + 20000 ≤ { rackAt 2 4 4 with time := 10 ^ 9 }.time ∧
      (rackAt 2 2 5).param 0x0C42 0 < ((rackAt 2 2 5).rack 11).msReplays + 1 ∧ 1 < ((rackAt 2 2 5).rack 11).width ∧
      bits ((rackAt 2 2 5).param 0x0C40 11) 13 3 ≤ ((rackAt 2 2 5).rack 11).width / 2 ∧ ((rackAt 2 1 5).rack 11).width ≤ 1 ∧
      ((rackAt 3 0 0).rack 11).state = 3 ∧
      ((rackAt 3 0 0).rack 11).downAt + (rackAt 3 0 0).param 0x0C41 0 * 1000000 ≤ { rackAt 3 0 0 with time := 10 ^ 15 }.time ∧ bitAt ((rackAt 3 0 0).param 0x0C40 11) 0 = true ∧
      bits ((rackAt 3 0 0).param 0x0C40 11) 13 3 ≤ 1 ∧ ((rackAt 1 4 0).rack 11).state = 1 ∧ ((rackAt 1 4 0).rack 11).width ≠ 0 ∧
      9 ≠ (rackAt 1 4 0).jalif.boot.number ∧ bits ((rackAt 1 4 0).param 0x0C40 11) 1 12 = 9 := by
  decide +kernel

/-- Endpoint 255 serves 4 KiB at 4 KiB for any source, for reads and writes; a message of its peer for it. -/
def endpointReel : State :=
  let s := rackAt 2 4 0
  { s with params := (paramKey 0x0C43 255, 2 ^ 127 + 2 ^ 88 + 3 * 2 ^ 80 + 2 ^ 40 + 1) :: s.params }
def rackMsg (addr total : Nat) : RackMsg := { port := 11, attempt := 0, tag := 9 * 2 ^ 36, endpoint := 255, devaddr := addr, total := total }
def served (op : Nat) (done : Bool) : Dedup := { endpoint := 255, op := op, total := 16, done := done }
def serving (op : Nat) (done : Bool) : State :=
  { endpointReel with links := { endpointReel.links with dedup := [(9 * 2 ^ 36, served op done)] } }
def lastData : RackMsg := { rackMsg 0 0 with data := List.replicate 16 7, last := true }

theorem serves_endpoint (addr total : Nat) :
    endpointReel.Serves (rackMsg addr total) ⟨4096, 4096, true, true, 0, true, 0⟩ :=
  ⟨⟨by show (endpointReel.rack 11).state = 2; decide +kernel,
      by show endpointReel.fromPeer (rackMsg 0 0) = true; decide +kernel, rfl⟩, by decide +kernel,
    by show endpointReel.endpointCfg 255 = _; decide +kernel, Or.inl rfl⟩

theorem witness_RackOperationsAreServed :
    endpointReel.fromPeer { rackMsg 0 0 with tag := 8 * 2 ^ 36 } = false ∧
      endpointReel.Serves (rackMsg 0 4096) ⟨4096, 4096, true, true, 0, true, 0⟩ ∧
      (endpointReel.hubLines (linesOf (4096 + 4080) 16)).1 = some (List.replicate 1 LineVal.zero) ∧
      endpointReel.Serves (rackMsg 4080 16) ⟨4096, 4096, true, true, 0, true, 0⟩ ∧
      endpointReel.Serves (rackMsg 1 4096) ⟨4096, 4096, true, true, 0, true, 0⟩ ∧
      ringOf (endpointReel.param 0x0C44 255) = none ∧ (serving 2 false).FromPeer lastData (some (served 2 false)) ∧
      (serving 2 false).endpointCfg 255 = some ⟨4096, 4096, true, true, 0, true, 0⟩ ∧
      bits lastData.tag 36 12 ≠ (serving 2 false).jalif.boot.number ∧ lastData.data.length = 16 ∧
      ((serving 2 false).hubWrite 4096 (ofBytes lastData.data)).1 = true ∧
      (serving 2 true).dedupOf (9 * 2 ^ 36) = some (served 2 true) ∧
      (served 2 true).since + 3600000000000 ≤ { serving 2 true with time := 3600000000000 }.time :=
  ⟨by decide +kernel, serves_endpoint _ _, by decide +kernel, serves_endpoint _ _, serves_endpoint _ _, by decide +kernel,
    ⟨by decide +kernel, by decide +kernel, by decide +kernel⟩, by decide +kernel, by decide +kernel, by decide, by decide +kernel,
    by decide +kernel, by decide⟩

/-- Entry 9 is a WRITE that this reel, number 3, has asked of device 5, an endpoint behind rack port 11. -/
def rackEntry : Entry :=
  { st := .issued, tenant := 3, part := 1, device := 5, op := 2, tag := 3 * 2 ^ 36 + 9 * 2 ^ 20, everIssued := true, waitHint := some 1000 }
def asksRack : State :=
  let s := (rackAt 2 4 0).modJalif fun j => { j with boot := { j.boot with number := 3 } }
  { s with params := (paramKey 0x0B03 5, 3) :: (paramKey 0x0B04 20, 2 ^ 63 + 43) :: s.params, time := 3000000000000,
           chan := { s.chan with ledger := [(9, rackEntry)] } }
def rackResult (code : Nat) : RackMsg := { port := 11, attempt := 0, tag := rackEntry.tag, endpoint := 0, code := code }

theorem witness_RackOperationsEnd :
    (asksRack.rack 11).state = 2 ∧ bits rackEntry.tag 36 12 = asksRack.jalif.boot.number ∧
      (∀ c : Fin 8, asksRack.rackSlot (rackResult c) = some 9) ∧ asksRack.segsUncovered rackEntry = false ∧
      asksRack.streamPoison rackEntry = none ∧ asksRack.entry 9 = rackEntry ∧ rackEntry.waitHint = some 1000 ∧
      1000 ≤ asksRack.time ∧ ((asksRack.rackIssue 9 false).sendWriteData 9).1 = true ∧ asksRack.devType 5 = 3 ∧ rackEntry.everIssued = true ∧
      rackEntry.firstIssue + 3000000000000 ≤ asksRack.time := by
  decide +kernel

end Sys2Proof.Tests
end

