-- ==== Sys2Proof/Tests/Slice0.lean ====
section
/-!
SUPPORT. Small tests: the checks of WellFormed, each with a term that it refuses; and commands of each chapter against values that the
spec or a standard it names states. The witnesses of the statements stand in the other files of this folder.
-/

namespace Sys2Proof.Tests

set_option Elab.async false

open Sys2Proof Sys2Proof.Machine

/-! ### WellFormed: one ill-formed term for each check -/

def pkt0 : Packet := {}
def fullPkt : Packet :=
  { cmd := 63, age := 15, len := 8, tag := 65535, src := 14, dst := 14, srcNode := 255, dstNode := 255, part := 63,
    line := 2 ^ 45 - 1, aux := 255, tenant := some 4095 }
def msg0 : RackMsg := { port := 0, attempt := 0, tag := 0, endpoint := 0 }
def uc0 (size addr : Nat) : Uc := { sp := 0, addr := addr, size := size, data := 0, tag := false }
def in0 : Inbound := { port := 0, rid := 0, addr := 0, write := false, data := [], len := 0, ep := false }
def boot0 : BootIn :=
  { goodBoot with
    hubMasks := List.replicate 12 0, hubFars := List.replicate 12 0, buddyMasks := List.replicate 12 0, plyGood := List.replicate 12 0,
    cmpBad := [(239, 0)], draftOk := List.replicate 12 0, plyErrors := List.replicate 240 0 }

theorem test_wf_accepts :
    (Instr.wb pkt0).wf = true ∧ (Instr.wb fullPkt).wf = true ∧
    (Instr.ucLd (uc0 16 (2 ^ 64 - 1))).wf = true ∧ (Instr.opRead msg0).wf = true ∧ (Instr.reelInfo ⟨49, 3, 2 ^ 32 - 1⟩).wf = true ∧
    (Instr.faultEvent ⟨65535, 65535, some 479, 0⟩).wf = true ∧ (Instr.inboundRequest { in0 with len := 4096 }).wf = true ∧
    (Instr.identityBlock 0 ⟨4095, 2 ^ 32 - 1, 0⟩).wf = true ∧ (Instr.telemetrySample ⟨List.replicate 13 ⟨0, 0⟩, [23]⟩).wf = true ∧
    (Instr.resetNRise boot0).wf = true ∧ (Instr.ddrTrainingComplete (List.replicate 16 ⟨true, 3, 2, false, 64, []⟩)).wf = true := by
  decide +kernel

theorem test_wf_refuses_packets :
    [{ pkt0 with cmd := 64 }, { pkt0 with age := 16 }, { pkt0 with len := 9 }, { pkt0 with tag := 65536 }, { pkt0 with src := 15 },
     { pkt0 with dst := 15 }, { pkt0 with srcNode := 256 }, { pkt0 with dstNode := 256 }, { pkt0 with part := 64 },
     { pkt0 with line := 2 ^ 45 }, { pkt0 with aux := 256 }, { pkt0 with tenant := some 4096 }].all
      (fun p => !(Instr.rdOwn p).wf && !(Instr.guestPacket 0 p).wf) = true := by
  decide

theorem test_wf_refuses_accesses_and_messages :
    [uc0 2 0, uc0 32 0, uc0 8 (2 ^ 64)].all (fun r => !(Instr.ucSt r).wf && !(Instr.registerWrite r).wf) = true ∧
    [{ msg0 with attempt := 16 }, { msg0 with tag := 2 ^ 48 }, { msg0 with endpoint := 65536 }, { msg0 with devaddr := 2 ^ 64 },
     { msg0 with total := 2 ^ 36 }, { msg0 with offset := 2 ^ 36 }, { msg0 with code := 65536 }, { msg0 with incarnation := 2 ^ 32 },
     { msg0 with doneBytes := 2 ^ 36 }, { msg0 with hint := 2 ^ 32 }, { msg0 with data := List.replicate 129 0 }].all
      (fun m => !(Instr.opWrite m).wf && !(Instr.rackData m).wf) = true ∧
    [{ in0 with rid := 65536 }, { in0 with addr := 2 ^ 64 }, { in0 with len := 4097 }, { in0 with data := List.replicate 4097 0 }].all
      (fun r => !(Instr.inboundRequest r).wf) = true ∧
    [(⟨4096, 0, 0⟩ : RackIdentity), ⟨0, 2 ^ 32, 0⟩].all (fun id => !(Instr.identityBlock 0 id).wf) = true := by
  decide +kernel

theorem test_wf_refuses_mailboxes_events_and_boot :
    [(⟨50, 0, 0⟩ : Mb), ⟨0, 4, 0⟩, ⟨0, 0, 2 ^ 32⟩].all (fun mb => !(Instr.census mb).wf) = true ∧
    [(⟨2 ^ 64, 0, []⟩ : Buf), ⟨0, 2 ^ 64, []⟩].all (fun b => !(Instr.bootRecordRead ⟨0, 0, 0⟩ b).wf) = true ∧
    [(⟨65536, 0, none, 0⟩ : EventIn), ⟨0, 65536, none, 0⟩, ⟨0, 0, some 480, 0⟩].all (fun e => !(Instr.faultEvent e).wf) = true ∧
    [(⟨List.replicate 12 ⟨0, 0⟩, []⟩ : Telemetry), ⟨List.replicate 13 ⟨0, 0⟩, [24]⟩].all (fun t => !(Instr.telemetrySample t).wf) = true ∧
    [{ boot0 with hubMasks := [] }, { boot0 with buddyMasks := [] }, { boot0 with plyGood := [] }, { boot0 with cmpBad := [(240, 0)] },
     { boot0 with iout := [] }, { boot0 with hubFars := [] }, { boot0 with cmpBad := [(0, BitVec.allOnes 64)] }, { boot0 with draftOk := [] }, { boot0 with plyErrors := [] }].all (fun b => !(Instr.pwrOkRise b).wf) = true ∧
    [List.replicate 15 (⟨true, 3, 2, false, 64, []⟩ : ChTrain), List.replicate 16 ⟨true, 4, 2, false, 64, []⟩,
     List.replicate 16 ⟨true, 3, 4, false, 64, []⟩].all (fun r => !(Instr.ddrTrainingComplete r).wf) = true := by
  decide +kernel

/-- An image of 24,584 bytes of code, a field that is too wide, and a group mask of a ply that does not exist. -/
theorem test_wf_refuses_images_and_admissions :
    [{ goodBank 0 with version := 2 ^ 32 }, { goodBank 0 with draft := { code := List.replicate 3073 0 } },
     { goodBank 0 with draft := { version := 2 ^ 32 } }, { goodBank 0 with draft := { crc := 2 ^ 32 } }].all
      (fun i => !(Instr.firmwareWrite ⟨49, 0, 0⟩ ⟨0, 0, []⟩ i).wf && !(Instr.firmwareRecover ⟨49, 0, 0⟩ i).wf) = true ∧
    (Instr.firmwareWrite ⟨49, 0, 0⟩ ⟨0, 0, []⟩ { goodBank 0 with draft := { code := List.replicate 3072 0 } }).wf = true ∧
    [[(20, (0 : Word))], [(0, BitVec.allOnes 64)]].all
      (fun l => !(Instr.skeinReadmission 0 { admission true true 0 with cmpBad := l }).wf) = true := by
  decide +kernel

theorem test_wf_refuses_numbers :
    [Instr.barrierComplete 0 (2 ^ 64), .dblLine 0 (2 ^ 45), .release 0 (2 ^ 45), .memoryReadComplete 0 (2 ^ 52) .clean,
     .deviceCompletion 0 16 (.done 0 []), .dedupEntryExpire (2 ^ 48), .countdownExpire (2 ^ 32), .hubCompareMismatch 4096,
     .paramRead ⟨0, 0, 0⟩ 0 0 (2 ^ 52), .faultAck ⟨0, 0, 0⟩ (2 ^ 32), .tagsSave ⟨0, 0, 0⟩ (2 ^ 64) 0 0 ⟨0, 0, []⟩,
     .tagsSave ⟨0, 0, 0⟩ 0 (2 ^ 64) 0 ⟨0, 0, []⟩, .retirePage ⟨0, 0, 0⟩ (2 ^ 64)].all (fun c => !c.wf) = true := by
  decide

/-- No row of the table gives its command bits: no word spells one. -/
theorem test_no_word_spells_a_command : decodeTableWord 0 0 = none ∧ reel.withFetchWord 0 0 = reel := ⟨rfl, rfl⟩

/-! ### Bundles (R42 to R49) -/

/-- Slot 0 written out bit by bit: p3 guards a move of socket 0x155 to socket 0x2AA, negated, with PAIR and modifier 5; slot 1 is an
immediate −1 to socket 0x001; slot 2 is a no-operation slot; the KIND is normal. -/
def bundleWord : Nat :=
  0b00_000000000000000000000000000000000000000000_000010000000000111111111111111111111111111_001100101010101000101010101110000000000101

theorem test_bundle_word_decodes :
    bundleKind bundleWord = 0 ∧ bundleMoves bundleWord =
      [{ slot := 0, guard := 3, neg := true, dst := 0x2AA, src := 0x155, pair := true, mod := 5 },
       { slot := 1, guard := 0, imm := true, dst := 1, immV := 2 ^ 26 - 1 }] := by
  decide

theorem test_long_immediate_word : longImm (1 * 2 ^ 126 + (2 ^ 22 - 1) * 2 ^ 84 + 1 * 2 ^ 42) = some 0xFFFFFC0000000001 := by decide

/-! ### Units (R79 to R98): the result and the status bits that a trigger and its completion leave -/

/-- The result socket and the status bits of unit u after command c with operand 1 b, and its completion. -/
def result (c : Instr) (u : UnitId) (b : Nat) : Nat × Nat :=
  let w := ((after (exec (.unitCompletion 0 u) (after (exec c (withO1 u (capNum b)))))).sp 0).arch.unit u
  (w.r.bits.toNat, w.st.toNat)

theorem test_alu :
    result (.add 0 0 (BitVec.allOnes 64)) 0 1 = (0, 1) ∧ result (.add 0 1 (2 ^ 63 - 1 : Nat)) 1 1 = (2 ^ 63, 2) ∧
      result (.sub 0 2 0) 2 1 = (2 ^ 64 - 1, 1) ∧ result (.sar 0 3 (2 ^ 63 : Nat)) 3 (64 + 4) = (0xF800000000000000, 0) := by
  decide +kernel

/-- The edge results of R83's table. -/
theorem test_divider :
    result (.udiv 0 9) 5 0 = (2 ^ 64 - 1, 1) ∧ result (.urem 0 9) 5 0 = (9, 1) ∧ result (.sdiv 0 9) 5 0 = (2 ^ 64 - 1, 1) ∧
      result (.srem 0 9) 5 0 = (9, 1) ∧ result (.sdiv 0 (2 ^ 63 : Nat)) 5 (2 ^ 64 - 1) = (2 ^ 63, 2) ∧
      result (.srem 0 (2 ^ 63 : Nat)) 5 (2 ^ 64 - 1) = (0, 2) ∧ result (.sdiv 0 (BitVec.ofInt 64 (-7))) 5 2 = (2 ^ 64 - 3, 0) ∧
      result (.srem 0 (BitVec.ofInt 64 (-7))) 5 2 = (2 ^ 64 - 1, 0) ∧ result (.sdiv 0 7) 5 (2 ^ 64 - 2) = (2 ^ 64 - 3, 0) ∧
      result (.srem 0 7) 5 (2 ^ 64 - 2) = (1, 0) := by
  decide +kernel

/-- R85: a field that would pass bit 63 is cut there; R79 and R86. -/
theorem test_bit_unit :
    result (.extu 0 (BitVec.allOnes 64)) 9 (60 + 64 * 8) = (15, 0) ∧ result (.exts 0 0x80) 9 (64 * 8) = (0xFFFFFFFFFFFFFF80, 0) ∧
      result (.clz 0 0) 9 0 = (64, 0) ∧ result (.perm 0 0x8877665544332211) 9 0x81234567 = (0x0022334455667788, 0) ∧
      result (.bswap 0 0x0102030405060708) 9 0 = (0x0807060504030201, 0) := by
  decide +kernel

/-- 1.5 + 2.25 in binary64 and 1 + 2 in decimal64, both in round-to-nearest-even (IEEE 754-2019). -/
theorem test_floating_point :
    (result (.fadd 0 6 0 0x3FF8000000000000) 6 0x4002000000000000).1 = 0x400E000000000000 ∧
      (result (.dadd 0 0 0x2238000000000001) 8 0x2238000000000002).1 = 0x2238000000000003 := by
  decide +kernel

/-- A signed and an unsigned compare of −1 and 0. -/
theorem test_compare : (result (.cmpLt 0 0 (BitVec.allOnes 64)) 16 0).1 = 1 ∧ (result (.cmpLtu 0 0 (BitVec.allOnes 64)) 16 0).1 = 0 := by
  decide +kernel

/-! ### Capabilities (R111, R116) -/

theorem test_narrow_keeps_its_bounds :
    capOp 4 (capAll 0x1000 0x1000) ⟨BitVec.ofNat 128 (0x1800 + 0x800 * 2 ^ 52), false⟩ = .ok (capAll 0x1800 0x800) ∧
      capOp 4 (capAll 0x1000 0x1000) ⟨BitVec.ofNat 128 (0x1800 + 0x801 * 2 ^ 52), false⟩ = .error 7 ∧
      capOp 12 (capAll 0x1000 0x1000) Cap.zero = .ok { capAll 0x1000 0x1000 with tag := false } := by
  decide +kernel

/-! ### Memory (R302) -/

/-- The example of R302: mode 0, unmirrored. -/
theorem test_interleave_example :
    { reel with mcs := { reel.mcs with interleave := 0 } }.locate 0x0000002000001180 = ([1], 0x0000000200000180) := by
  decide +kernel

/-! ### Press and cipher: FIPS 197 appendix C.1, the first GCM test case of its authors, and the CRC check values -/

theorem test_aes_fips197 :
    aesEnc (List.range 16) ((List.range 16).map (17 * ·)) =
      [0x69, 0xC4, 0xE0, 0xD8, 0x6A, 0x7B, 0x04, 0x30, 0xD8, 0xCD, 0xB7, 0x80, 0x70, 0xB4, 0xC5, 0x5A] := by
  decide +kernel

theorem test_gcm_empty :
    (gcmSeal (List.replicate 16 0) (List.replicate 12 0) [] []).2 =
      [0x58, 0xE2, 0xFC, 0xCE, 0xFA, 0x7E, 0x30, 0x61, 0x36, 0x7F, 0x1D, 0x57, 0xA4, 0xE7, 0x45, 0x5A] := by
  decide +kernel

theorem test_crcs :
    crc32 0 [0x31, 0x32, 0x33, 0x34, 0x35, 0x36, 0x37, 0x38, 0x39] = 0xCBF43926 ∧
      crc64 [0x31, 0x32, 0x33, 0x34, 0x35, 0x36, 0x37, 0x38, 0x39] = 0x62EC59E3F1A4F00A := by
  decide +kernel

/-! ### The queue, the test port and the collector -/

/-- R518: the identification code; a step takes the front command alone. -/
theorem test_step_takes_the_front :
    (after (step queued)).pins.jtagOut = 0x1A4E04D3 ∧ (after (step queued)).pending = [.bypass] ∧
      (after (step (after (step queued)))).pins.jtag = 0 := by
  decide +kernel

/-- R426, R428: an event of severity 6 drives FATAL_N low and is in the log. -/
theorem test_fatal_event :
    (after (exec (.faultEvent halting) reel)).pins.fatalLow = true ∧
      ((after (exec (.faultEvent halting) reel)).faults.log.map (·.sev)).contains 6 = true := by
  decide +kernel

/-- R277: a request of skein 2 crosses its hub role in one block, whose 256 bytes have a good CRC, and the hub's end has it. -/
theorem test_packet_crosses_in_a_block :
    let s := State.reset.send { cmd := 1, src := 2, dst := 12, line := 77 }
    ((tget {} s.fab.strands 4).sent.map fun b => (b.seq, b.flits.length, strandGood b.bytes)) = [(0, 1, true)] ∧
      (tget {} s.fab.strands 26).got = 1 := by
  decide +kernel

end Sys2Proof.Tests
end

