-- ==== Sys2Proof/Tests/Witness1.lean ====
section
/-!
SUPPORT. Witnesses: concrete states and operands that meet the hypotheses of the statements about bundles and triggers, clause
by clause.
-/

namespace Sys2Proof.Tests

set_option Elab.async false

open Sys2Proof Sys2Proof.Machine

/-- The hypotheses on a command of ComputeTriggerStartsItsOperation. -/
def computes (c : Instr) : Bool := match triggerOf c with
  | some (_, t) => (decide (t.u ≤ 9) || decide (t.u = 16)) && !longTrigger t.u t.sock && !modMisuse t.u t.sock t.mod
  | none => false

theorem witness_compute_commands :
    [Instr.add 0 0 5, .sub 0 1 0, .addt 0 2 1, .subt 0 3 1, .and 0 0 1, .or 0 0 1, .xor 0 0 1, .andn 0 0 1, .shl 0 0 64, .shr 0 0 63,
      .sar 0 0 1, .addc 0 3 1, .mul 0 2, .umul 0 2, .smul 0 2, .mult 0 2, .udiv 0 0, .sdiv 0 1, .urem 0 1, .srem 0 1,
      .fadd 0 0 0 0, .fsub 0 1 0 0, .fmul 0 0 1 0, .fdiv 0 0 2 0, .fsqrt 0 0 0 0, .fma 0 0 0 0, .cvtfi 0 0 256 0, .cvtif 0 0 0 0,
      .cvtff 0 0 64 0, .fmin 0 0 0 0, .fmax 0 0 0 0, .fclass 0 0 0 0, .dadd 0 0 0, .dsub 0 1 0, .dmul 0 0 0, .ddiv 0 0 0, .dfma 0 0 0,
      .dquant 0 0 0, .drrnd 0 0 0, .dcvtid 0 0 0, .dcvtdi 0 0 0, .dcvtdd 0 0 0, .dsqrt 0 0 0].all computes = true := by decide

theorem witness_compute_commands2 :
    [Instr.extu 0 1, .exts 0 1, .ins 0 1, .clz 0 0, .ctz 0 0, .popc 0 0, .perm 0 0, .bswap 0 0, .rol 0 64, .ror 0 0,
      .cmpEq 0 1 0, .cmpNe 0 1 0, .cmpLt 0 15 0, .cmpLe 0 0 0, .cmpLtu 0 0 0, .cmpLeu 0 0 0, .cmpFeq 0 0 0, .cmpFlt 0 0 0,
      .cmpFle 0 0 0, .cmpFun 0 0 0, .tbit 0 0 0].all computes = true := by decide

theorem witness_ComputeTriggerStartsItsOperation :
    triggerOf (.add 0 0 5) = some (0, { u := 0, sock := 4, a := ofWord 5 }) ∧ computes (.add 0 0 5) = true ∧ reel.Ready 0 h0 :=
  ⟨rfl, by decide, ready_of (by decide +kernel)⟩

/-- The hypothesis on a command of CapabilityTriggerStartsItsOperation, for the operand 1 given. -/
def capGoes (o1 : Cap) (c : Instr) : Bool := match triggerOf c with
  | some (_, t) => decide (t.u = 14) && (match capOp t.sock t.a o1 with | .ok _ => true | .error _ => false)
  | none => false

theorem witness_capability_commands :
    [Instr.narrow 0 (capAll 0x10000 16), .pdrop 0 (capAll 0 16), .tagq 0 Cap.zero, .baseq 0 Cap.zero, .lenq 0 Cap.zero,
      .infoq 0 Cap.zero, .untag 0 Cap.zero, .mkentry 0 (capAll 0 17), .authq 0 Cap.zero].all
        (capGoes (capNum 0x10000)) = true ∧
      capGoes (mkCap 0 1 (2 ^ pSEAL) 4095 0 true) (.wrap 0 (capAll 0 16)) = true ∧
      capGoes (mkCap 0 1 (2 ^ pUNSEAL) 7 0 true) (.unwrap 0 (mkCap 0 16 1 7 1 true)) = true ∧
      capGoes (capNum 1) (.mkentry 0 (capAll 0 17)) = true := by decide +kernel

theorem witness_CapabilityTriggerStartsItsOperation :
    triggerOf (.pdrop 0 (capAll 0 16)) = some (0, { u := 14, sock := 5, a := capAll 0 16 }) ∧
      ((withO1 14 (capNum 1)).sp 0).arch.unit 14 = { o1 := capNum 1 } ∧ (withO1 14 (capNum 1)).Ready 0 h0 ∧
      capOp 5 (capAll 0 16) (capNum 1) = .ok (mkCap 0 16 1 0 0 true) :=
  ⟨rfl, by decide +kernel, ready_of (by decide +kernel), rfl⟩

/-- A reel whose BA is such that the link is the last that CALLCAP allows. -/
def lastLink : State := withSp fun x => { x with ba := 0xFFE0 }

theorem witness_ControlTransferOfReadySpindle :
    lastLink.Ready 0 h0 ∧ linkOf (lastLink.sp 0).ba (lastLink.sp 0).arch.codecap = 4095 ∧
      capTarget ((lastLink.sp 0).arch.getC 1) 0xFFF = .ok (0x1FFF0, capAll 0x10000 0x10000) :=
  ⟨ready_of (by decide +kernel), by decide +kernel, by rfl⟩

/-- A reel with loops in progress and a body length in operand 1 of the loop unit. -/
def looping (depth m : Nat) : State :=
  (withO1 13 (capNum m)).modSp 0 fun x => { x with arch := { x.arch with loopDepth := depth } }

theorem witness_LoopTriggersOfReadySpindle :
    (looping 0 1).Ready 0 h0 ∧ (looping 3 65536).Ready 0 h0 ∧ (Cap64 (((looping 0 1).sp 0).arch.unit 13).o1).toNat = 1 ∧
      (Cap64 (((looping 3 65536).sp 0).arch.unit 13).o1).toNat = 65536 ∧ ((looping 3 65536).sp 0).arch.loopDepth = 3 :=
  ⟨ready_of (by decide +kernel), ready_of (by decide +kernel), by decide +kernel, by decide +kernel, rfl⟩

/-- The hypotheses on a load or store command of spindle 0 in state s, its line held or not. -/
def accesses (s : State) (held : Bool) (c : Instr) : Bool := match triggerOf c with
  | some (_, t) => (t.u == 10 || t.u == 11) && !modMisuse t.u t.sock t.mod && decide (s.lsCapCause (s.sp 0) t = none) &&
      decide (s.lsMemCause (s.sp 0) t = none) && !uncachedKind (s.addrKind (lsAddrN (s.sp 0) t)) &&
      (s.skl 0 (lineOf (lsAddrN (s.sp 0) t))).held == held && (s.sk 0).reqs.isEmpty
  | none => false

/-- A reel that holds the line at the base of c1. -/
def holding : State := withLines [(512, { l2 := 1, own := .exclusive })]

theorem witness_LoadIsInFlightOrAsksForItsLine :
    reel.Ready 0 h0 ∧ holding.Ready 0 h0 ∧
      [Instr.ld8u 0 0 1 0, .ld8s 0 1 1 1, .ld16u 0 0 1 2, .ld16s 0 0 1 2, .ld32u 0 0 1 4, .ld32s 0 0 1 4, .ld64 0 0 1 8, .ld128 0 0 1 16,
        .ldcap 0 0 1 0].all (fun c => accesses reel false c && accesses holding true c) = true :=
  ⟨ready_of (by decide +kernel), ready_of (by decide +kernel), by decide +kernel⟩

theorem witness_StoreAndAtomicWaitForOwnership :
    reel.Ready 0 h0 ∧
      [Instr.st 0 0 1 0, .stcap 0 1 1 0, .atomCas 0 0 1 0, .atomFetchAdd 0 0 1 0, .atomSwap 0 0 1 0, .atomBitSet 0 0 1 0,
        .atomBitClear 0 0 1 0].all (accesses reel false) = true :=
  ⟨ready_of (by decide +kernel), by decide +kernel⟩

/-- A reel whose skein 0 is Loose. -/
def looseReel : State := withSk fun z => { z with loose := true }

theorem witness_SystemTriggersOfReadySpindle :
    reel.Ready 0 h0 ∧ (reel.sk 0).loose = false ∧ looseReel.Ready 0 h0 ∧ (looseReel.sk 0).loose = true :=
  ⟨ready_of (by decide +kernel), rfl, ready_of (by decide +kernel), rfl⟩

theorem witness_CacheOperationIsInFlight :
    reel.Ready 0 h0 ∧
      [Instr.clean 0 1, .inval 0 1, .discard 0 1, .lockWay 0 0xF01, .lockFill 0 1, .unlockWay 0 0x41].all (fun c => match triggerOf c with
        | some (0, t) => t.u == 15 && t.sock == 11 && decide (t.mod ≤ 5) && bits t.w.toNat 12 52 == 0 && !bitAt t.w.toNat 7 &&
            (cacheopCause ((reel.sp 0).arch.getC (bits t.w.toNat 0 6)) t.mod).isNone && reel.memRange 0x10000 0x10000
        | _ => false) = true ∧ capBase ((reel.sp 0).arch.getC 1) % 128 = 0 ∧ capLen ((reel.sp 0).arch.getC 1) % 128 = 0 :=
  ⟨ready_of (by decide +kernel), by decide +kernel, by decide +kernel, by decide +kernel⟩

/-- A reel whose unit u holds the page capability of tenant page 3. -/
def paged (u : Nat) : State := withO1 u (mkCap 0 4096 (2 ^ pLOAD + 2 ^ pSTORE) 3 3 true)

/-- The hypotheses on a long operation or FINISH of spindle 0 in state s. -/
def startsLong (s : State) (long : Bool) (c : Instr) : Bool := match triggerOf c with
  | some (0, t) => longTrigger t.u t.sock == long && !modMisuse t.u t.sock t.mod && (s.trigFails 0 (s.sp 0) t).isEmpty &&
      (long || ((t.u == 18 || t.u == 19) && t.sock == 6))
  | _ => false

theorem witness_LongOperationBegins :
    reel.Ready 0 h0 ∧ (paged 18).Ready 0 h0 ∧ (paged 19).Ready 0 h0 ∧
      [Instr.bmove 0 1 1 4096, .dldiv 0 0 1].all (startsLong reel true) = true ∧
      [Instr.compress 0 1 1 1, .decompress 0 1 1 0].all (startsLong (paged 18) true) = true ∧
      [Instr.encrypt 0 1 1 16, .decrypt 0 1 1 16].all (startsLong (paged 19) true) = true :=
  ⟨ready_of (by decide +kernel), ready_of (by decide +kernel), ready_of (by decide +kernel), by decide +kernel, by decide +kernel,
    by decide +kernel⟩

/-- A reel in which partition 0's coprocessor unit 80 is bound to guest G0. -/
def bound : State := { reel with params := [(paramKey 0x0945 0, 1)] }

theorem witness_FinishAndCoprocessorRequestAreInFlight :
    startsLong (paged 18) false (.pressFinish 0 1 1 0) = true ∧ startsLong (paged 19) false (.cipherFinish 0 1 1 0) = true ∧
      bound.Ready 0 h0 ∧ bound.copBinding 0 80 ≠ 0 ∧ (bound.sk 0).loose = false :=
  ⟨by decide +kernel, by decide +kernel, ready_of (by decide +kernel), by decide +kernel, rfl⟩

end Sys2Proof.Tests
end

