-- ==== Sys2Proof/Tests/Witness3.lean ====
section
/-!
SUPPORT. Witnesses for the statements about plies, fastening, skein loss and recovery, clause by clause.
-/

namespace Sys2Proof.Tests

set_option Elab.async false

open Sys2Proof Sys2Proof.Machine

/-- One retry short of the limit of 3. -/
def oneRetry : State := withPl fun y => { y with stamps := [0] }

theorem witness_PlyErrorsAreRetriedBelowLimit :
    oneRetry.compares 0 0 = true ∧ (oneRetry.ply 0 0).testPend = false ∧ 1 < oneRetry.param 0x0500 0 ∧ (oneRetry.ply 0 0).stamps.length + 1 < oneRetry.param 0x0500 0 := by
  decide +kernel

/-- Ply 2 of skein 0 hosts nothing. -/
def idlePly (y : Ply) : State := { (reel.modPly 0 2 fun _ => y) with params := [(paramKey 0x0500 0, 1)] }
def drafted (y : Ply) : State := (idlePly y).modJalif fun j => { j with draftVer := 2 }
def splitLoose : State := withSk fun z => { z with split := true, loose := true }

theorem witness_PlyFailuresAreDeclared :
    (let s := idlePly { state := 0, step := 0 };
      s.compares 0 2 = true ∧ s.param 0x0500 0 ≤ 1 ∧ s.spindlesOn 0 2 = [] ∧ s.targets = []) ∧
    (let s := idlePly { state := 4, testPend := true };
      s.skeinUp 0 = true ∧ (s.sk 0).split = false ∧ (s.ply 0 2).testPend = true ∧ s.spindlesOn 0 2 = [] ∧ s.targets = [] ∧
        (0 : Word) ≠ BitVec.allOnes 64) ∧
    (∀ n, n = 0 ∨ n = 1 → let s := drafted { state := 1, step := 0, draftVersion := 1, draftLoads := n };
      s.skeinUp 0 = true ∧ (s.ply 0 2).step < 9 ∧ (s.ply 0 2).state < 6 ∧ (s.ply 0 2).state ≠ 3 ∧ (s.ply 0 2).draftVersion ≠ s.jalif.draftVer ∧
        s.spindlesOn 0 2 = [] ∧ s.targets = [] ∧ (s.ply 0 2).draftLoads = n) ∧
    splitLoose.skeinUp 0 = true ∧ (splitLoose.sk 0).split = true ∧ (splitLoose.sk 0).loose = true ∧ (splitLoose.ply 0 0).state ≤ 2 ∧
      splitLoose.targets = [] ∧ (splitLoose.ply 0 0).step < 9 := by
  refine ⟨by decide +kernel, by decide +kernel, ?_, by decide +kernel⟩
  rintro n (rfl | rfl) <;> decide +kernel

def splitFast : State := withSk fun z => { z with split := true }
/-- A failed ply whose L2 holds a dirty line, 100 µs after it failed. -/
def dirtyPly : State :=
  { (withPl fun y => { y with state := 3 }).modSk 0 fun z => { z with lines := [(1, { l2 := 1, fst := .unfastened })] } with time := 100000 }
def dirtyLoose : State := dirtyPly.modSk 0 fun z => { z with loose := true }

theorem witness_SkeinLossFollowsItsCauses :
    reel.skeinUp 0 = true ∧ reel.life ≠ .off ∧ reel.life ≠ .halt ∧ (splitFast.sk 0).loose = false ∧ (splitFast.sk 0).split = true ∧
      splitFast.skeinUp 0 = true ∧ (splitFast.ply 0 0).state ≤ 2 ∧ splitFast.targets = [] ∧ (reel.sk 0).loose = false ∧ reel.regionUsed 0 0 0 = true ∧
      dirtyPly.skeinUp 0 = true ∧ (dirtyPly.sk 0).loose = false ∧ (dirtyPly.ply 0 0).state = 3 ∧ dirtyPly.dirtyInL2 0 0 ≠ [] ∧
      (dirtyPly.ply 0 0).failedAt + 100000 ≤ dirtyPly.time ∧ dirtyLoose.skeinUp 0 = true ∧ (dirtyLoose.sk 0).loose = true ∧
      (dirtyLoose.ply 0 0).state = 3 ∧ dirtyLoose.dirtyInL2 0 0 ≠ [] ∧ dirtyLoose.regionUsed 0 0 0 = true ∧
      reel.regionUsed 0 0 3 = false := by
  decide +kernel

/-- A test for spindle 0 on its ply. -/
def tested : State := withPl fun y => { y with testPend := true, testFor := some 0 }
def draftWaits : State := (withPl fun y => { y with draftVersion := 1 }).modJalif fun j => { j with draftVer := 2 }
def selfTest (spare : Nat) : State :=
  { (reel.modPly 0 1 fun _ => { state := 4, step := 0 }) with params := if spare = 1 then [] else [(paramKey 0x0503 0, 0)] }
/-- Spindle 0 is bound for ply 1, which is prepared. -/
def moving0 : State :=
  ((withSp fun x => { x with moving := true, target := some ⟨0, 1, 0⟩ }).modPly 0 1 fun _ => { state := 5, step := 0 }).setFence
    (plyKey 0 0) { st := 2 }
/-- Ply 2 of a Split skein is woken for a move and tests itself. -/
def splitTest : State := splitFast.modPly 0 2 fun _ => { state := 5, step := 0, testPend := true }

theorem witness_PliesReturnToService :
    tested.Quiet ∧ tested.skeinUp 0 = true ∧ (tested.sk 0).split = false ∧ (tested.ply 0 0).testPend = true ∧
      (tested.ply 0 0).testMb = none ∧ (tested.ply 0 0).testFor = some 0 ∧
      draftWaits.skeinUp 0 = true ∧ (draftWaits.ply 0 0).step < 9 ∧ (draftWaits.ply 0 0).state < 6 ∧ (draftWaits.ply 0 0).state ≠ 3 ∧
      (draftWaits.ply 0 0).draftVersion ≠ draftWaits.jalif.draftVer ∧ draftWaits.jalif.draftCrcOk = true ∧
      splitTest.Quiet ∧ splitTest.skeinUp 0 = true ∧ (splitTest.sk 0).split = true ∧ (splitTest.ply 0 2).state = 5 ∧
      (splitTest.ply 0 2).testPend = true ∧
      (∀ n, n = 0 ∨ n = 1 → ((selfTest n).ply 0 1).state = 4 ∧ ((selfTest n).ply 0 1).testMb = none ∧
        ((selfTest n).ply 0 1).testPend = false ∧ ((selfTest n).ply 0 1).step < 9 ∧ (selfTest n).param 0x0503 0 = n) ∧
      (moving0.sp 0).host = some ⟨0, 0, 0⟩ ∧ (moving0.sp 0).target = some ⟨0, 1, 0⟩ ∧ (moving0.sp 0).moving = true ∧
      moving0.placeReady ⟨0, 1, 0⟩ = true ∧ moving0.spindlesOn 0 0 = [0] ∧ moving0.cleanL2 0 0 = some moving0 ∧ (moving0.fence (plyKey 0 0)).st = 2 ∧ (moving0.sk 0).inBarrier = false ∧
      (moving0.sp 0).stores = [] ∧ (moving0.sp 0).freezeReq = false ∧ (moving0.sp 0).moveMb = none ∧ (moving0.ply 0 0).testMb = none := by
  unfold State.Quiet
  and_intros <;> first
    | decide +kernel
    | rfl
    | (rintro n (rfl | rfl) <;> decide +kernel)

theorem witness_EpochsCloseAndCommit :
    (let z := reel.sk 0;
      reel.Quiet ∧ reel.running = true ∧ reel.skeinUp 0 = true ∧ z.loose = false ∧ z.resvClean = false ∧ z.inBarrier = false ∧
        z.closingEpoch = 0 ∧ reel.NoStoresOn 0 ∧ z.pair = 0 ∧ { reel with time := 10 ^ 15 }.epochOver 0 = true) ∧
    (let s := { withSk (fun z => { z with gather := some 0 }) with time := 10 ^ 15 }
     let z := s.sk 0;
      z.gather = some 0 ∧ 0 + plyTicks (s.topStep 0) 64 ≤ s.time ∧ z.closingEpoch = 0 ∧ z.pair = 0) ∧
    (let z := (withSk fun z => { z with closingEpoch := 1, openEpoch := 2 }).sk 0;
      z.closingEpoch ≠ 0 ∧ z.loose = false ∧ z.resvClean = false ∧ z.inBarrier = false ∧ z.committed ≠ z.closingEpoch ∧ z.toSend = [] ∧
        z.imgSend = [] ∧ z.spillOpen = 0) ∧
    (let z := (withSk fun z => { z with inBarrier := true }).sk 0;
      z.inBarrier = true ∧ z.closingEpoch = 0 ∧ z.ctxDirty = []) ∧
    (let s := withSk fun z => { z with closingEpoch := 1, committed := 1, openEpoch := 2 };
      (s.sk 0).closingEpoch ≠ 0 ∧ (s.sk 0).committed = (s.sk 0).closingEpoch ∧ (s.sk 0).looseAt = none ∧ (s.sk 0).tickHeld = false ∧
        (s.sk 0).ctxDirty = [] ∧ s.NoStoresOn 0 ∧ s.mcs.retired = [] ∧ s.home.biHeld = [] ∧ s.running = true) := by
  unfold State.Quiet State.NoStoresOn
  decide +kernel

/-- A line of the closing epoch to be doubled, an image to be sent, a release, and a hold. -/
def doubling : State := withSk fun z => { z with
  closingEpoch := 1, openEpoch := 2, toSend := [5], imgSend := [0], releases := [6],
  lines := [(5, { l2 := 1, fst := .closing }), (7, { l2 := 1, hold := 1 })] }

theorem witness_DoublingEngineSendsLinesAndImages :
    doubling.Quiet ∧ doubling.skeinUp 0 = true ∧ (doubling.sk 0).closingEpoch ≠ 0 ∧ (doubling.sk 0).toSend.contains 5 = true ∧
      (doubling.sk 0).releases.contains 5 = false ∧ doubling.toBuddy 0 = true ∧ doubling.NoStoresOn 0 ∧
      (doubling.skl 0 5).fst = .closing ∧ l3SetOf 5 < 12048 ∧ doubling.resvCount (buddyOf 0) 5 < 4 ∧
      ((doubling.sendFirst 0).contains 5 = true ∨ doubling.sendFirst 0 = []) ∧
      (doubling.sk 0).imgSend.contains 0 = true ∧ (doubling.sk 0).releases.contains 6 = true ∧ (doubling.skl 0 7).hold = 1 ∧
      (doubling.skl 0 7).holdAt + fabricTicks (doubling.param 0x0603 0) ≤ { doubling with time := 10 ^ 12 }.time := by
  unfold State.Quiet State.NoStoresOn
  decide +kernel

/-- A Modified line of skein 2 and a journal copy of it. -/
def journaled : State :=
  { reel with home := { reel.home with
      dir := [(0, { state := 3, owner := 2 })], journal := [{ skein := 2, epoch := 4, line := 0, val := LineVal.zero, done := true }] } }

theorem witness_HomeSlicesTakePartInFastens :
    journaled.Quiet ∧ 0 ∈ ({ cmd := 0x22, lines := [0], owner := 2, epoch := 4 } : Packet).lines ∧ homeSlice 0 = 0 ∧
      journaled.Comes 0x22 { cmd := 0x22, lines := [0], owner := 2, epoch := 4 } ∧ reel.Comes 0x27 {} ∧ (journaled.homeOf 0).topq = [] ∧
      (journaled.dirOf 0).state = 3 ∧ (journaled.dirOf 0).owner = 2 ∧ reel.Quiet ∧
      journaled.home.journal = [{ skein := 2, epoch := 4, line := 0, val := LineVal.zero, done := true }] := by
  unfold State.Quiet State.Comes
  decide +kernel

def barrierSplit : State := { withSk (fun z => { z with split := true, loose := true, inBarrier := true }) with time := 10 ^ 12 }
def barrierTwin : State := { oneRetry.modSk 0 fun z => { z with inBarrier := true } with time := 10 ^ 12 }

theorem witness_BarrierTimeoutActsOnThePly :
    (∀ b : Bool, let s := if b then barrierSplit else barrierTwin
      (s.sk 0).barrierAt + plyTicks (s.ply 0 0).step (s.param 0x0602 0) ≤ s.time ∧ s.targets = []) ∧
      barrierSplit.skeinUp 0 = true ∧ (barrierSplit.sk 0).inBarrier = true ∧ (barrierSplit.ply 0 0).state = 0 ∧
      (barrierSplit.sk 0).split = true ∧ (barrierSplit.sk 0).loose = true ∧ barrierTwin.skeinUp 0 = true ∧
      (barrierTwin.sk 0).inBarrier = true ∧ (barrierTwin.ply 0 0).state = 0 ∧ (barrierTwin.sk 0).split = false ∧
      1 < barrierTwin.param 0x0500 0 ∧ (barrierTwin.ply 0 0).stamps.length + 1 < barrierTwin.param 0x0500 0 := by
  decide +kernel

/-- A sweep under way, skein 2 lost. -/
def sweeping : State := (reel.modSk 2 fun z => { z with lost := true, present := false }).modHome 0 fun x => { x with sweep := true }
/-- Spindle 3 to be placed, with no place, and with one that is ready. -/
def noPlace : State := (reel.modPly 0 1 fun y => { y with state := 3 }).modJalif fun j => { j with rehost := [3] }
def placing (suspended : Bool) : State :=
  ((reel.modSp 3 fun x => { x with target := some ⟨0, 1, 0⟩, suspended := suspended }).modPly 0 1 fun _ => { state := 5, step := 0 }).modJalif
    fun j => { j with rehost := if suspended then [] else [3], heldImg := [(3, {})] }
/-- Both skeins of a pair have committed into the other. -/
def pairing : State := foldS [0, buddyOf 0] (fun k t => t.modSk k fun z => { z with pair := 2, pairFirst := true }) reel
def cleaning (both : Bool) : State :=
  foldS (if both then [0, buddyOf 0] else [0]) (fun k t => t.modSk k fun z => { z with resvClean := true }) reel

theorem witness_RecoveryAfterSkeinLoss :
    sweeping.Quiet ∧ (sweeping.homeOf 0).topq = [] ∧ (sweeping.homeOf 0).sweep = true ∧ homeSlice 0 = 0 ∧ (sweeping.sk 2).lost = true ∧
    noPlace.running = true ∧ noPlace.jalif.rehost = [3] ∧ (noPlace.sp 3).target = none ∧
      noPlace.choosePlace = none ∧
    (∀ b : Bool, let s := placing b;
      s.running = true ∧ (s.sp 3).target = some ⟨0, 1, 0⟩ ∧ s.placeReady ⟨0, 1, 0⟩ = true ∧ s.jalif.heldImg = [(3, {})] ∧
        ({} : Image).bad = false ∧ (s.sk 0).loose = false ∧ s.home.router = [] ∧ ({} : Image).sp.stores = [] ∧ (b = false → s.jalif.rehost = [3]) ∧
        (b = true → (s.sp 3).suspended = true ∧ (s.sp 3).moving = false)) ∧
    pairing.Quiet ∧ (pairing.sk 0).pair = 2 ∧ (pairing.sk (buddyOf 0)).pair = 2 ∧ (pairing.sk 0).pairFirst = true ∧
      (pairing.sk (buddyOf 0)).pairFirst = true ∧
    (∀ b : Bool, let s := cleaning b;
      s.Quiet ∧ (s.sk 0).resvClean = true ∧ (s.sk 0).l3 = [] ∧ (s.sk (buddyOf 0)).resvClean = b ∧ s.running = true ∧
      (∀ k, k = 0 ∨ k = buddyOf 0 → s.skeinUp k = true ∧ (s.sk k).loose = false ∧ (s.sk k).inBarrier = false ∧
        (s.sk k).closingEpoch = 0 ∧ (s.sk k).pair = 0 ∧ s.NoStoresOn k)) := by
  unfold State.Quiet State.NoStoresOn
  and_intros <;> first
    | decide +kernel
    | (intro b; refine ⟨?_, ?_, ?_, ?_, ?_, ?_⟩ <;> first
        | (cases b <;> decide +kernel)
        | (rintro k (rfl | rfl) <;> cases b <;> decide +kernel))

end Sys2Proof.Tests
end

/-!
PROOFS. What a command answers, what the fault collector may change when it reports an event, and how an uncached access of a
spindle ends (R8, R12, R13, R40, R187, R188, R272, R284, R427).
-/

namespace Sys2Proof.Machine

/-! ### The answer of a command -/

/-- The answer of every command is `done` of its effect. -/
theorem exec_eq_done (c : Instr) (s : State) : ∃ u : State, exec c s = done u := by
  cases c <;> exact ⟨_, rfl⟩

/-- A command whose answer is `done u` leaves whatever holds of u. -/
theorem leaves_of_exec {c : Instr} {s u : State} {P : State → Prop} (h : exec c s = done u) (hu : P u) : Leaves c s P :=
  ⟨u, h, hu⟩

/-- Settles O46: every arm answers `done` of a state. -/
theorem everyCommandCompletes : Obligations.EveryCommandCompletes := by
  intro c s
  obtain ⟨u, hu⟩ := exec_eq_done c s
  exact ⟨u.settle, hu⟩

theorem step_of_cons {c : Instr} {rest : List Instr} {s : State} (h : s.pending = c :: rest) :
    step s = exec c { s with pending := rest } := by
  unfold step
  rw [h]

theorem step_of_nil {s : State} (h : s.pending = []) : step s = .next (idleTick s) := by
  unfold step
  rw [h]

/-- Settles O36: the two cases of the queue. -/
theorem stepRunsFrontCommand : Obligations.StepRunsFrontCommand :=
  ⟨fun _ _ _ h => step_of_cons h, fun _ h => step_of_nil h⟩

/-! ### What a report of the fault collector leaves unchanged (R427 to R443) -/

/-- From s to t nothing but the fault collector, the pins, the MODEL's counter of free values, pending interrupts of spindles and
the router's copies of interrupts may change. -/
structure State.Reports (s t : State) : Prop where
  rest : t = { s with
    faults := t.faults, pins := t.pins, freeCtr := t.freeCtr, cores := { s.cores with spindles := t.cores.spindles },
    home := { s.home with router := t.home.router } }
  sp : ∀ i, ∃ p, t.sp i = { s.sp i with intPending := p }

namespace State.Reports

variable {s t u : State}

theorem refl (s : State) : s.Reports s := ⟨rfl, fun i => ⟨(s.sp i).intPending, rfl⟩⟩

theorem trans (h : s.Reports t) (k : t.Reports u) : s.Reports u where
  rest := k.rest.trans (by rw [h.rest])
  sp i := by
    obtain ⟨p, hp⟩ := h.sp i
    obtain ⟨q, hq⟩ := k.sp i
    exact ⟨q, by rw [hq, hp]⟩

theorem fab (h : s.Reports t) : t.fab = s.fab := by rw [h.rest]
theorem gate (h : s.Reports t) : t.home.gate = s.home.gate := by rw [h.rest]
theorem arch (h : s.Reports t) (i : Nat) : (t.sp i).arch = (s.sp i).arch := by
  obtain ⟨p, hp⟩ := h.sp i
  rw [hp]
theorem ops (h : s.Reports t) (i : Nat) : (t.sp i).ops = (s.sp i).ops := by
  obtain ⟨p, hp⟩ := h.sp i
  rw [hp]

end State.Reports

variable (s : State)

theorem State.reports_modFaults (f : Faults → Faults) : s.Reports (s.modFaults f) := ⟨rfl, (State.Reports.refl s).sp⟩
theorem State.reports_modPins (f : Pins → Pins) : s.Reports (s.modPins f) := ⟨rfl, (State.Reports.refl s).sp⟩
theorem State.reports_freeCtr (n : Nat) : s.Reports { s with freeCtr := n } := ⟨rfl, (State.Reports.refl s).sp⟩
theorem State.reports_todo (r : React) : s.Reports (s.todo r) := s.reports_modFaults _

theorem State.reports_ite {c : Prop} [Decidable c] {t u : State} (ht : s.Reports t) (hu : s.Reports u) :
    s.Reports (if c then t else u) := by
  split
  · exact ht
  · exact hu

theorem State.reports_intPending (i : Nat) (p : BitVec 256) : s.Reports (s.modSp i fun x => { x with intPending := p }) where
  rest := rfl
  sp j := by
    by_cases h : j = i
    · subst h
      exact ⟨p, s.modSp_sp j _⟩
    · exact ⟨(s.sp j).intPending, s.modSp_sp_other _ h⟩

theorem State.reports_router (r : List (Nat × Nat × Nat)) : s.Reports { s with home := { s.home with router := r } } :=
  ⟨rfl, (State.Reports.refl s).sp⟩

theorem State.reports_raiseIntr (i n : Nat) : s.Reports (s.raiseIntr i n) := by
  have h := s.reports_intPending i ((s.sp i).intPending ||| BitVec.ofNat 256 (2 ^ n))
  unfold State.raiseIntr
  split
  · exact s.reports_ite h (h.trans (State.reports_router _ _))
  · exact s.reports_ite (h.trans (State.reports_router _ _)) h

theorem State.reports_notifyIntr (id part n : Nat) : s.Reports (s.notifyIntr id part n) := by
  unfold State.notifyIntr
  split
  · exact s.reports_raiseIntr _ _
  · exact .refl s

theorem State.reports_applyRung (r : ActRec) (k : Nat) : s.Reports (s.applyRung r k) := by
  unfold State.applyRung
  extract_lets t
  have ht : s.Reports t := by
    unfold t
    split
    · split
      · exact s.reports_todo _
      · exact .refl s
    · exact s.reports_todo _
    · split
      · exact s.reports_todo _
      · exact .refl s
    · exact s.reports_todo _
    · exact .refl s
  exact s.reports_ite ht (ht.trans (t.reports_todo _))

theorem State.reports_setErr : s.Reports s.setErr := s.reports_modPins _

theorem State.reports_requestSnap (trigger source seq : Nat) : s.Reports (s.requestSnap trigger source seq) := by
  unfold State.requestSnap
  extract_lets f r join
  split
  · exact s.reports_modFaults _
  · exact s.reports_ite (s.reports_modFaults _) ((s.reports_modFaults _).trans (State.reports_todo _ _))

theorem State.reports_logRecord (r : LogRec) : s.Reports (s.logRecord r) :=
  s.reports_ite (s.reports_modFaults _) (s.reports_modFaults _)

theorem State.reports_openRecord (e : EventIn) (owner sev handled : Nat) : s.Reports (s.openRecord e owner sev handled) := by
  unfold State.openRecord
  refine s.reports_ite (s.reports_modFaults _) (s.reports_ite ?_ ?_)
  · extract_lets limit k r
    split
    next n due _ =>
      extract_lets s1 s2
      have h1 : s.Reports s1 := s.reports_modFaults _
      have h2 : s1.Reports s2 := (s1.reports_ite (.refl s1) (s1.reports_notifyIntr _ _ _)).trans (State.reports_notifyIntr _ _ _ _)
      exact ((h1.trans h2).trans (s2.reports_applyRung r k)).trans (State.reports_setErr _)
  · exact ((s.reports_modFaults _).trans (State.reports_todo _ _)).trans (State.reports_setErr _)

theorem State.reports_collectCore (e : EventIn) (forced : Bool) (rung : Nat) : s.Reports (s.collectCore e forced rung) := by
  unfold State.collectCore
  extract_lets t block key g base sev owner handled s1
  have h1 : s.Reports s1 := s.reports_modFaults _
  split
  next => exact h1
  next full s2 s3 s4 s5 _ =>
    have h2 : s.Reports s2 := h1.trans (s1.reports_logRecord _)
    have h3 : s.Reports s3 := s.reports_ite (h2.trans (s2.reports_modFaults _)) h2
    have h4 : s.Reports s4 := s.reports_ite (h3.trans (s3.reports_openRecord _ _ _ _)) h3
    have h5 : s.Reports s5 := s.reports_ite
      (((h4.trans (s4.reports_modFaults _)).trans (State.reports_modPins _ _)).trans (State.reports_todo _ _)) h4
    exact s.reports_ite (h5.trans (s5.reports_requestSnap _ _ _)) h5

theorem State.reports_rollSecond : s.Reports s.rollSecond :=
  s.reports_ite (.refl s) <| (s.reports_modFaults _).trans <|
    State.reports_ite _ (.refl _) (State.reports_collectCore _ _ _ _)

theorem State.reports_collect (e : EventIn) (forced : Bool) (rung : Nat) : s.Reports (s.collect e forced rung) :=
  s.reports_rollSecond.trans (State.reports_collectCore _ _ _ _)

/-- An event that is raised changes nothing beyond its report. -/
theorem State.reports_raise (src inst : Nat) (spindle : Option Nat) : s.Reports (s.raise src inst spindle) :=
  (s.reports_freeCtr _).trans (State.reports_collect _ _ _ _)


/-! ### The end of an operation (R60) -/

@[simp] theorem Spindle.complete_stores (x : Spindle) (r : OpRec) : (x.complete r).stores = x.stores := rfl
@[simp] theorem Spindle.complete_freezeReq (x : Spindle) (r : OpRec) : (x.complete r).freezeReq = x.freezeReq := rfl
@[simp] theorem Spindle.complete_serialNext (x : Spindle) (r : OpRec) : (x.complete r).serialNext = x.serialNext := rfl

/-- The result socket after a completion; units 13 and 15 aside, every unit enters its result. -/
theorem Spindle.complete_result (x : Spindle) (r : OpRec) (h13 : r.unit ≠ 13) (h15 : r.unit ≠ 15) :
    ((x.complete r).arch.unit r.unit).r = r.res := by
  have hu : (x.complete r).arch.units = (x.complete { r with cause := 0, pred := 0 }).arch.units := by
    unfold Spindle.complete
    dsimp only
    split_ifs <;> rfl
  have h0 : ((x.complete { r with cause := 0, pred := 0 }).arch.unit r.unit).r = r.res := by
    simp [Spindle.complete, Arch.unit, Arch.modUnit, h13, h15]
  rwa [Arch.unit, hu, ← Arch.unit]

/-- The first operation of its unit completes as soon as its result has come. -/
theorem Spindle.arrive_of_first {x : Spindle} {r : OpRec} (h : x.frontOp r.unit = some r) (r' : OpRec) :
    x.arrive r r' = { x.complete r' with ops := x.ops.erase r } := if_pos h

/-- Where no retired store waits and no freeze is asked for, a completion makes nothing else possible. -/
theorem State.afterDone_of_idle {i : Nat} (hs : (s.sp i).stores = []) (hf : (s.sp i).freezeReq = false) : s.afterDone i = s := by
  have hd : s.drain i = s := by
    unfold State.drain
    rw [hs]
    rfl
  simp [State.afterDone, hd, State.park, hf]

/-! ### The gate's record and the open requests of the sites -/

@[simp] theorem State.holdResp_sp (i j : Nat) (q : BitVec 48) (v : BitVec 128) (b : Bool) : (s.holdResp i q v b).sp j = s.sp j := rfl
@[simp] theorem State.holdResp_site (i g : Nat) (q : BitVec 48) (v : BitVec 128) (b : Bool) :
    (s.holdResp i q v b).site g = s.site g := rfl
@[simp] theorem State.holdResp_tenant (i g : Nat) (q : BitVec 48) (v : BitVec 128) (b : Bool) :
    (s.holdResp i q v b).tenant g = s.tenant g := rfl
@[simp] theorem State.holdResp_mem (i : Nat) (q : BitVec 48) (v : BitVec 128) (b : Bool) : (s.holdResp i q v b).mem = s.mem := rfl

/-- The gate holds the response to the output that it accepted last (R188). -/
theorem State.holdResp_gate {i : Nat} {q : BitVec 48} (h : (tget {} s.home.gate i).seq = q) (v : BitVec 128) (b : Bool) :
    tget {} (s.holdResp i q v b).home.gate i = { seq := q, resp := v, done := true, timedOut := b } := by
  simp only [State.holdResp, tget_tmod_same]
  rw [if_pos h, h]

@[simp] theorem State.closeUc_sp (i j : Nat) : (s.closeUc i).sp j = s.sp j := rfl
@[simp] theorem State.closeUc_home (i : Nat) : (s.closeUc i).home = s.home := rfl
@[simp] theorem State.closeUc_tenant (i j : Nat) : (s.closeUc i).tenant j = s.tenant j := rfl
@[simp] theorem State.closeUc_mem (i : Nat) : (s.closeUc i).mem = s.mem := rfl

/-- A change that fixes the record of a site leaves it as it is, whatever site it is made to. -/
theorem State.modSite_site_of_fixed {f : Site → Site} {g : Nat} (k : Nat) (h : f (s.site g) = s.site g) :
    (s.modSite k f).site g = s.site g := by
  by_cases hk : g = k
  · subst hk
    rw [s.modSite_site, h]
  · exact s.modSite_site_other f hk

theorem Site.filter_opens_of_nil {x : Site} (h : x.opens = []) (p : Packet → Bool) : { x with opens := x.opens.filter p } = x := by
  cases x
  cases h
  rfl

/-- A site of which nothing is open stays as it is when a spindle's uncached access ends. -/
theorem State.closeUc_site {g : Nat} (i : Nat) (h : (s.site g).opens = []) : (s.closeUc i).site g = s.site g := by
  have step : ∀ (k : Nat) (t : State), t.site g = s.site g → (t.modSite k fun x => { x with
      opens := x.opens.filter fun p => !((p.cmd == 0x28 || p.cmd == 0x29) && p.lines.headD 480 == i) }).site g = s.site g := by
    intro k t ht
    rw [t.modSite_site_of_fixed k (Site.filter_opens_of_nil (ht ▸ h) _), ht]
  exact foldS_ind (fun t => t.site g = s.site g) _ step [0, 1] s rfl

/-! ### Uncached accesses of a spindle (R40, R187, R188, R272, R284) -/

/-- The result of the uncached load r, v, has come, first of its unit. -/
def Spindle.deliver (x : Spindle) (r : OpRec) (v : Cap) : Spindle :=
  { x.complete { r with res := v, poison := none } with ops := x.ops.erase r }

@[simp] theorem Spindle.deliver_ops (x : Spindle) (r : OpRec) (v : Cap) : (x.deliver r v).ops = x.ops.erase r := rfl
@[simp] theorem Spindle.deliver_stores (x : Spindle) (r : OpRec) (v : Cap) : (x.deliver r v).stores = x.stores := rfl
@[simp] theorem Spindle.deliver_freezeReq (x : Spindle) (r : OpRec) (v : Cap) : (x.deliver r v).freezeReq = x.freezeReq := rfl
@[simp] theorem Spindle.deliver_serialNext (x : Spindle) (r : OpRec) (v : Cap) : (x.deliver r v).serialNext = x.serialNext := rfl

theorem Spindle.deliver_result {r : OpRec} (hu : r.unit = 10 ∨ r.unit = 11) (x : Spindle) (v : Cap) :
    ((x.deliver r v).arch.unit r.unit).r = v :=
  x.complete_result { r with res := v, poison := none } (by show r.unit ≠ 13; omega) (by show r.unit ≠ 15; omega)

/-- The answer to an uncached load that is first of its unit is delivered; k is its kind as read. -/
theorem Spindle.arrive_eq_deliver {x : Spindle} {r : OpRec} {k : OpKind} (h : x.frontOp r.unit = some r) (hk : r.kind = k) (v : Cap) :
    x.arrive r { r with kind := k, res := v, poison := none } = x.deliver r v := by
  subst hk
  exact Spindle.arrive_of_first h _

theorem State.ucLoadOut_of_none {i : Nat} (h : (s.sp i).serial = none) : s.ucLoadOut i = none := by
  simp [State.ucLoadOut, h]

theorem State.serialLeft_of_sent {q : Serial} (i : Nat) (h : q.sent = true) : s.serialLeft i q = true := by
  simp [State.serialLeft, h]

theorem State.ucLoadOut_of_left {i a : Nat} {q : Serial} (h : (s.sp i).serial = some q) (hl : q.Left .ucLoad a) :
    s.ucLoadOut i = some a := by
  obtain ⟨hk, ha, hs⟩ := hl
  simp [State.ucLoadOut, h, hk, ha, s.serialLeft_of_sent i hs]

theorem State.ucStoreOut_of_left {i a : Nat} {q : Serial} (h : (s.sp i).serial = some q) (hl : q.Left .ucStore a) :
    s.ucStoreOut i = true := by
  obtain ⟨hk, _, hs⟩ := hl
  simp [State.ucStoreOut, h, hk, s.serialLeft_of_sent i hs]

section
variable {s} {i a n : Nat} {signed : Bool} {r : OpRec} {q : Serial} {h : Place}

/-- The answer to a load from register space, which makes no serial output. -/
theorem State.ucAnswer_of_register (hr : s.Runs i h) (hl : s.Loads i a n signed r none) (v : BitVec 128) :
    s.ucAnswer i a v false = s.modSp i fun x => x.deliver r (ucValue v n signed) := by
  obtain ⟨here, ⟨⟨o, hk, _⟩, _, _⟩, first, out⟩ := hl
  simp only [State.ucAnswer, here, hk, s.ucLoadOut_of_none out, Option.none_beq_some, Bool.false_eq_true, if_false, State.modSp]
  rw [Spindle.arrive_eq_deliver first hk, State.afterDone_of_idle]
  · rfl
  · simp [hr.stores]
  · simp [hr.free]

/-- The answer to a load from a window, which is the pending output: the output ends, and the gate holds the answer. -/
theorem State.ucAnswer_of_window (hr : s.Runs i h) (hl : s.Loads i a n signed r (some q)) (hq : q.Left .ucLoad a) (v : BitVec 128) :
    s.ucAnswer i a v false =
      ((s.modSp i fun x => (x.deliver r (ucValue v n signed)).endSerial).closeUc i).holdResp i r.ser v false := by
  obtain ⟨here, ⟨⟨o, hk, _⟩, _, _⟩, first, out⟩ := hl
  simp only [State.ucAnswer, here, hk, s.ucLoadOut_of_left out hq, beq_self_eq_true, if_true, Bool.false_eq_true, if_false,
    State.modSp]
  rw [Spindle.arrive_eq_deliver first hk, State.afterDone_of_idle]
  · rfl
  · simp [Spindle.endSerial, hr.stores]
  · simp [Spindle.endSerial, hr.free]

theorem State.ucAnswer_loaded_of_register (hr : s.Runs i h) (hl : s.Loads i a n signed r none) (v : BitVec 128) :
    s.Loaded (s.ucAnswer i a v false) i r (ucValue v n signed) := by
  rw [State.ucAnswer_of_register hr hl]
  simp [State.Loaded, Spindle.deliver_result hl.kind.2.2]

theorem State.ucAnswer_loaded_of_window (hr : s.Runs i h) (hl : s.Loads i a n signed r (some q)) (hq : q.Left .ucLoad a)
    (v : BitVec 128) : s.Loaded (s.ucAnswer i a v false) i r (ucValue v n signed) := by
  rw [State.ucAnswer_of_window hr hl hq]
  simp [State.Loaded, Spindle.endSerial, Spindle.deliver_result hl.kind.2.2]

/-- A report of the fault collector takes nothing from a load's delivery. -/
theorem State.Loaded.of_reports {t u : State} {v : Cap} (ht : s.Loaded t i r v) (hu : t.Reports u) : s.Loaded u i r v :=
  ⟨by rw [hu.arch, ht.1], by rw [hu.ops, ht.2]⟩

/-- A delivery is judged by the operations that the spindle had in flight. -/
theorem State.Loaded.of_sp {t u : State} {v : Cap} (hl : t.Loaded u i r v) (ht : t.sp i = s.sp i) : s.Loaded u i r v :=
  ⟨hl.1, by rw [hl.2, ht]⟩

/-- A refused load is answered with all ones, and its refusal is reported. -/
theorem State.ucRefuse_of_load (hl : s.ucLoadAt i a = some r) (inst : Nat) :
    s.ucRefuse i a inst = (s.ucAnswer i a (BitVec.allOnes 128) false).raise 0x0507 inst (some i) := by
  simp [State.ucRefuse, hl]

/-- The refusal of a spindle's requests refuses the load that has left it. -/
theorem State.refuseSpindle_of_left (hs : (s.sp i).serial = some q) (hq : q.Left .ucLoad a) (inst : Nat) :
    s.refuseSpindle i inst = s.ucRefuse i a inst := by
  obtain ⟨hk, ha, hsent⟩ := hq
  simp [State.refuseSpindle, hs, hk, ha, s.serialLeft_of_sent i hsent]

/-- A window's answer leaves a site of which nothing is open as it is. -/
theorem State.ucAnswer_site_of_window {g : Nat} (hr : s.Runs i h) (hl : s.Loads i a n signed r (some q)) (hq : q.Left .ucLoad a)
    (v : BitVec 128) (hg : (s.site g).opens = []) : (s.ucAnswer i a v false).site g = s.site g := by
  rw [State.ucAnswer_of_window hr hl hq, State.holdResp_site]
  exact State.closeUc_site _ i hg

/-- What stands in the fabric has no part in a spindle's run, nor in the load that it has in flight. -/
theorem State.Runs.with_fab (hr : s.Runs i h) (f : Fabric) : { s with fab := f }.Runs i h :=
  ⟨hr.data, hr.place, hr.stores, hr.free, hr.quiet⟩
theorem State.Loads.with_fab {o : Option Serial} (hl : s.Loads i a n signed r o) (f : Fabric) :
    { s with fab := f }.Loads i a n signed r o := ⟨hl.here, hl.kind, hl.first, hl.out⟩

/-- The refusal of the spindle's load from a window delivers all ones to it. -/
theorem State.refuseSpindle_loaded (hr : s.Runs i h) (hl : s.Loads i a n signed r (some q)) (hq : q.Left .ucLoad a) (inst : Nat) :
    s.Loaded (s.refuseSpindle i inst) i r (ucValue (BitVec.allOnes 128) n signed) := by
  rw [State.refuseSpindle_of_left hl.out hq, State.ucRefuse_of_load hl.here]
  exact (State.ucAnswer_loaded_of_window hr hl hq _).of_reports (State.reports_raise _ _ _ _)

/-- The refusal of the spindle's load from a window leaves a site of which nothing is open as it is. -/
theorem State.refuseSpindle_site {g : Nat} (hr : s.Runs i h) (hl : s.Loads i a n signed r (some q)) (hq : q.Left .ucLoad a)
    (inst : Nat) (hg : (s.site g).opens = []) : (s.refuseSpindle i inst).site g = s.site g := by
  rw [State.refuseSpindle_of_left hl.out hq, State.ucRefuse_of_load hl.here, ← State.ucAnswer_site_of_window hr hl hq _ hg]
  exact congrArg (fun f => tget {} f.sites g) (State.reports_raise _ _ _ _).fab

/-- UC_ACK ends the store that has left the spindle, and the gate holds the response. -/
theorem State.ucAck_of_left (hst : (s.sp i).stores = []) (hf : (s.sp i).freezeReq = false) (hs : (s.sp i).serial = some q)
    (hq : q.Left .ucStore a) : s.ucAck i = ((s.modSp i Spindle.endSerial).holdResp i q.seq 0 false).closeUc i := by
  simp only [State.ucAck, s.ucStoreOut_of_left hs hq, if_true, State.endOutput, hs]
  exact State.afterDone_of_idle _ (by simp [Spindle.endSerial, hst]) (by simp [Spindle.endSerial, hf])

end

/-! ### The commands of an uncached access -/

theorem exec_ucLd (x : Uc) : exec (.ucLd x) s = execUcLd x s := rfl
theorem exec_ucSt (x : Uc) : exec (.ucSt x) s = execUcSt x s := rfl
theorem exec_ucData (sp : SpId) (v : BitVec 128) (b : Bool) : exec (.ucData sp v b) s = execUcData sp v b s := rfl
theorem exec_ucAck (sp : SpId) : exec (.ucAck sp) s = done (s.ucAck sp) := rfl
theorem exec_refused (p : Packet) : exec (.refused p) s = done (s.refused p) := rfl
theorem exec_guestUcTimeout (sp : SpId) (g : SiteId) : exec (.guestUcTimeout sp g) s = execGuestUcTimeout sp g s := rfl
theorem exec_registerWrite (x : Uc) : exec (.registerWrite x) s = execRegisterWrite x s := rfl
theorem exec_serialOutputGate (sp : SpId) : exec (.serialOutputGate sp) s = done (s.gate sp) := rfl

/-- A load that the spindle may perform is ready to be answered. -/
theorem State.ucLoadReady_of_loads {i a n : Nat} {signed : Bool} {r : OpRec} {q : Option Serial} (hl : s.Loads i a n signed r q) :
    s.ucLoadReady i a = true := by
  obtain ⟨here, ⟨⟨o, hk, hp⟩, _, _⟩, _, _⟩ := hl
  simp [State.ucLoadReady, here, hk, hp]

section
variable {s} {x : Uc}

theorem State.isPending_of_none (k : SerialKind) (h : (s.sp x.sp).serial = none) : s.isPending x k = false := by
  simp [State.isPending, h]

/-- UC_LD of a register in an unfenced block answers with the register's bytes. -/
theorem exec_ucLd_of_register (hn : (s.sp x.sp).serial = none) (ha : s.addrKind x.addr = .register)
    (hr : s.ucLoadReady x.sp x.addr = true) (hf : s.regFenced (x.addr - regBase) = none)
    (hc : inConfigSpace (x.addr - regBase) = false) :
    exec (.ucLd x) s = done (s.ucAnswer x.sp x.addr (BitVec.ofNat 128 (s.regBytes (x.addr - regBase) x.size)) false) := by
  rw [exec_ucLd]
  simp [execUcLd, State.isPending_of_none _ hn, ha, hr, hf, hc]

/-- UC_LD of a register in the block of a fenced skein is refused. -/
theorem exec_ucLd_of_fenced {k : Nat} (hn : (s.sp x.sp).serial = none) (ha : s.addrKind x.addr = .register)
    (hr : s.ucLoadReady x.sp x.addr = true) (hf : s.regFenced (x.addr - regBase) = some k) :
    exec (.ucLd x) s = done (s.ucRefuse x.sp x.addr k) := by
  rw [exec_ucLd]
  simp [execUcLd, State.isPending_of_none _ hn, ha, hr, hf]

end

/-- REFUSED of a request that no site has open refuses the spindle that it names. -/
theorem State.refused_of_lines {p : Packet} {i : Nat} (hd : p.dst = 12) (hl : p.lines = [i])
    (ho : ∀ g : SiteId, (s.site g).opens = []) :
    s.refused p = { s with fab := { s.fab with net := s.fab.net.erase p } }.refuseSpindle i p.src := by
  have h0 : (({ s with fab := { s.fab with net := s.fab.net.erase p } } : State).site 0).opens = [] := ho 0
  have h1 : (({ s with fab := { s.fab with net := s.fab.net.erase p } } : State).site 1).opens = [] := ho 1
  simp [State.refused, hd, hl, h0, h1]

/-- GUEST_UC_TIMEOUT of the only open request of a site, the load of the spindle, after its limit. -/
theorem exec_guestUcTimeout_of_open {sp : SpId} {g : SiteId} {p : Packet} (ho : (s.site g).opens = [p]) (hc : p.cmd = 0x28)
    (hl : p.lines = [sp.val]) (ht : p.since + s.param 0x0942 g * 1000 ≤ s.time) :
    exec (.guestUcTimeout sp g) s = done ((s.modSite g fun x => { x with
      opens := x.opens.erase p, ended := x.ended ++ [p.tag] }).refuseSpindle sp (13 + g)) := by
  rw [exec_guestUcTimeout]
  simp [execGuestUcTimeout, ho, hc, hl, Nat.not_lt.mpr ht]

/-- Settles O12: an answer, a refusal and an acknowledgement each end the access that the spindle has pending. -/
theorem uncachedAccessesAreAnswered : Obligations.UncachedAccessesAreAnswered := by
  intro sp s h a n signed r hr
  refine ⟨fun hl ha x hsp hx hn => ?_, fun q hl hq => ⟨fun v hg => ?_, fun p hd hp ho => ?_, fun g p ho hc hp ht => ?_⟩,
    fun q hs hq hg => ?_⟩
  · subst hsp hx hn
    have ready := s.ucLoadReady_of_loads hl
    refine ⟨fun hf hc => ?_, fun k hf => ?_⟩
    · exact leaves_of_exec (exec_ucLd_of_register hl.out ha ready hf hc) (State.ucAnswer_loaded_of_register hr hl _)
    · refine leaves_of_exec (exec_ucLd_of_fenced hl.out ha ready hf) ?_
      rw [State.ucRefuse_of_load hl.here]
      exact (State.ucAnswer_loaded_of_register hr hl _).of_reports (State.reports_raise _ _ _ _)
  · have hu : exec (.ucData sp v false) s = done (s.ucAnswer sp a v false) := by
      simp [exec_ucData, execUcData, s.ucLoadOut_of_left hl.out hq]
    refine leaves_of_exec hu ⟨State.ucAnswer_loaded_of_window hr hl hq v, ?_⟩
    rw [State.ucAnswer_of_window hr hl hq, State.holdResp_gate _ (by simpa using hg)]
    simp [Spindle.endSerial]
  · refine leaves_of_exec (exec_refused s p) ?_
    rw [s.refused_of_lines hd hp fun g => ho g]
    exact (State.refuseSpindle_loaded (hr.with_fab _) (hl.with_fab _) hq p.src).of_sp rfl
  · refine leaves_of_exec (exec_guestUcTimeout_of_open s ho hc hp ht) ?_
    set t := s.modSite g fun x => { x with opens := x.opens.erase p, ended := x.ended ++ [p.tag] }
    have hg : t.site g = { s.site g with opens := [], ended := (s.site g).ended ++ [p.tag] } := by
      simp [t, ho]
    have hrt : t.Runs sp h := hr.with_fab _
    have hlt : t.Loads sp a n signed r (some q) := hl.with_fab _
    refine ⟨(State.refuseSpindle_loaded hrt hlt hq _).of_sp (s.modSite_sp _ _ _), ?_⟩
    rw [State.refuseSpindle_site hrt hlt hq _ (by rw [hg]), hg]
    simp
  · refine leaves_of_exec (exec_ucAck s sp) ?_
    rw [State.ucAck_of_left hr.stores hr.free hs hq, State.closeUc_home, State.holdResp_gate (s.modSp sp Spindle.endSerial) hg]
    simp [Spindle.endSerial]

/-! ### The serial-output gate (R187, R188) -/

/-- The offset of IV in the press and cipher page pg (R39, R394). -/
def ivOffset (pg : Fin 4096) : Nat := 0x3000000 + 0x1000 * pg.val + 0x18

theorem ivOffset_page (pg : Fin 4096) : ivOffset pg % 0x1000000 / 0x1000 = pg.val := by
  unfold ivOffset
  omega

theorem ivOffset_register (pg : Fin 4096) : ivOffset pg % 0x1000 = 0x18 := by
  unfold ivOffset
  omega

theorem ivOffset_bounds (pg : Fin 4096) : 0x3000000 ≤ ivOffset pg ∧ ivOffset pg ≤ 0x3FFFFFF := by
  unfold ivOffset
  omega

theorem between_of_mem {lo hi v : Nat} (h : lo ≤ v ∧ v ≤ hi) : between lo hi v = true := by
  simp [between, h]

theorem between_of_gt {lo hi v : Nat} (h : hi < v) : between lo hi v = false := by
  simp [between, h]

theorem between_of_lt {lo hi v : Nat} (h : v < lo) : between lo hi v = false := by
  simp [between, Nat.not_le.mpr h]

/-- IV lies in the range of the press and cipher pages, and in no other range of register space that takes stores (R39). -/
theorem between_iv (pg : Fin 4096) : between 0x10000 0x40FFF (ivOffset pg) = false ∧
    between 0x1000000 0x1FFFFFF (ivOffset pg) = false ∧ between 0x3000000 0x3FFFFFF (ivOffset pg) = true ∧
    between 0x100000000 0x1BFFFFFFF (ivOffset pg) = false := by
  have hb := ivOffset_bounds pg
  exact ⟨between_of_gt (by omega), between_of_gt (by omega), between_of_mem hb, between_of_lt (by omega)⟩

theorem State.addrKind_iv (pg : Fin 4096) : s.addrKind (regBase + ivOffset pg) = .register := by
  have hb := ivOffset_bounds pg
  have ho : regOffsetOk (ivOffset pg) = true := by
    have hm : between 0x1000000 0x3FFFFFF (ivOffset pg) = true := between_of_mem (by omega)
    simp [regOffsetOk, hm]
  unfold State.addrKind regEnd guestBase regBase
  rw [if_neg, if_neg, if_neg, if_neg, if_neg, if_pos, Nat.add_sub_cancel_left, if_pos ho] <;> omega

theorem regAccessOk_iv (pg : Fin 4096) : regAccessOk (regBase + ivOffset pg) 8 true = true := by
  obtain ⟨hmail, hsub, hpage, _⟩ := between_iv pg
  have ha : (regBase + ivOffset pg) % 8 = 0 := by
    unfold regBase ivOffset
    omega
  have hq : ivOffset pg % 4096 = 0x18 := ivOffset_register pg
  simp [regAccessOk, hmail, hsub, hpage, hq, ha]

theorem State.regFenced_iv (pg : Fin 4096) : s.regFenced (ivOffset pg) = none := by
  obtain ⟨_, _, _, hskein⟩ := between_iv pg
  simp [State.regFenced, skeinBlock, hskein]

/-- The tenant page with d in the 8 bytes of IV (R394). -/
def Tenant.withIv (t : Tenant) (d : BitVec 128) : Tenant :=
  { t with iv := (t.iv >>> 64).setWidth 64 ++ (d.setWidth 64 : Word) }

@[simp] theorem Tenant.withIv_pressCfg (t : Tenant) (d : BitVec 128) : (t.withIv d).pressCfg = t.pressCfg := rfl

theorem Tenant.withIv_iv (t : Tenant) (d : BitVec 128) : (t.withIv d).iv.setWidth 64 = d.setWidth 64 :=
  BitVec.setWidth_append_eq_right

/-- A store of 8 bytes to IV is performed at once. -/
theorem State.regStore_iv (i : Nat) (pg : Fin 4096) (d : BitVec 128) (tag : Bool) :
    s.regStore i (ivOffset pg) 8 d tag = (true, s.modTenant pg fun t => t.withIv d) := by
  obtain ⟨hmail, hsub, hpage, _⟩ := between_iv pg
  simp [State.regStore, hmail, hsub, hpage, ivOffset_page, ivOffset_register, State.pageStore, Tenant.withIv]

theorem exec_registerWrite_iv (sp : SpId) (pg : Fin 4096) (d : BitVec 128) (tag : Bool) :
    exec (.registerWrite { sp := sp, addr := regBase + ivOffset pg, size := 8, data := d, tag := tag }) s =
      done (s.modTenant pg fun t => t.withIv d) := by
  rw [exec_registerWrite]
  simp [execRegisterWrite, State.addrKind_iv, regAccessOk_iv, State.regStore_iv]

/-! What the gate does with an output that it has not yet accepted. -/

section
variable {s} {i : Nat} {q : Serial} {h : Place}

@[simp] theorem State.gateAccept_sp (s : State) (i : Nat) (q : Serial) :
    (s.gateAccept i q).sp i = { s.sp i with serial := some { q with sent := true, sentAt := s.time } } := State.modSp_sp _ _ _

@[simp] theorem State.gateAccept_seq (s : State) (i : Nat) (q : Serial) : (tget {} (s.gateAccept i q).home.gate i).seq = q.seq := by
  simp [State.gateAccept]

@[simp] theorem State.gateAccept_tenant (s : State) (i : Nat) (q : Serial) (pg : Nat) :
    (s.gateAccept i q).tenant pg = s.tenant pg := rfl
@[simp] theorem State.gateAccept_mem (s : State) (i : Nat) (q : Serial) : (s.gateAccept i q).mem = s.mem := rfl

/-- A store to a register that takes it is performed, acknowledged, and its number kept. -/
theorem State.gate_store {t : State} (hs : (s.sp i).serial = some q) (hu : q.sent = false) (hm : s.mayLeave i q = true)
    (hg : (tget {} s.home.gate i).seq ≠ q.seq) (hk : q.kind = .ucStore) (ha : s.addrKind q.addr = .register)
    (hf : s.regFenced (q.addr - regBase) = none)
    (ht : s.regStore i (q.addr - regBase) q.size (q.data.setWidth 128) q.tag = (true, t)) :
    s.gate i = (t.gateAccept i q).ucAck i := by
  unfold State.gate
  simp only [hs, hu, hm, hk, Bool.not_true, Bool.or_self, Bool.false_eq_true, if_false, if_neg hg]
  rw [if_neg (not_not_intro ha), hf]
  generalize s.regStore i (q.addr - regBase) q.size (q.data.setWidth 128) q.tag = w at ht ⊢
  subst ht
  rfl

/-- A load from a window leaves for it. -/
theorem State.gate_load (hs : (s.sp i).serial = some q) (hu : q.sent = false) (hm : s.mayLeave i q = true)
    (hg : (tget {} s.home.gate i).seq ≠ q.seq) (hk : q.kind = .ucLoad) : s.gate i = (s.gateAccept i q).sendUc i q true := by
  simp only [State.gate, hs, hu, hm, hk, Bool.not_true, Bool.or_self, Bool.false_eq_true, if_false, if_neg hg]

/-- The acknowledgement of a store that the gate has just accepted. -/
theorem State.ucAck_gateAccept (hst : (s.sp i).stores = []) (hf : (s.sp i).freezeReq = false) (hk : q.kind = .ucStore) :
    (s.gateAccept i q).ucAck i = (((s.gateAccept i q).modSp i Spindle.endSerial).holdResp i q.seq 0 false).closeUc i :=
  State.ucAck_of_left (s := s.gateAccept i q) (q := { q with sent := true, sentAt := s.time }) (a := q.addr)
    (by simp [hst]) (by simp [hf]) (by simp) ⟨hk, rfl, rfl⟩

/-- The access that the spindle has pending is the store of it. -/
theorem State.isPending_store {x : Uc} (hs : (s.sp x.sp).serial = some q) (hk : q.kind = .ucStore) (ha : q.addr = x.addr)
    (hn : q.size = x.size) (hd : q.data = x.data.setWidth 256) (ht : q.tag = x.tag) : s.isPending x .ucStore = true := by
  simp [State.isPending, hs, hk, ha, hn, hd, ht]

/-- UC_ST of the store that the spindle has pending brings it to the gate. -/
theorem exec_ucSt_of_pending {x : Uc} (hp : s.isPending x .ucStore = true) : exec (.ucSt x) s = done (s.gate x.sp) := by
  rw [exec_ucSt]
  simp [execUcSt, hp]

/-- The request that a site of a guest has open for an accepted load (R272). -/
theorem State.sendUc_guest {g : Nat} (hk : s.addrKind q.addr = .guest g) (ht : s.siteTakes g i = true) :
    ∃ p ∈ ((s.sendUc i q true).site g).opens, p.cmd = 0x28 ∧ p.line = lineOf q.addr ∧ p.lines = [i] := by
  simp only [State.sendUc, hk, ht, if_true, State.openGuest, State.modSite_site]
  exact ⟨_, List.mem_append_right _ (List.mem_singleton_self _), rfl, rfl, rfl⟩

theorem State.sendUc_guest_sp {g : Nat} (hk : s.addrKind q.addr = .guest g) (ht : s.siteTakes g i = true) :
    (s.sendUc i q true).sp i = s.sp i := by
  simp only [State.sendUc, hk, ht, if_true]
  rfl

/-- From s to u the low half of IV of page pg has become the low half of d, and neither the page's press configuration nor memory
has changed (R394). -/
def State.WritesIv (s u : State) (pg : Fin 4096) (d : BitVec 128) : Prop :=
  (u.tenant pg).iv.setWidth 64 = d.setWidth 64 ∧ (u.tenant pg).pressCfg = (s.tenant pg).pressCfg ∧ u.mem = s.mem

theorem State.writesIv_modTenant (s : State) (pg : Fin 4096) (d : BitVec 128) :
    s.WritesIv (s.modTenant pg fun t => t.withIv d) pg d := by
  simp [State.WritesIv, Tenant.withIv_iv]

/-- What the gate leaves of a store to IV that it had not yet accepted: the store performed once, and its output ended. -/
theorem State.gate_iv {pg : Fin 4096} {d : BitVec 128} (hr : s.Runs i h) (hs : (s.sp i).serial = some q) (hu : q.sent = false)
    (hm : s.mayLeave i q = true) (hg : (tget {} s.home.gate i).seq ≠ q.seq) (hk : q.kind = .ucStore)
    (ha : q.addr = regBase + ivOffset pg) (hn : q.size = 8) (hd : q.data = d.setWidth 256) :
    s.WritesIv (s.gate i) pg d ∧ ((s.gate i).sp i).serial = (s.sp i).serialNext.head? ∧
      (tget {} (s.gate i).home.gate i).seq = q.seq ∧ (tget {} (s.gate i).home.gate i).done = true := by
  have ho : q.addr - regBase = ivOffset pg := by rw [ha, Nat.add_sub_cancel_left]
  have hd' : q.data.setWidth 128 = d := by simp [hd]
  have ht : s.regStore i (q.addr - regBase) q.size (q.data.setWidth 128) q.tag = (true, s.modTenant pg fun t => t.withIv d) := by
    rw [ho, hn, hd', State.regStore_iv]
  have hw := s.writesIv_modTenant pg d
  rw [State.gate_store hs hu hm hg hk (by rw [ha, s.addrKind_iv]) (by rw [ho, s.regFenced_iv]) ht]
  generalize hv : (s.modTenant pg fun t => t.withIv d) = v at hw ⊢
  have hv_sp : v.sp i = s.sp i := by rw [← hv, State.modTenant_sp]
  have hend := State.ucAck_gateAccept (s := v) (q := q) (by rw [hv_sp, hr.stores]) (by rw [hv_sp, hr.free]) hk
  rw [hend]
  refine ⟨by simpa [State.WritesIv] using hw, by simp [Spindle.endSerial, hv_sp], ?_⟩
  rw [State.closeUc_home, State.holdResp_gate ((v.gateAccept i q).modSp i Spindle.endSerial) (v.gateAccept_seq i q)]
  exact ⟨rfl, rfl⟩

end

/-- Settles O13: the gate performs the store to IV, or sends the load to its site, and keeps the output's number. -/
theorem serialOutputIsPerformedOnce : Obligations.SerialOutputIsPerformedOnce := by
  intro sp pg d s h hr a x written
  have ha : a = regBase + ivOffset pg := by
    simp only [a, ivOffset]
    omega
  clear_value a
  subst ha
  refine ⟨leaves_of_exec (exec_registerWrite_iv s sp pg d false) (s.writesIv_modTenant pg d), fun q hs hu hm hg =>
    ⟨fun hk hqa hn hd ht => ?_, fun g hk hw ht => ?_⟩⟩
  · have once := State.gate_iv hr hs hu hm hg hk hqa hn hd
    have hp : s.isPending x .ucStore = true := State.isPending_store hs hk hqa hn hd ht
    exact ⟨leaves_of_exec (exec_ucSt_of_pending hp) once, leaves_of_exec (exec_serialOutputGate s sp) once⟩
  · refine leaves_of_exec (exec_serialOutputGate s sp) ?_
    rw [State.gate_load hs hu hm hg hk]
    have hw' : (s.gateAccept sp q).addrKind q.addr = .guest g := hw
    have ht' : (s.gateAccept sp q).siteTakes g sp = true := ht
    exact ⟨by rw [State.sendUc_guest_sp hw' ht', State.gateAccept_sp], State.sendUc_guest hw' ht'⟩

end Sys2Proof.Machine

/-!
PROOFS. A bundle's encoding and its decoding agree (R42, R44 to R46, R49, R523).
-/

namespace Sys2Proof.Machine

/-! ### A slot (R45, R46) -/

theorem bitAt_eq_decide (v k : Nat) : bitAt v k = decide (v / 2 ^ k % 2 = 1) := Nat.testBit_eq_decide_div_mod_eq

theorem b2n_lt (b : Bool) : b2n b < 2 := by
  cases b <;> decide

/-- A field of one bit read back. -/
theorem decide_b2n (b : Bool) : decide (b2n b = 1) = b := by
  cases b <;> rfl

section
variable {m : Move}

theorem encodeSlot_of_imm (hi : m.imm = true) : encodeSlot m = m.guard * 2 ^ 38 + 2 ^ 37 + m.dst * 2 ^ 26 + m.immV := by
  simp [encodeSlot, hi]

theorem encodeSlot_of_source (hi : m.imm = false) :
    encodeSlot m = m.guard * 2 ^ 38 + m.dst * 2 ^ 26 + m.src * 2 ^ 15 + b2n m.neg * 2 ^ 14 + b2n m.pair * 2 ^ 13 + m.mod := by
  simp [encodeSlot, hi]

theorem encodeSlot_lt (h : m.Fits) : encodeSlot m < 2 ^ 42 := by
  obtain ⟨hguard, hdst, hsrc, hmod, himm, -, -⟩ := h
  have hneg := b2n_lt m.neg
  have hpair := b2n_lt m.pair
  cases hi : m.imm with
  | true => rw [encodeSlot_of_imm hi]; omega
  | false => rw [encodeSlot_of_source hi]; omega

theorem decodeSlot_encodeSlot_of_imm (h : m.Fits) (hi : m.imm = true) : decodeSlot m.slot (encodeSlot m) = m := by
  obtain ⟨hguard, hdst, -, -, himm, hzero, -⟩ := h
  obtain ⟨hneg, hpair, hsrc, hmod⟩ := hzero hi
  rw [encodeSlot_of_imm hi]
  have kind : bitAt (m.guard * 2 ^ 38 + 2 ^ 37 + m.dst * 2 ^ 26 + m.immV) 37 = true := by
    rw [bitAt_eq_decide, decide_eq_true_eq]; omega
  have guard : bits (m.guard * 2 ^ 38 + 2 ^ 37 + m.dst * 2 ^ 26 + m.immV) 38 4 = m.guard := by unfold bits; omega
  have dst : bits (m.guard * 2 ^ 38 + 2 ^ 37 + m.dst * 2 ^ 26 + m.immV) 26 11 = m.dst := by unfold bits; omega
  have immV : bits (m.guard * 2 ^ 38 + 2 ^ 37 + m.dst * 2 ^ 26 + m.immV) 0 26 = m.immV := by unfold bits; omega
  rw [decodeSlot, if_pos kind, guard, dst, immV]
  cases m
  simp_all

theorem decodeSlot_encodeSlot_of_source (h : m.Fits) (hi : m.imm = false) : decodeSlot m.slot (encodeSlot m) = m := by
  obtain ⟨hguard, hdst, hsrc, hmod, -, -, hzero⟩ := h
  have himm := hzero hi
  have hneg := b2n_lt m.neg
  have hpair := b2n_lt m.pair
  generalize hv : encodeSlot m = v
  rw [encodeSlot_of_source hi] at hv
  have kind : ¬ bitAt v 37 = true := by
    rw [bitAt_eq_decide, decide_eq_true_eq]; omega
  have neg : bitAt v 14 = m.neg := by
    rw [bitAt_eq_decide, show v / 2 ^ 14 % 2 = b2n m.neg by omega, decide_b2n]
  have pair : bitAt v 13 = m.pair := by
    rw [bitAt_eq_decide, show v / 2 ^ 13 % 2 = b2n m.pair by omega, decide_b2n]
  have guard : bits v 38 4 = m.guard := by unfold bits; omega
  have dst : bits v 26 11 = m.dst := by unfold bits; omega
  have src : bits v 15 11 = m.src := by unfold bits; omega
  have mod : bits v 0 13 = m.mod := by unfold bits; omega
  rw [decodeSlot, if_neg kind, neg, pair, guard, dst, src, mod]
  cases m
  simp_all

/-- A move whose fields fit decodes from its slot. -/
theorem decodeSlot_encodeSlot (h : m.Fits) : decodeSlot m.slot (encodeSlot m) = m := by
  cases hi : m.imm with
  | true => exact decodeSlot_encodeSlot_of_imm h hi
  | false => exact decodeSlot_encodeSlot_of_source h hi

end

/-- No bit of a slot is dropped. -/
theorem encodeSlot_injective {x y : Move} (hx : x.Fits) (hy : y.Fits) (hs : x.slot = y.slot) (he : encodeSlot x = encodeSlot y) :
    x = y := by
  rw [← decodeSlot_encodeSlot hx, hs, he, decodeSlot_encodeSlot hy]

/-! ### A bundle (R42, R44) -/

section
variable {k v0 v1 v2 : Nat} (hk : k < 4) (h0 : v0 < 2 ^ 42) (h1 : v1 < 2 ^ 42) (h2 : v2 < 2 ^ 42)
include hk h0 h1 h2

theorem encodeBundle_lt : encodeBundle k v0 v1 v2 < 2 ^ 128 := by
  unfold encodeBundle; omega

theorem bundleKind_encodeBundle : bundleKind (encodeBundle k v0 v1 v2) = k := by
  unfold bundleKind bits encodeBundle; omega

omit hk in
theorem slotBits_encodeBundle :
    slotBits (encodeBundle k v0 v1 v2) 0 = v0 ∧ slotBits (encodeBundle k v0 v1 v2) 1 = v1 ∧
      slotBits (encodeBundle k v0 v1 v2) 2 = v2 := by
  unfold slotBits bits encodeBundle; omega

end

/-- The slots of a normal bundle that are no all-zero slot, decoded. -/
theorem bundleMoves_of_normal {b : Nat} (hb : bundleKind b = 0) :
    bundleMoves b = [0, 1, 2].filterMap fun k => if slotBits b k = 0 then none else some (decodeSlot k (slotBits b k)) := by
  simp [bundleMoves, hb]

/-- Slot k, decoded, where it holds the encoding of a move that fits. -/
theorem decodeSlot_of_slotBits {b k : Nat} {m : Move} (h : m.Fits) (hs : m.slot = k) (hb : slotBits b k = encodeSlot m) :
    (if slotBits b k = 0 then none else some (decodeSlot k (slotBits b k))) = if encodeSlot m != 0 then some m else none := by
  subst hs
  rw [hb, decodeSlot_encodeSlot h]
  by_cases hz : encodeSlot m = 0 <;> simp [hz]

/-- A normal bundle whose slots hold the encodings of three moves that fit. -/
theorem bundleMoves_of_slots {b : Nat} {x y z : Move} (hb : bundleKind b = 0) (hx : x.Fits ∧ x.slot = 0) (hy : y.Fits ∧ y.slot = 1)
    (hz : z.Fits ∧ z.slot = 2) (h0 : slotBits b 0 = encodeSlot x) (h1 : slotBits b 1 = encodeSlot y)
    (h2 : slotBits b 2 = encodeSlot z) : bundleMoves b = [x, y, z].filter fun m => encodeSlot m != 0 := by
  rw [bundleMoves_of_normal hb, ← List.filterMap_eq_filter]
  simp only [List.filterMap_cons, List.filterMap_nil, decodeSlot_of_slotBits hx.1 hx.2 h0, decodeSlot_of_slotBits hy.1 hy.2 h1,
    decodeSlot_of_slotBits hz.1 hz.2 h2, Option.guard]

/-- A long-immediate bundle holds bits 41 to 0 of its immediate in slot 1, and the rest in slot 2 (R49). -/
theorem longImm_of_slots {b n : Nat} (hn : n < 2 ^ 64) (hk : bundleKind b = 1) (h1 : slotBits b 1 = n % 2 ^ 42)
    (h2 : slotBits b 2 = n / 2 ^ 42) : longImm b = some (BitVec.ofNat 64 n) := by
  have sum : n % 2 ^ 42 + bits (n / 2 ^ 42) 0 22 * 2 ^ 42 = n := by unfold bits; omega
  rw [longImm, if_pos hk, h1, h2, sum]

/-- Settles O45: each field of a slot, and each slot of a bundle, is read where it was written. -/
theorem bundleDecodesAsEncoded : Obligations.BundleDecodesAsEncoded := by
  refine ⟨fun m hm => ?_, fun x v hx _ => ?_, fun x y hx hy => encodeSlot_injective hx hy⟩
  · have fit0 := hm 0 (by omega)
    have fit1 := hm 1 (by omega)
    have fit2 := hm 2 (by omega)
    have lt0 := encodeSlot_lt fit0.1
    have lt1 := encodeSlot_lt fit1.1
    have lt2 := encodeSlot_lt fit2.1
    have kind := bundleKind_encodeBundle (k := 0) (by omega) lt0 lt1 lt2
    obtain ⟨slot0, slot1, slot2⟩ := slotBits_encodeBundle (k := 0) lt0 lt1 lt2
    exact ⟨encodeBundle_lt (by omega) lt0 lt1 lt2, kind, bundleMoves_of_slots kind fit0 fit1 fit2 slot0 slot1 slot2⟩
  · have lt0 := encodeSlot_lt hx
    have hv := v.isLt
    have lt1 : v.toNat % 2 ^ 42 < 2 ^ 42 := Nat.mod_lt _ (by norm_num)
    have lt2 : v.toNat / 2 ^ 42 < 2 ^ 42 := by omega
    have kind := bundleKind_encodeBundle (k := 1) (by omega) lt0 lt1 lt2
    obtain ⟨slot0, slot1, slot2⟩ := slotBits_encodeBundle (k := 1) lt0 lt1 lt2
    refine ⟨encodeBundle_lt (by omega) lt0 lt1 lt2, kind, ?_, slot0⟩
    rw [longImm_of_slots hv kind slot1 slot2, BitVec.ofNat_toNat, BitVec.setWidth_eq]

end Sys2Proof.Machine

/-!
PROOFS. What a pending resume and a result that waits in its unit do to three of the claims (R60, R76, R140): concrete spindles that
the claims leave out.
-/

namespace Sys2Proof.Machine

/-- A running reel with x as its spindle 0, which ply 0 of skein 0 hosts. -/
def lonelyReel (x : Spindle) : State :=
  { life := .run,
    cores := { spindles := [(0, x)], plies := [(0, { state := 0, step := 0 })], skeins := [(0, { present := true })] } }

/-! ### A resume that the bundle at BA does not take up (R140) -/

/-- A spindle at a bundle boundary with one byte of a long operation recorded, which its next bundle is to resume. -/
def resumingSpindle : Spindle :=
  { host := some ⟨0, 0, 0⟩, released := true, resume := true, arch := { progress := { done := 1 } } }

theorem ready_resumingSpindle : (lonelyReel resumingSpindle).Ready 0 ⟨0, 0, 0⟩ where
  issues := by decide +kernel
  place := rfl
  calm := by decide +kernel
  ops := rfl
  stores := rfl
  serial := rfl
  arith := rfl
  loose := rfl
  quiet := rfl

/-- A command whose answer is `done u`, where u has nothing queued, leaves u and no other state. -/
theorem next_of_exec {c : Instr} {s u t : State} (h : exec c s = done u) (hq : u.faults.todo = []) (ht : exec c s = .next t) : t = u := by
  rw [h, done_of_quiet u hq] at ht
  exact (Host.Outcome.next.inj ht).symm

/-- Refutes O1: an ADD issued in place of the bundle that was to resume a long operation drops the record of it (R140), where the claim
keeps every register but operand 0. -/
theorem not_computeTriggerStartsItsOperation : ¬ Obligations.ComputeTriggerStartsItsOperation := by
  intro claim
  obtain ⟨t, next, claimed, -⟩ := claim (.add 0 0 0) 0 { u := 0, sock := 4, a := ofWord 0 } _ _ rfl (Or.inl (by decide)) rfl rfl
    ready_resumingSpindle
  rw [next_of_exec rfl (by decide +kernel) next] at claimed
  have dropped := congrArg (fun x => x.arch.progress.done) claimed
  revert dropped
  decide +kernel

/-- Refutes O49: a BR issued in place of the bundle that was to resume a long operation drops the record of it (R140), where the claim
keeps every register but operand 0. -/
theorem not_transfersAndLoopsOfReadySpindle : ¬ Obligations.TransfersAndLoopsOfReadySpindle := by
  rintro ⟨claim, -⟩
  obtain ⟨⟨t, next, claimed, -⟩, -⟩ := claim 0 0 _ _ ready_resumingSpindle
  rw [next_of_exec rfl (by decide +kernel) next] at claimed
  have dropped := congrArg (fun x => x.arch.progress.done) claimed
  revert dropped
  decide +kernel

/-! ### An answer that is not the oldest result of its unit (R60, R76) -/

/-- A request of unit 80 that a guest has been sent, and the packet that is open for it. -/
def openRequest : OpRec := { unit := 80, trig := 4, kind := .answer 0 0 false 0 }
def openPacket : Packet := { cmd := 0x2C, line := 0, aux := 80 * 16 + 4 }

/-- A spindle whose unit 80 has a result that is known and not yet entered, and after it the request; the packet is open at site 0. -/
def answeredReel : State :=
  (lonelyReel { host := some ⟨0, 0, 0⟩, released := true, ops := [{ unit := 80 }, openRequest] }).modSite 0 fun x =>
    { x with opens := [openPacket] }

theorem runs_answeredReel : answeredReel.Runs 0 ⟨0, 0, 0⟩ where
  data := by decide +kernel
  place := rfl
  stores := rfl
  free := rfl
  quiet := rfl

/-- Refutes O50: the answer of a guest waits behind the earlier result of its unit, so that the unit completes in trigger order (R60);
both operations stay in flight, where the claim takes the request off. -/
theorem not_operationsDeliverTheirResults : ¬ Obligations.OperationsDeliverTheirResults := by
  rintro ⟨-, -, claim⟩
  obtain ⟨answered, -⟩ := claim 0 0 _ _ openRequest 0 openPacket runs_answeredReel (by decide +kernel) (by decide +kernel)
  obtain ⟨t, next, -, claimed, -⟩ := answered 0
  rw [next_of_exec rfl (by decide +kernel) next] at claimed
  have waits := congrArg List.length claimed
  revert waits
  decide +kernel

end Sys2Proof.Machine

/-!
PROOFS. What an access of a skein's own lines changes: an access that hits moves nothing but the marks of the caches (R213, R215, R217),
and a write changes the value of its line alone (R182, R216, R243).
-/

namespace Sys2Proof.Machine

/-! ### Lines of a skein -/

section
variable (s : State)

@[simp] theorem State.skl_modPly (k p : Nat) (f : Ply → Ply) (j m : Nat) : (s.modPly k p f).skl j m = s.skl j m := rfl
@[simp] theorem State.skl_send (q : Packet) (j m : Nat) : (s.send q).skl j m = s.skl j m := rfl
@[simp] theorem State.skl_setSp (i : Nat) (x : Spindle) (j m : Nat) : (s.setSp i x).skl j m = s.skl j m := rfl
@[simp] theorem State.skl_modSp (i : Nat) (f : Spindle → Spindle) (j m : Nat) : (s.modSp i f).skl j m = s.skl j m := rfl

theorem State.sk_of_modSk {j k : Nat} (f : Skein → Skein) : (s.modSk k f).sk j = if j = k then f (s.sk k) else s.sk j := by
  split
  · next h => rw [h, State.modSk_sk]
  · next h => exact s.modSk_sk_other f h

/-- A change of a skein that keeps its lines. -/
theorem State.skl_modSk {k : Nat} {f : Skein → Skein} (h : (f (s.sk k)).lines = (s.sk k).lines) (j m : Nat) :
    (s.modSk k f).skl j m = s.skl j m := by
  simp only [State.skl, State.sk_of_modSk]
  split
  · next hj => rw [h, hj]
  · rfl

@[simp] theorem State.skl_modSkl (k l : Nat) (f : SkLine → SkLine) : (s.modSkl k l f).skl k l = f (s.skl k l) := by
  simp [State.skl, State.modSkl, State.setSkl]

theorem State.skl_modSkl_other {k l j m : Nat} (f : SkLine → SkLine) (h : j ≠ k ∨ m ≠ l) : (s.modSkl k l f).skl j m = s.skl j m := by
  simp only [State.skl, State.modSkl, State.setSkl, State.sk_of_modSk]
  split
  · next hj =>
    subst hj
    exact tget_tset_other _ _ _ (h.resolve_left fun hk => hk rfl)
  · rfl

theorem State.l2Up_modPly {k p : Nat} {f : Ply → Ply} (h : (f (s.ply k p)).l2State = (s.ply k p).l2State) (j q : Nat) :
    (s.modPly k p f).l2Up j q = s.l2Up j q := by
  simp only [State.l2Up, State.ply, State.modPly, tmod, tget_tset] at h ⊢
  split
  · next hj => rw [h, hj]
  · rfl

end

/-! ### Changes within a skein -/

/-- From s to t nothing has changed but skein k, plies whose L2s go on serving or not as before, packets under way, and the MODEL's
counter of free values. -/
structure State.InSkein (s t : State) (k : Nat) : Prop where
  rest : t = { s with
    cores := { s.cores with plies := t.cores.plies, skeins := t.cores.skeins }, fab := t.fab, freeCtr := t.freeCtr }
  other : ∀ j, j ≠ k → t.sk j = s.sk j
  up : ∀ j p, t.l2Up j p = s.l2Up j p

namespace State.InSkein

variable {s t u : State} {k : Nat}

theorem refl (s : State) (k : Nat) : s.InSkein s k := ⟨rfl, fun _ _ => rfl, fun _ _ => rfl⟩

theorem trans (h : s.InSkein t k) (g : t.InSkein u k) : s.InSkein u k where
  rest := g.rest.trans (by rw [h.rest])
  other j hj := (g.other j hj).trans (h.other j hj)
  up j p := (g.up j p).trans (h.up j p)

theorem sp (h : s.InSkein t k) (i : Nat) : t.sp i = s.sp i := by rw [h.rest]; rfl
theorem faults (h : s.InSkein t k) : t.faults = s.faults := by rw [h.rest]
theorem params (h : s.InSkein t k) : t.params = s.params := by rw [h.rest]
theorem sameOutside (h : s.InSkein t k) : s.SameOutside t := by
  rw [h.rest]
  simp [State.SameOutside]

end State.InSkein

/-- As InSkein, and of the skein's lines no other than l has changed. -/
structure State.AtLine (s t : State) (k l : Nat) : Prop extends s.InSkein t k where
  lines : ∀ m, m ≠ l → t.skl k m = s.skl k m

/-- As InSkein, and of the skein only its lines have changed, of each of which only the marks of hits and of L1 presence. -/
structure State.Touches (s t : State) (k : Nat) : Prop extends s.InSkein t k where
  skein : ∃ ls, t.sk k = { s.sk k with lines := ls }
  line : ∀ m, ∃ hit l1d l1i, t.skl k m = { s.skl k m with hit := hit, l1d := l1d, l1i := l1i }

section
variable (s : State) (k : Nat)

theorem State.inSkein_modSk (f : Skein → Skein) : s.InSkein (s.modSk k f) k :=
  ⟨rfl, fun _ hj => s.modSk_sk_other f hj, fun _ _ => rfl⟩

theorem State.inSkein_modPly {j p : Nat} {f : Ply → Ply} (h : (f (s.ply j p)).l2State = (s.ply j p).l2State) :
    s.InSkein (s.modPly j p f) k := ⟨rfl, fun _ _ => rfl, s.l2Up_modPly h⟩

theorem State.inSkein_freeCtr (n : Nat) : s.InSkein { s with freeCtr := n } k := ⟨rfl, fun _ _ => rfl, fun _ _ => rfl⟩
theorem State.inSkein_send (q : Packet) : s.InSkein (s.send q) k := ⟨rfl, fun _ _ => rfl, fun _ _ => rfl⟩

end

namespace State.AtLine

variable {s t u : State} {k l : Nat}

theorem refl (s : State) (k l : Nat) : s.AtLine s k l := ⟨.refl s k, fun _ _ => rfl⟩

theorem trans (h : s.AtLine t k l) (g : t.AtLine u k l) : s.AtLine u k l :=
  ⟨h.toInSkein.trans g.toInSkein, fun m hm => (g.lines m hm).trans (h.lines m hm)⟩

theorem ite {c : Prop} [Decidable c] (ht : s.AtLine t k l) (hu : s.AtLine u k l) : s.AtLine (if c then t else u) k l := by
  split
  · exact ht
  · exact hu

end State.AtLine

namespace State.Touches

variable {s t u : State} {k : Nat}

theorem refl (s : State) (k : Nat) : s.Touches s k := ⟨.refl s k, ⟨_, rfl⟩, fun _ => ⟨_, _, _, rfl⟩⟩

theorem trans (h : s.Touches t k) (g : t.Touches u k) : s.Touches u k where
  toInSkein := h.toInSkein.trans g.toInSkein
  skein := by
    obtain ⟨ls, hs⟩ := h.skein
    obtain ⟨ls', gs⟩ := g.skein
    exact ⟨ls', by rw [gs, hs]⟩
  line m := by
    obtain ⟨_, _, _, hl⟩ := h.line m
    obtain ⟨a, b, c, gl⟩ := g.line m
    exact ⟨a, b, c, by rw [gl, hl]⟩

theorem val (h : s.Touches t k) (m : Nat) : (t.skl k m).val = (s.skl k m).val := by
  obtain ⟨_, _, _, e⟩ := h.line m
  rw [e]
theorem own (h : s.Touches t k) (m : Nat) : (t.skl k m).own = (s.skl k m).own := by
  obtain ⟨_, _, _, e⟩ := h.line m
  rw [e]
theorem l2 (h : s.Touches t k) (m : Nat) : (t.skl k m).l2 = (s.skl k m).l2 := by
  obtain ⟨_, _, _, e⟩ := h.line m
  rw [e]
theorem stalled (h : s.Touches t k) (m : Nat) : (t.skl k m).stalled = (s.skl k m).stalled := by
  obtain ⟨_, _, _, e⟩ := h.line m
  rw [e]
  rfl

end State.Touches

section
variable (s : State) (k : Nat)

theorem State.touches_modPly {j p : Nat} {f : Ply → Ply} (h : (f (s.ply j p)).l2State = (s.ply j p).l2State) :
    s.Touches (s.modPly j p f) k := ⟨s.inSkein_modPly k h, ⟨_, rfl⟩, fun _ => ⟨_, _, _, rfl⟩⟩

theorem State.touches_modSkl {l : Nat} {f : SkLine → SkLine}
    (h : ∃ hit l1d l1i, f (s.skl k l) = { s.skl k l with hit := hit, l1d := l1d, l1i := l1i }) : s.Touches (s.modSkl k l f) k where
  toInSkein := s.inSkein_modSk k _
  skein := ⟨_, s.modSk_sk k _⟩
  line m := by
    by_cases hm : m = l
    · subst hm
      rwa [State.skl_modSkl]
    · exact ⟨_, _, _, s.skl_modSkl_other f (.inr hm)⟩

/-- The L1 marks of a line. -/
theorem State.touches_setL1 (l p f : Nat) (fetch v : Bool) : s.Touches (s.modSkl k l fun x => x.setL1 p f fetch v) k := by
  refine s.touches_modSkl k ?_
  cases fetch <;> exact ⟨_, _, _, rfl⟩

/-! ### An access that hits (R213, R215, R217, R235) -/

theorem State.touches_l1Use (p f l : Nat) (fetch : Bool) : s.Touches (s.l1Use k p f l fetch) k := by
  unfold State.l1Use
  extract_lets c y way live tree w s1
  have h1 : s.Touches s1 k := by
    unfold s1
    split
    · exact s.touches_setL1 k _ p f fetch false
    · exact .refl s k
  exact (h1.trans (s1.touches_modPly k rfl)).trans (State.touches_setL1 _ k l p f fetch true)

theorem State.touches_l1Fill (p f l : Nat) (fetch : Bool) : s.Touches (s.l1Fill k p f l fetch) k := by
  unfold State.l1Fill
  split
  · exact .refl s k
  · split
    · exact s.touches_l1Use k p f l fetch
    · exact (s.touches_l1Use k p 0 l fetch).trans (State.touches_l1Use _ k p 1 l fetch)

end

section
variable {s : State} {k p l : Nat}

/-- A line that the ply's L2 has need not be brought there. -/
theorem State.bring_of_l2 (h : (s.skl k l).l2.getLsbD p = true) : ∃ t, s.bring k p l = some t ∧ s.Touches t k := by
  unfold State.bring
  rw [if_pos h]
  extract_lets y
  split
  · extract_lets j
    split
    · exact ⟨_, rfl, s.touches_modPly k rfl⟩
    · exact ⟨_, rfl, (s.touches_modPly k rfl).trans (State.touches_modSkl _ k ⟨_, _, _, rfl⟩)⟩
  · exact ⟨s, rfl, .refl s k⟩

theorem SkLine.held_of_l2 {x : SkLine} (h : x.l2.getLsbD p = true) : x.held = true := by
  have hl : x.l2 ≠ 0#20 := by
    rintro h0
    simp [h0] at h
  simp [SkLine.held, hl]

theorem State.noteMiss_of_l2 {h : Place} (hl : (s.skl h.skein l).l2.getLsbD h.ply = true) : s.noteMiss h l = s := by
  simp only [State.noteMiss, hl, if_true]

/-- A read of a line that is in the ply's L2 is served. -/
theorem State.wantShared_of_l2 {h : Place} (hl : (s.skl h.skein l).l2.getLsbD h.ply = true) (fetch : Bool) :
    ∃ t, s.wantShared h l fetch = (true, t) ∧ s.Touches t h.skein := by
  unfold State.wantShared
  extract_lets x
  rw [if_pos (SkLine.held_of_l2 hl)]
  split
  · exact ⟨_, rfl, s.touches_l1Fill _ _ _ _ _⟩
  · obtain ⟨t, ht, touches⟩ := State.bring_of_l2 hl
    rw [State.noteMiss_of_l2 hl, ht]
    exact ⟨_, rfl, touches.trans (t.touches_l1Fill _ _ _ _ _)⟩

/-- A write of a line that is in the ply's L2 and the skein's own is let through. -/
theorem State.wantOwned_of_l2 {h : Place} (hl : (s.skl h.skein l).l2.getLsbD h.ply = true) (up : s.l2Up h.skein h.ply = true)
    (own : (s.skl h.skein l).own ≠ .shared) (free : (s.skl h.skein l).stalled = false) :
    ∃ t, s.wantOwned h l = (true, t) ∧ s.Touches t h.skein := by
  obtain ⟨t, ht, touches⟩ := State.bring_of_l2 hl
  refine ⟨t, ?_, touches⟩
  simp [State.wantOwned, SkLine.held_of_l2 hl, own, free, State.noteMiss_of_l2 hl, State.bringWrite, up, ht]

/-! ### A write of an owned line (R182, R215, R216, R243) -/

theorem State.atLine_modSkl (s : State) (k l : Nat) (f : SkLine → SkLine) : s.AtLine (s.modSkl k l f) k l :=
  ⟨s.inSkein_modSk k _, fun _ hm => s.skl_modSkl_other f (.inr hm)⟩

theorem State.atLine_modPly (s : State) (k l : Nat) {j q : Nat} {f : Ply → Ply} (h : (f (s.ply j q)).l2State = (s.ply j q).l2State) :
    s.AtLine (s.modPly j q f) k l := ⟨s.inSkein_modPly k h, fun _ _ => rfl⟩

theorem State.atLine_modSk (s : State) (k l : Nat) {f : Skein → Skein} (h : (f (s.sk k)).lines = (s.sk k).lines) :
    s.AtLine (s.modSk k f) k l := ⟨s.inSkein_modSk k f, fun m _ => s.skl_modSk h k m⟩

theorem State.atLine_send (s : State) (k l : Nat) (q : Packet) : s.AtLine (s.send q) k l := ⟨s.inSkein_send k q, fun _ _ => rfl⟩

theorem State.atLine_l2Drop (s : State) (k q l : Nat) : s.AtLine (s.l2Drop k q l) k l :=
  (s.atLine_modSkl k l _).trans (State.atLine_modPly _ k l rfl)

theorem State.atLine_sbDrop (s : State) (k q l : Nat) : s.AtLine (s.sbDrop k q l) k l :=
  (s.atLine_modSkl k l _).trans (State.atLine_modPly _ k l rfl)

theorem State.atLine_l3Drop (s : State) (k l : Nat) : s.AtLine (s.l3Drop k l) k l :=
  (s.atLine_modSkl k l _).trans (State.atLine_modSk _ k l rfl)

theorem State.atLine_l3AfterHit (s : State) (k q l : Nat) : s.AtLine (s.l3AfterHit k q l) k l :=
  .ite (.refl s k l) (.ite (s.atLine_l3Drop k l) (s.atLine_modSk k l rfl))

/-- What every step of a fold does to line l alone, the fold does. -/
theorem State.atLine_foldS {β : Type} (s : State) (k l : Nat) (xs : List β) {f : β → State → State} (h : ∀ x (t : State), t.AtLine (f x t) k l) :
    s.AtLine (foldS xs f s) k l :=
  foldS_ind (fun t => s.AtLine t k l) f (fun x t ht => ht.trans (h x t)) xs s (.refl s k l)

/-- A write changes its own line alone, whose value becomes v. -/
theorem State.writeOwned_of_up (up : s.l2Up k p = true) (v : LineVal) :
    s.AtLine (s.writeOwned k p l v) k l ∧ ((s.writeOwned k p l v).skl k l).val = v := by
  unfold State.writeOwned
  extract_lets x up' s1 s2 s3 loose s4 s5 n s6
  have h1 : s.AtLine s1 k l := s.atLine_foldS k l _ fun q t => t.atLine_l2Drop k q l
  have h2 : s.AtLine s2 k l := h1.trans (s1.atLine_foldS k l _ fun q t => t.atLine_sbDrop k q l)
  have h3 : s.AtLine s3 k l := .ite (h2.trans (s2.atLine_l3AfterHit k p l)) h2
  have h4 : s.AtLine s4 k l := h3.trans (s3.atLine_modSkl k l _)
  have v4 : (s4.skl k l).val = v := by
    unfold s4
    rw [State.skl_modSkl]
  have h5 : s.AtLine s5 k l := .ite (h4.trans (s4.atLine_send k l _)) h4
  have v5 : (s5.skl k l).val = v := by
    unfold s5
    split <;> exact v4
  have h6 : s.AtLine s6 k l := .ite h5 (h5.trans (s5.atLine_modSk k l rfl))
  have v6 : (s6.skl k l).val = v := by
    unfold s6
    split
    · exact v5
    · rw [s5.skl_modSk rfl]
      exact v5
  rw [if_pos up]
  exact ⟨h6, v6⟩

end

end Sys2Proof.Machine

/-!
PROOFS. Long operations between two progress points and at their end (R65, R72, R97, R139, R522).
-/

namespace Sys2Proof.Machine

/-! ### Bytes of a line (R114) -/

/-- Byte q of a line after a write of n bytes at offset o that covers it. -/
theorem lineGet_linePut {v : LineVal} {o n q : Nat} (x : Nat) (hq : o ≤ q ∧ q < o + n) (hn : o + n ≤ 128) :
    lineGet (linePut v o n x) q 1 = x / 2 ^ (8 * (q - o)) % 256 := by
  apply Nat.eq_of_testBit_eq
  intro i
  have h256 : (256 : Nat) = 2 ^ 8 := rfl
  simp only [lineGet, linePut, h256, Nat.mul_one, Nat.testBit_mod_two_pow, Nat.testBit_div_two_pow, BitVec.testBit_toNat]
  by_cases hi : i < 8
  · have hb : 8 * q + i < 1024 := by omega
    have ho : 8 * o ≤ 8 * q + i := by omega
    have hr : 8 * (q - o) + i < 8 * n := by omega
    have he : 8 * q + i - 8 * o = 8 * (q - o) + i := by omega
    rw [Nat.add_comm i, Nat.add_comm i]
    simp only [BitVec.getLsbD_or, BitVec.getLsbD_and, BitVec.getLsbD_not, BitVec.getLsbD_ofNat, Nat.testBit_mul_two_pow,
      Nat.testBit_two_pow_sub_one, Nat.testBit_mod_two_pow, hi, hb, ho, hr, he, decide_true, Bool.true_and, Bool.not_true, Bool.and_false,
      Bool.false_or]
  · simp [hi]

/-- Byte j of n bytes that are all b. -/
theorem leNat_replicate {b : Nat} (hb : b < 256) : ∀ (n j : Nat), j < n → leNat (List.replicate n b) / 2 ^ (8 * j) % 256 = b
  | n + 1, 0, _ => by
    show (b + 256 * leNat (List.replicate n b)) / 1 % 256 = b
    omega
  | n + 1, j + 1, h => by
    have ih := leNat_replicate hb n j (by omega)
    have hs : (b + 256 * leNat (List.replicate n b)) / 256 = leNat (List.replicate n b) := by omega
    show (b + 256 * leNat (List.replicate n b)) / 2 ^ (8 * (j + 1)) % 256 = b
    rwa [Nat.mul_add, Nat.pow_add, Nat.mul_comm (2 ^ (8 * j)), ← Nat.div_div_eq_div_mul, hs]

/-! ### The lines of a range -/

theorem mem_linesOf {a n l : Nat} : l ∈ linesOf a n ↔ 0 < n ∧ lineOf a ≤ l ∧ l ≤ lineOf (a + n - 1) := by
  unfold linesOf natsFrom lineOf
  split
  · next h => simp [h]
  · next h =>
    simp only [List.mem_map, List.mem_range]
    refine ⟨?_, fun ⟨_, hl⟩ => ⟨l - a / 128, by omega, by omega⟩⟩
    rintro ⟨j, hj, rfl⟩
    omega

theorem nodup_linesOf (a n : Nat) : (linesOf a n).Nodup := by
  unfold linesOf natsFrom
  split
  · exact List.nodup_nil
  · exact List.nodup_range.map fun _ _ h => Nat.add_left_cancel h

theorem lineOf_mem_linesOf {a n j : Nat} (h : j < n) : lineOf (a + j) ∈ linesOf a n := by
  rw [mem_linesOf]
  unfold lineOf
  omega

/-! ### A piece of BFILL (R141, R522) -/

/-- Line l, of value v, after the next n bytes of a BFILL with progress p. -/
def Progress.fillLine (p : Progress) (n l : Nat) (v : LineVal) : LineVal :=
  let d := capBase p.dst + p.done
  let lo := max d (128 * l)
  let hi := min (d + n) (128 * l + 128)
  wholeBy (capBase p.dst) (d + n) l (linePut v (lo % 128) (hi - lo)
    (leNat ((((List.range n).map fun _ => p.ustate.toNat % 256).drop (lo - d)).take (hi - lo))))

/-- Each of the next n bytes of a BFILL is its fill byte. -/
theorem lineGet_fillLine (p : Progress) (v : LineVal) {n j : Nat} (hj : j < n) :
    lineGet (p.fillLine n (lineOf (capBase p.dst + p.done + j)) v) ((capBase p.dst + p.done + j) % 128) 1 = p.ustate.toNat % 256 := by
  unfold Progress.fillLine
  generalize capBase p.dst + p.done = d
  extract_lets d' lo hi
  have hl : lineOf (d + j) = (d + j) / 128 := rfl
  have hlo : lo = max d (128 * ((d + j) / 128)) := rfl
  have hhi : hi = min (d + n) (128 * ((d + j) / 128) + 128) := rfl
  clear_value lo hi
  show lineGet (linePut v (lo % 128) (hi - lo) _) _ 1 = _
  have hxs : (((List.range n).map fun _ => p.ustate.toNat % 256).drop (lo - d)).take (hi - lo) =
      List.replicate (hi - lo) (p.ustate.toNat % 256) := by
    rw [List.map_const', List.length_range, List.drop_replicate, List.take_replicate]
    congr 1
    omega
  rw [hxs, lineGet_linePut _ (by omega) (by omega), leNat_replicate (Nat.mod_lt _ (by decide)) _ _ (by omega)]

section
variable {s : State} {h : Place}

/-- Every line of a list that the skein owns in its ply's L2 is ready to be written. -/
theorem State.wantAll_of_owned {ls : List Nat} (ho : s.LinesOwned h ls) :
    ∃ t, s.wantAll h (ls.map fun l => (l, true)) = (true, t) ∧ s.Touches t h.skein := by
  obtain ⟨up, owned⟩ := ho
  unfold State.wantAll
  generalize hf : List.foldl _ _ _ = q
  have hq : q.1 = true ∧ s.Touches q.2 h.skein := by
    rw [← hf]
    refine List.foldlRecOn (motive := fun (q : Bool × State) => q.1 = true ∧ s.Touches q.2 h.skein) _ _ ⟨rfl, .refl s _⟩ ?_
    rintro ⟨b, t⟩ ⟨hb, touches⟩ e he
    obtain ⟨l, hl, rfl⟩ := List.mem_map.mp he
    obtain ⟨l2, own, free⟩ := owned l hl
    obtain ⟨u, hu, more⟩ := t.wantOwned_of_l2 (h := h) (l := l) (by rwa [touches.l2]) (by rwa [touches.up]) (by rwa [touches.own])
      (by rwa [touches.stalled])
    simp only [if_true, hu]
    exact ⟨by simpa using hb, touches.trans more⟩
  obtain ⟨ok, touches⟩ := hq
  obtain ⟨b, t⟩ := q
  refine ⟨t, ?_, touches⟩
  have all : (ls.map fun l => (l, true)).all (fun e => (t.skl h.skein e.1).held && (!e.2 || (t.skl h.skein e.1).own != .shared)) = true := by
    rw [List.all_eq_true]
    intro e he
    obtain ⟨l, hl, rfl⟩ := List.mem_map.mp he
    obtain ⟨l2, own, -⟩ := owned l hl
    have held : (t.skl h.skein l).held = true := SkLine.held_of_l2 (p := h.ply) (by rwa [touches.l2])
    simp [held, touches.own, own]
  simp only at ok
  simp only [ok, Bool.true_and, all]

end

/-- Writes of different lines, each made from the value that its line has. -/
theorem State.foldS_writeOwned {k p : Nat} (g : Nat → LineVal → LineVal) : ∀ (ls : List Nat) (s : State), ls.Nodup → s.l2Up k p = true →
    s.InSkein (foldS ls (fun l t => t.writeOwned k p l (g l (t.skl k l).val)) s) k ∧
      (∀ m, m ∉ ls → (foldS ls (fun l t => t.writeOwned k p l (g l (t.skl k l).val)) s).skl k m = s.skl k m) ∧
      ∀ l ∈ ls, ((foldS ls (fun l t => t.writeOwned k p l (g l (t.skl k l).val)) s).skl k l).val = g l (s.skl k l).val
  | [], s, _, _ => ⟨.refl s k, fun _ _ => rfl, fun _ hl => absurd hl List.not_mem_nil⟩
  | l :: ls, s, hn, up => by
    obtain ⟨new, rest⟩ := List.nodup_cons.mp hn
    obtain ⟨line, val⟩ := State.writeOwned_of_up (l := l) up (g l (s.skl k l).val)
    rw [foldS_cons]
    generalize s.writeOwned k p l (g l (s.skl k l).val) = t at line val ⊢
    obtain ⟨skein, same, wrote⟩ := State.foldS_writeOwned g ls t rest (by rwa [line.up])
    refine ⟨line.toInSkein.trans skein, fun m hm => ?_, fun m hm => ?_⟩
    · obtain ⟨hml, hms⟩ := not_or.mp (mt List.mem_cons.mpr hm)
      rw [same m hms, line.lines m hml]
    · rcases List.mem_cons.mp hm with rfl | hms
      · rw [same m new, val]
      · rw [wrote m hms, line.lines m (fun e => new (e ▸ hms))]

section
variable {s : State} {h : Place} {p : Progress} {n : Nat}

/-- A piece of BFILL whose bytes the capability and the map admit and whose lines the skein owns: the bytes are filled. -/
theorem State.blkStep_of_fill (ha : s.admitted p.dst pSTORE (capBase p.dst + p.done) n = (n, none))
    (ho : s.LinesOwned h (linesOf (capBase p.dst + p.done) n)) :
    ∃ t, s.blkStep h p false n = ({ st := t }, n) ∧ s.InSkein t h.skein ∧
      ∀ j, j < n → t.heldByte h.skein (capBase p.dst + p.done + j) = p.ustate.toNat % 256 := by
  obtain ⟨t, ht, touches⟩ := State.wantAll_of_owned ho
  obtain ⟨skein, -, wrote⟩ := State.foldS_writeOwned (p.fillLine n) (linesOf (capBase p.dst + p.done) n) { t with freeCtr := t.freeCtr + n }
    (nodup_linesOf _ _) ((touches.up h.skein h.ply).trans ho.1)
  refine ⟨_, ?_, (touches.toInSkein.trans (t.inSkein_freeCtr h.skein _)).trans skein, fun j hj => ?_⟩
  · simp only [State.blkStep, ha, Bool.false_eq_true, if_false, List.nil_append, ht, Bool.not_false, if_true, Nat.lt_irrefl]
    rfl
  · rw [State.heldByte, wrote _ (lineOf_mem_linesOf hj), lineGet_fillLine p _ hj]

/-- A piece of the BFILL that a spindle runs. -/
theorem State.longPiece_of_fill {i : Nat} (hu : (s.sp i).arch.progress.unit = 17) (ht : (s.sp i).longTrig = 5)
    (hp : (s.sp i).arch.progress = p) (ha : s.admitted p.dst pSTORE (capBase p.dst + p.done) n = (n, none))
    (ho : s.LinesOwned h (linesOf (capBase p.dst + p.done) n)) :
    ∃ t, s.longPiece i h n = { st := t.modProgress i fun q => { q with done := q.done + n, remain := q.remain - n } } ∧
      s.InSkein t h.skein ∧ ∀ j, j < n → t.heldByte h.skein (capBase p.dst + p.done + j) = p.ustate.toNat % 256 := by
  subst hp
  obtain ⟨t, step, rest⟩ := State.blkStep_of_fill ha ho
  refine ⟨t, ?_, rest⟩
  simp only [State.longPiece, hu, ht, if_true, Nat.reduceBEq, step]

end

/-! ### Progress (R139) -/

/-- Spindle x with the progress q of its long operation (R139). -/
def Spindle.withProgress (x : Spindle) (q : Progress) : Spindle := { x with arch := { x.arch with progress := q } }

theorem State.modProgress_sp (s : State) (i : Nat) (f : Progress → Progress) :
    (s.modProgress i f).sp i = (s.sp i).withProgress (f (s.sp i).arch.progress) := s.modSp_sp i _

@[simp] theorem Spindle.withProgress_progress (x : Spindle) (q : Progress) : (x.withProgress q).arch.progress = q := rfl
@[simp] theorem Spindle.withProgress_ba (x : Spindle) (q : Progress) : (x.withProgress q).ba = x.ba := rfl
@[simp] theorem Spindle.withProgress_stores (x : Spindle) (q : Progress) : (x.withProgress q).stores = x.stores := rfl
@[simp] theorem Spindle.withProgress_freezeReq (x : Spindle) (q : Progress) : (x.withProgress q).freezeReq = x.freezeReq := rfl
@[simp] theorem Spindle.withProgress_longJump (x : Spindle) (q : Progress) : (x.withProgress q).longJump = x.longJump := rfl

/-! ### Where the events of a boundary are due (R128, R132, R136) -/

theorem State.takeDue_eq_none {s : State} {i : Nat} {ba : Word} {resume : Bool} :
    s.takeDue i ba resume = none ↔ dueNotice (s.sp i) = none ∧ dueInterrupt (s.sp i) = none := by
  cases hn : dueNotice (s.sp i) <;> cases hi : dueInterrupt (s.sp i) <;> simp [State.takeDue, hn, hi]

/-- The progress of a long operation has no part in what is due. -/
theorem State.takeDue_modProgress {s t : State} {i : Nat} {ba : Word} {resume : Bool} (hs : t.sp i = s.sp i)
    (h : s.takeDue i ba resume = none) (f : Progress → Progress) : (t.modProgress i f).takeDue i ba resume = none := by
  rw [State.takeDue_eq_none] at h ⊢
  rwa [State.modProgress_sp, hs]

/-! ### The loop check and the retirement (R68, R70) -/

/-- The registers of the loop unit are the same (R69 to R71). -/
def Arch.SameLoops (a b : Arch) : Prop :=
  a.loopStart = b.loopStart ∧ a.loopEnd = b.loopEnd ∧ a.loopCount = b.loopCount ∧ a.loopDepth = b.loopDepth

/-- The next bundle follows from the registers of the loop unit. -/
theorem loopEndCheck_next (ba : Word) : ∀ (n : Nat) (a b : Arch), a.SameLoops b → (loopEndCheck ba n a).2 = (loopEndCheck ba n b).2
  | 0, _, _, _ => rfl
  | n + 1, a, b, ⟨hstart, hend, hcount, hdepth⟩ => by
    have ih := loopEndCheck_next ba n
      { a with loopStart := b.loopStart, loopEnd := b.loopEnd, loopCount := b.loopCount, loopDepth := b.loopDepth - 1 }
      { b with loopDepth := b.loopDepth - 1 } ⟨rfl, rfl, rfl, rfl⟩
    simp only [loopEndCheck, hstart, hend, hcount, hdepth]
    split_ifs
    · rfl
    · rfl
    · exact ih
    · rfl

theorem loopEndCheck_units (ba : Word) : ∀ (n : Nat) (a : Arch), (loopEndCheck ba n a).1.units = a.units
  | 0, _ => rfl
  | n + 1, a => by
    have ih := loopEndCheck_units ba n { a with loopDepth := a.loopDepth - 1 }
    simp only [loopEndCheck]
    split_ifs
    · rfl
    · rfl
    · exact ih
    · rfl

theorem Spindle.retire_ba {x y : Spindle} (hb : x.ba = y.ba) (ha : x.arch.SameLoops y.arch) (jump : Option (Word × Cap)) :
    (x.retire jump).ba = (y.retire jump).ba := by
  cases jump with
  | some j => rfl
  | none =>
    show (loopEndCheck x.ba 5 x.arch).2 = (loopEndCheck y.ba 5 y.arch).2
    rw [hb, loopEndCheck_next _ _ _ _ ha]

theorem Spindle.retire_unit (x : Spindle) (jump : Option (Word × Cap)) (u : Nat) : (x.retire jump).arch.unit u = x.arch.unit u := by
  cases jump with
  | some j => rfl
  | none =>
    show tget {} (loopEndCheck x.ba 5 x.arch).1.units u = _
    rw [loopEndCheck_units]
    rfl

@[simp] theorem Spindle.complete_ba (x : Spindle) (r : OpRec) : (x.complete r).ba = x.ba := rfl

/-- A completion leaves the loop unit as it is. -/
theorem Spindle.complete_sameLoops (x : Spindle) (r : OpRec) : (x.complete r).arch.SameLoops x.arch := by
  simp only [Spindle.complete, Arch.SameLoops, Arch.modUnit]
  split_ifs <;> exact ⟨rfl, rfl, rfl, rfl⟩

theorem Spindle.withProgress_retire_ba (x : Spindle) (q : Progress) (jump : Option (Word × Cap)) :
    ((x.withProgress q).retire jump).ba = (x.retire jump).ba :=
  Spindle.retire_ba (x := x.withProgress q) (y := x) rfl ⟨rfl, rfl, rfl, rfl⟩ jump

/-! ### The end of a long operation (R65, R72, R97) -/

/-- The unit of a long operation's record is its own. -/
theorem State.longRecord_unit (s : State) (i code : Nat) : (s.longRecord i code).unit = (s.sp i).arch.progress.unit := by
  simp only [State.longRecord]
  split
  · next hu =>
    rw [hu]
    split <;> rfl
  · rfl

theorem State.longRecord_of_fill {s : State} {i : Nat} (hu : (s.sp i).arch.progress.unit = 17) (code : Nat) :
    (s.longRecord i code).res = capNum (s.sp i).arch.progress.done := by
  simp [State.longRecord, hu]

/-- What the end of a long operation of unit u leaves of spindle x: the result res entered, the progress cleared, the bundle retired. -/
def Spindle.EndsLong (x y : Spindle) (u : Nat) (res : Cap) : Prop :=
  (y.arch.unit u).r = res ∧ y.arch.progress = {} ∧ y.longOn = false ∧ y.ba = (x.retire x.longJump).ba

/-- The end of a DLDIV or of a block operation changes its spindle alone, and of that no store that waits and no freeze. -/
theorem State.longEnd_of_unit {s : State} {i u : Nat} (hu : (s.sp i).arch.progress.unit = u) (h : u = 8 ∨ u = 17) (code : Nat) :
    ∃ y, s.longEnd i code = s.setSp i y ∧ (s.sp i).EndsLong y u (s.longRecord i code).res ∧ y.stores = (s.sp i).stores ∧
      y.freezeReq = (s.sp i).freezeReq := by
  have h18 : ¬ ((s.sp i).arch.progress.unit = 18 ∨ (s.sp i).arch.progress.unit = 19) := by omega
  unfold State.longEnd
  extract_lets x p r y t
  have hr : r.unit = u := (s.longRecord_unit i code).trans hu
  rw [if_neg h18]
  refine ⟨_, rfl, ⟨?_, rfl, rfl, ?_⟩, ?_, ?_⟩
  · show (y.arch.unit u).r = _
    rw [Spindle.retire_unit, ← hr, Spindle.complete_result _ _ (by omega) (by omega)]
  · exact Spindle.retire_ba (x := x.complete r) (y := x) rfl (x.complete_sameLoops r) _
  · show y.stores = _
    cases hj : x.longJump <;> simp only [y, hj, Spindle.retire] <;> rfl
  · show y.freezeReq = _
    cases hj : x.longJump <;> simp only [y, hj, Spindle.retire] <;> rfl

/-! ### Progress points and completions (R72, R139) -/

/-- Where no freeze is asked for, none takes effect. -/
theorem State.park_of_free {s : State} {i : Nat} (h : (s.sp i).freezeReq = false) : s.park i = s := by
  simp [State.park, h]

/-- A change of a spindle is a change of that spindle alone. -/
theorem State.onlySpindle_setSp (s : State) (i : Nat) (x : Spindle) : s.OnlySpindle (s.setSp i x) i := by
  refine ⟨?_, fun j hj => s.setSp_sp_other x hj, rfl, fun _ => rfl, rfl, rfl⟩
  simp [State.SameOutside]

section
variable {s : State} {i n : Nat} {h : Place}

theorem pointBytes_of_free {x : Spindle} (hct : x.longCt = false) (free : Nat) :
    pointBytes x free = min x.arch.progress.remain (4096 - x.arch.progress.done % 4096) := by
  simp [pointBytes, hct]

theorem lastPiece_of_free {x : Spindle} (hct : x.longCt = false) :
    lastPiece x = decide (x.arch.progress.remain ≤ 4096 - x.arch.progress.done % 4096) := by
  simp [lastPiece, hct]

theorem State.progressPoint_of_dldiv (place : (s.sp i).host = some h) (hu : (s.sp i).arch.progress.unit = 8)
    (due : s.takeDue i (s.sp i).ba true = none) : s.progressPoint i = s.modProgress i fun _ => dldivAfter (s.sp i) 512 := by
  have due' := State.takeDue_modProgress rfl due fun _ => dldivAfter (s.sp i) 512
  simp only [State.progressPoint, place, hu, if_true, due']

theorem State.progressPoint_of_fill (place : (s.sp i).host = some h) (hu : (s.sp i).arch.progress.unit = 17)
    (ht : (s.sp i).longTrig = 5) (hct : (s.sp i).longCt = false) (hn : pointBytes (s.sp i) s.freeCtr = n)
    (more : n < (s.sp i).arch.progress.remain) (due : s.takeDue i (s.sp i).ba true = none)
    (ha : s.admitted (s.sp i).arch.progress.dst pSTORE (capBase (s.sp i).arch.progress.dst + (s.sp i).arch.progress.done) n = (n, none))
    (ho : s.LinesOwned h (linesOf (capBase (s.sp i).arch.progress.dst + (s.sp i).arch.progress.done) n)) :
    ∃ t, s.progressPoint i = t.modProgress i (fun q => { q with done := q.done + n, remain := q.remain - n }) ∧ s.InSkein t h.skein ∧
      ∀ j, j < n → t.heldByte h.skein (capBase (s.sp i).arch.progress.dst + (s.sp i).arch.progress.done + j) =
        (s.sp i).arch.progress.ustate.toNat % 256 := by
  obtain ⟨t, step, skein, bytes⟩ := State.longPiece_of_fill hu ht rfl ha ho
  refine ⟨t, ?_, skein, bytes⟩
  have notLast : lastPiece (s.sp i) = false := by
    rw [lastPiece_of_free hct, decide_eq_false_iff_not]
    rw [pointBytes_of_free hct] at hn
    omega
  have step' : { s with freeCtr := s.freeCtr + b2n false }.longPiece i h n = _ := step
  have due' := State.takeDue_modProgress (skein.sp i) due fun q => { q with done := q.done + n, remain := q.remain - n }
  simp only [State.progressPoint, place, hu, Nat.reduceEqDiff, if_false, BEq.rfl, Bool.or_true, if_true, notLast, Bool.false_and,
    Bool.false_eq_true, hct, hn, step', due']

theorem State.longComplete_of_dldiv (place : (s.sp i).host = some h) (hu : (s.sp i).arch.progress.unit = 8) :
    s.longComplete i = s.longEnd i 0 := by
  simp only [State.longComplete, place, hu, if_true]

theorem State.longComplete_of_fill (place : (s.sp i).host = some h) (hu : (s.sp i).arch.progress.unit = 17)
    (ht : (s.sp i).longTrig = 5) (hct : (s.sp i).longCt = false) (hn : pointBytes (s.sp i) s.freeCtr = n)
    (last : n = (s.sp i).arch.progress.remain)
    (ha : s.admitted (s.sp i).arch.progress.dst pSTORE (capBase (s.sp i).arch.progress.dst + (s.sp i).arch.progress.done) n = (n, none))
    (ho : s.LinesOwned h (linesOf (capBase (s.sp i).arch.progress.dst + (s.sp i).arch.progress.done) n)) :
    ∃ t, s.longComplete i = (t.modProgress i fun q => { q with done := q.done + n, remain := q.remain - n }).longEnd i 0 ∧
      s.InSkein t h.skein ∧
      ∀ j, j < n → t.heldByte h.skein (capBase (s.sp i).arch.progress.dst + (s.sp i).arch.progress.done + j) =
        (s.sp i).arch.progress.ustate.toNat % 256 := by
  obtain ⟨t, step, skein, bytes⟩ := State.longPiece_of_fill hu ht rfl ha ho
  refine ⟨t, ?_, skein, bytes⟩
  have isLast : lastPiece (s.sp i) = true := by
    rw [lastPiece_of_free hct, decide_eq_true_eq]
    rw [pointBytes_of_free hct] at hn
    omega
  simp only [State.longComplete, place, hu, Nat.reduceEqDiff, if_false, BEq.rfl, Bool.or_true, if_true, isLast, Bool.not_true,
    Bool.false_eq_true, ← last, step]

end

theorem exec_longOpProgressPoint (sp : SpId) (s : State) : exec (.longOpProgressPoint sp) s = execLongOpProgressPoint sp s := rfl
theorem exec_longOpComplete (sp : SpId) (s : State) : exec (.longOpComplete sp) s = execLongOpComplete sp s := rfl

section
variable {s : State} {sp : SpId} (alive : s.alive sp = true) (on : (s.sp sp).longOn = true)
include alive on

/-- LONG_OP_PROGRESS_POINT of a spindle of which no freeze is under way. -/
theorem exec_longOpProgressPoint_of_free {t : State} (ht : s.progressPoint sp = t) (quiet : t.Quiet) (free : (t.sp sp).freezeReq = false) :
    exec (.longOpProgressPoint sp) s = .next t := by
  rw [exec_longOpProgressPoint, execLongOpProgressPoint, if_pos (by simp [alive, on]), ht, State.park_of_free free, done_of_quiet t quiet]

/-- LONG_OP_COMPLETE, where state v ends the operation, of a spindle of which no freeze is under way and no store waits. -/
theorem exec_longOpComplete_of_end {v : State} {u : Nat} (hv : s.longComplete sp = v.longEnd sp 0) (hu : (v.sp sp).arch.progress.unit = u)
    (h : u = 8 ∨ u = 17) (quiet : v.Quiet) (stores : (v.sp sp).stores = []) (free : (v.sp sp).freezeReq = false) :
    ∃ y, exec (.longOpComplete sp) s = .next (v.setSp sp y) ∧ (v.sp sp).EndsLong y u (v.longRecord sp 0).res := by
  obtain ⟨y, ended, ends, stores', free'⟩ := State.longEnd_of_unit hu h 0
  refine ⟨y, ?_, ends⟩
  rw [exec_longOpComplete, execLongOpComplete, if_pos (by simp [alive, on]), hv, ended, State.afterDone_of_idle,
    done_of_quiet (v.setSp sp y) quiet]
  · simpa [stores'] using stores
  · simpa [free'] using free

end

/-- Settles O7: a progress point makes the next piece, and the completion the last one, whose result the end enters. -/
theorem longOperationProgressesAndCompletes : Obligations.LongOperationProgressesAndCompletes := by
  intro sp s h alive runs on _ hct x p d n
  refine ⟨fun due hu => ?_, fun hu ht ha ho => ⟨fun more due => ?_, fun last => ?_⟩, fun hu => ?_⟩
  · refine ⟨_, exec_longOpProgressPoint_of_free alive on (State.progressPoint_of_dldiv runs.place hu due) runs.quiet ?_, ?_,
      s.onlySpindle_setSp sp _⟩
    · simpa [State.modProgress_sp] using runs.free
    · simp [State.modProgress_sp, x]
  · obtain ⟨t, step, skein, bytes⟩ := State.progressPoint_of_fill runs.place hu ht hct rfl more due ha ho
    refine ⟨_, exec_longOpProgressPoint_of_free alive on step ?_ ?_, ?_, ?_, bytes⟩
    · exact (congrArg Faults.todo skein.faults).trans runs.quiet
    · simpa [State.modProgress_sp, skein.sp] using runs.free
    · simp [State.modProgress_sp, skein.sp, p, x, n]
    · simp [State.modProgress_sp, skein.sp, x]
  · obtain ⟨t, step, skein, bytes⟩ := State.longComplete_of_fill runs.place hu ht hct rfl last ha ho
    generalize hv : (t.modProgress sp fun q => { q with done := q.done + n, remain := q.remain - n }) = v at step
    have hvx : v.sp sp = x.withProgress { p with done := p.done + n, remain := p.remain - n } := by
      rw [← hv, State.modProgress_sp, skein.sp]
    have hvu : (v.sp sp).arch.progress.unit = 17 := by rw [hvx]; exact hu
    have quiet : v.Quiet := by rw [← hv]; exact (congrArg Faults.todo skein.faults).trans runs.quiet
    have bytes' : ∀ j, j < n → v.heldByte h.skein (d + j) = p.ustate.toNat % 256 := by rw [← hv]; exact bytes
    obtain ⟨y, next, res, progress, off, ba⟩ := exec_longOpComplete_of_end alive on step hvu (.inr rfl) quiet
      (by rw [hvx]; exact runs.stores) (by rw [hvx]; exact runs.free)
    rw [State.longRecord_of_fill hvu, hvx] at res
    rw [hvx, Spindle.withProgress_retire_ba] at ba
    refine ⟨_, next, ?_⟩
    rw [State.setSp_sp]
    exact ⟨res, progress, off, ba, bytes'⟩
  · obtain ⟨y, next, res, progress, off, -⟩ := exec_longOpComplete_of_end alive on (State.longComplete_of_dldiv runs.place hu) hu (.inl rfl)
      runs.quiet runs.stores runs.free
    refine ⟨_, next, ?_⟩
    rw [State.setSp_sp]
    exact ⟨off, progress, res, s.onlySpindle_setSp sp y⟩

end Sys2Proof.Machine

/-!
PROOFS. The issue of a fetched bundle whose triggers are those of ALUs, or of a coprocessor unit (R42, R50, R58 to R60, R73, R74).
-/

namespace Sys2Proof.Machine

/-! ### What a spindle has fetched ahead has no part in its bundle's effect (R216) -/

/-- Spindle x with the bundles a fetched ahead. -/
def Spindle.withAhead (x : Spindle) (a : List (Word × BitVec 128)) : Spindle := { x with ahead := a }

section
variable (x : Spindle) (a : List (Word × BitVec 128))

theorem Spindle.modArch_withAhead (f : Arch → Arch) : (x.withAhead a).modArch f = (x.modArch f).withAhead a := rfl

theorem Spindle.ite_withAhead {a : List (Word × BitVec 128)} {c : Prop} [Decidable c] {y z y' z' : Spindle} (hy : y' = y.withAhead a)
    (hz : z' = z.withAhead a) : (if c then y' else z') = (if c then y else z).withAhead a := by
  split
  · exact hy
  · exact hz

theorem Spindle.writeSpecial_withAhead (n : Nat) (v : Cap) : (x.withAhead a).writeSpecial n v = (x.writeSpecial n v).withAhead a := by
  unfold Spindle.writeSpecial
  exact ite_withAhead rfl <| ite_withAhead rfl <| ite_withAhead rfl <| ite_withAhead (x.modArch_withAhead a _) <|
    ite_withAhead (x.modArch_withAhead a _) <| ite_withAhead (x.modArch_withAhead a _) <| ite_withAhead (x.modArch_withAhead a _) rfl

theorem Spindle.writeSock_withAhead (t : Sock) (v : Cap) : (x.withAhead a).writeSock t v = (x.writeSock t v).withAhead a := by
  cases t with
  | special n => exact x.writeSpecial_withAhead a n v
  | _ => rfl

theorem Live.write_withAhead (m : Live) : m.write (x.withAhead a) = (m.write x).withAhead a :=
  Spindle.ite_withAhead rfl <| Spindle.ite_withAhead rfl (x.writeSock_withAhead a _ _)

theorem phase3_withAhead (ms : List Live) : ∀ x : Spindle, phase3 (x.withAhead a) ms = (phase3 x ms).withAhead a := by
  induction ms with
  | nil => exact fun _ => rfl
  | cons m ms ih =>
    intro x
    show phase3 (m.write (x.withAhead a)) ms = (phase3 (m.write x) ms).withAhead a
    rw [Live.write_withAhead, ih]

theorem Spindle.computes_withAhead (ct : Bool) (ts : List Trig) :
    ∀ x : Spindle, (x.withAhead a).computes ts ct = (x.computes ts ct).withAhead a := by
  induction ts with
  | nil => exact fun _ => rfl
  | cons t ts ih => exact fun x => ih (startCompute (x.withOperand t.u t.a) t false ct)

end

/-! ### Phase 3 and the triggers of ALUs touch registers and operations in flight alone (R50, R58, R60) -/

/-- Spindle y is x but for its registers. -/
def Spindle.SameButRegisters (x y : Spindle) : Prop :=
  y = { x with arch := y.arch, tsb := y.tsb, tdt := y.tdt, eventBase := y.eventBase }

namespace Spindle.SameButRegisters

variable {x y z : Spindle}

theorem trans (h : x.SameButRegisters y) (g : y.SameButRegisters z) : x.SameButRegisters z :=
  Eq.trans g (by rw [h])

theorem ite {c : Prop} [Decidable c] (hy : x.SameButRegisters y) (hz : x.SameButRegisters z) :
    x.SameButRegisters (if c then y else z) := by
  split
  · exact hy
  · exact hz

theorem ops (h : x.SameButRegisters y) : y.ops = x.ops := by rw [h]
theorem stores (h : x.SameButRegisters y) : y.stores = x.stores := by rw [h]
theorem serial (h : x.SameButRegisters y) : y.serial = x.serial := by rw [h]
theorem longOn (h : x.SameButRegisters y) : y.longOn = x.longOn := by rw [h]

end Spindle.SameButRegisters

theorem Spindle.modArch_registers (x : Spindle) (f : Arch → Arch) : x.SameButRegisters (x.modArch f) := rfl

theorem Spindle.writeSpecial_registers (x : Spindle) (n : Nat) (v : Cap) : x.SameButRegisters (x.writeSpecial n v) := by
  unfold Spindle.writeSpecial
  exact .ite rfl <| .ite rfl <| .ite rfl <| .ite (x.modArch_registers _) <| .ite (x.modArch_registers _) <|
    .ite (x.modArch_registers _) <| .ite (x.modArch_registers _) rfl

theorem Spindle.writeSock_registers (x : Spindle) (t : Sock) (v : Cap) : x.SameButRegisters (x.writeSock t v) := by
  cases t with
  | special n => exact x.writeSpecial_registers n v
  | _ => rfl

theorem Live.write_registers (m : Live) (x : Spindle) : x.SameButRegisters (m.write x) :=
  .ite rfl <| .ite rfl (x.writeSock_registers _ _)

theorem phase3_registers (ms : List Live) : ∀ x : Spindle, x.SameButRegisters (phase3 x ms) := by
  induction ms with
  | nil => exact fun _ => rfl
  | cons m ms ih => exact fun x => (m.write_registers x).trans (ih (m.write x))

/-- A computing unit leaves in flight an operation whose result is known. -/
theorem startCompute_eq (x : Spindle) (t : Trig) (precise ct : Bool) :
    ∃ r, startCompute x t precise ct = { x with ops := x.ops ++ [r] } ∧ OpRec.access r = none := ⟨_, rfl, rfl⟩

theorem Spindle.computes_eq (ct : Bool) (ts : List Trig) : ∀ x : Spindle, ∃ a rs,
    x.computes ts ct = { x with arch := a, ops := x.ops ++ rs } ∧ ∀ r ∈ rs, OpRec.access r = none := by
  induction ts with
  | nil => exact fun x => ⟨x.arch, [], by rw [List.append_nil]; rfl, fun _ hr => absurd hr List.not_mem_nil⟩
  | cons t ts ih =>
    intro x
    obtain ⟨r, hr, value⟩ := startCompute_eq (x.withOperand t.u t.a) t false ct
    obtain ⟨a, rs, hy, values⟩ := ih { x.withOperand t.u t.a with ops := x.ops ++ [r] }
    refine ⟨a, r :: rs, ?_, List.forall_mem_cons.mpr ⟨value, values⟩⟩
    show (startCompute (x.withOperand t.u t.a) t false ct).computes ts ct = _
    rw [hr]
    refine hy.trans ?_
    rw [List.append_cons x.ops r rs]
    rfl

/-! ### A bundle that nothing holds up (R60, R61, R78, R136) -/

theorem Live.waits_of_idle {x : Spindle} (h : x.ops = []) (m : Live) : m.waits x = false := by
  simp only [Live.waits, h, List.any_nil, Bool.and_false, Bool.or_eq_false_iff]
  constructor
  · split <;> rfl
  · split <;> rfl

section
variable {s : State} {i : Nat}

theorem State.trigWaits_of_idle {x : Spindle} (ops : x.ops = []) (stores : x.stores = []) (serial : x.serial = none) (t : Trig) :
    s.trigWaits x t = false := by
  simp [State.trigWaits, ops, stores, serial]

/-- Triggers of other units than the load/store units add no access. -/
theorem Spindle.overFull_of_no_access (x : Spindle) {ts : List Trig} (h : ∀ t ∈ ts, t.u ≠ 10 ∧ t.u ≠ 11) : x.overFull ts = false := by
  have noAccess : (ts.filter fun t => t.u == 10 || t.u == 11) = [] := by
    rw [List.filter_eq_nil_iff]
    intro t ht
    simpa using h t ht
  simp [Spindle.overFull, noAccess]

/-- The triggers of ALUs raise no event at issue. -/
theorem State.trigFails_of_alu (x : Spindle) {t : Trig} (h : t.u ≤ 3) : s.trigFails i x t = [] := by
  unfold State.trigFails
  extract_lets
  repeat rw [if_neg (by omega)]

/-- A trigger of a coprocessor unit that is bound raises no event at issue (R74). -/
theorem State.trigFails_of_cop (x : Spindle) {t : Trig} (h : 80 ≤ t.u) (hb : s.copBinding i t.u ≠ 0) : s.trigFails i x t = [] := by
  unfold State.trigFails
  extract_lets
  rw [if_neg (by omega), if_neg (by omega), if_neg (by omega), if_neg (by omega), if_neg (by omega), if_neg (by omega), if_pos h, if_neg hb]

/-- Moves that nothing holds up and that raise no event take effect. -/
theorem State.issueLive_of_idle {ms : List Live} (ops : (s.sp i).ops = []) (stores : (s.sp i).stores = []) (serial : (s.sp i).serial = none)
    (units : ∀ t ∈ ms.filterMap Live.trigger, t.u ≠ 10 ∧ t.u ≠ 11 ∧ t.u ≠ 15) (live : ms.flatMap (Live.fails (s.sp i)) = [])
    (trig : ∀ t ∈ ms.filterMap Live.trigger, s.trigFails i (phase3 (s.sp i) ms) t = []) (h : Place) (opq : Nat) :
    s.issueLive i h ms opq = s.perform i h ms opq := by
  have same := phase3_registers ms (s.sp i)
  have waits : ms.any (Live.waits (s.sp i)) = false := by
    rw [List.any_eq_false]
    intro m _
    simp [Live.waits_of_idle ops]
  have trigWaits : (ms.filterMap Live.trigger).any (s.trigWaits (phase3 (s.sp i) ms)) = false := by
    rw [List.any_eq_false]
    intro t _
    simp [State.trigWaits_of_idle (same.ops.trans ops) (same.stores.trans stores) (same.serial.trans serial)]
  have room := (phase3 (s.sp i) ms).overFull_of_no_access fun t ht => ⟨(units t ht).1, (units t ht).2.1⟩
  have fails : (ms.filterMap Live.trigger).flatMap (s.trigFails i (phase3 (s.sp i) ms)) = [] := List.flatMap_eq_nil_iff.mpr trig
  have noTsb : ((ms.filterMap Live.trigger).any fun t => t.u == 15 && t.sock == 5 && (t.w.toNat % 4 == 0 || t.w.toNat % 4 == 3)) = false := by
    rw [List.any_eq_false]
    intro t ht
    simp [(units t ht).2.2]
  unfold State.issueLive
  simp only [waits, trigWaits, room, live, fails, noTsb, Bool.or_self, Bool.false_eq_true, if_false, List.append_nil, firstFail, List.foldl_nil,
    Bool.false_and, State.wantLines]

/-! ### The triggers started (R50, R58) -/

theorem State.startTrig_of_alu (opq : Nat) {old : Spindle} (hp : old.arch.precise = false) (y : Spindle) {t : Trig} (h : t.u ≤ 3) :
    s.startTrig opq old { x := y } t = { x := startCompute (y.withOperand t.u t.a) t false old.arch.constTime } := by
  have long : longTrigger t.u t.sock = false := by
    have h17 : ¬ 17 ≤ t.u := by omega
    have h8 : t.u ≠ 8 := by omega
    simp [longTrigger, between, h17, h8]
  have unit : t.u ≤ 9 ∨ t.u = 16 := by omega
  simp only [State.startTrig, long, Bool.false_eq_true, if_false, if_pos unit, hp]
  rfl

theorem State.startTrig_of_cop (opq : Nat) (old y : Spindle) {t : Trig} (h : 80 ≤ t.u) :
    s.startTrig opq old { x := y } t = { x := s.startCop (y.withOperand t.u t.a) t opq } := by
  have long : longTrigger t.u t.sock = false := by
    have h19 : ¬ t.u ≤ 19 := by omega
    have h8 : t.u ≠ 8 := by omega
    simp [longTrigger, between, h19, h8]
  unfold State.startTrig
  extract_lets x ofStarted
  rw [long, if_neg Bool.false_ne_true, if_neg (by omega), if_neg (by omega), if_neg (by omega), if_neg (by omega), if_neg (by omega),
    if_neg (by omega), if_pos h]
  rfl

theorem State.startTrigs_of_alu (opq : Nat) {old : Spindle} (hp : old.arch.precise = false) (ts : List Trig) :
    ∀ y : Spindle, (∀ t ∈ ts, t.u ≤ 3) → ts.foldl (s.startTrig opq old) { x := y } = { x := y.computes ts old.arch.constTime } := by
  induction ts with
  | nil => exact fun _ _ => rfl
  | cons t ts ih =>
    intro y h
    obtain ⟨ht, hts⟩ := List.forall_mem_cons.mp h
    rw [List.foldl_cons, State.startTrig_of_alu opq hp y ht, ih _ hts]
    rfl

/-! ### What follows the moves (R68, R189, R246) -/

theorem State.drain_of_no_stores (h : (s.sp i).stores = []) : s.drain i = s := by
  unfold State.drain
  rw [h]
  rfl

theorem foldS_of_fixed {σ β : Type} {f : β → σ → σ} {t : σ} : ∀ {xs : List β}, (∀ x ∈ xs, f x t = t) → foldS xs f t = t
  | [], _ => rfl
  | x :: xs, h => by
    obtain ⟨hx, hxs⟩ := List.forall_mem_cons.mp h
    rw [foldS_cons, hx, foldS_of_fixed hxs]

/-- Operations in flight that are no accesses ask for no lines. -/
theorem State.askOps_of_no_access (h : Place) (ho : ∀ r ∈ (s.sp i).ops, OpRec.access r = none) : s.askOps i h = s := by
  refine foldS_of_fixed fun r hr => ?_
  have access := ho r hr
  unfold OpRec.access at access
  cases hk : r.kind <;> simp_all

end

end Sys2Proof.Machine

/-!
PROOFS. The fetch of the bundle at BA, and what each KIND of bundle then does (R42 to R44, R50, R73, R216).
-/

namespace Sys2Proof.Machine

/-! ### Changes within a spindle and its skein -/

/-- From s to t nothing has changed but spindle i, skein k, plies, packets under way, and the MODEL's counter of free values. -/
structure State.InSpindle (s t : State) (i k : Nat) : Prop where
  rest : t = { s with cores := t.cores, fab := t.fab, freeCtr := t.freeCtr }
  spindles : ∀ j, j ≠ i → t.sp j = s.sp j
  skeins : ∀ j, j ≠ k → t.sk j = s.sk j

namespace State.InSpindle

variable {s t u : State} {i k : Nat}

theorem trans (h : s.InSpindle t i k) (g : t.InSpindle u i k) : s.InSpindle u i k where
  rest := g.rest.trans (by rw [h.rest])
  spindles j hj := (g.spindles j hj).trans (h.spindles j hj)
  skeins j hj := (g.skeins j hj).trans (h.skeins j hj)

theorem of_inSkein (h : s.InSkein t k) (i : Nat) : s.InSpindle t i k := ⟨by rw [h.rest], fun j _ => h.sp j, h.other⟩

theorem setSp (s : State) (i k : Nat) (x : Spindle) : s.InSpindle (s.setSp i x) i k :=
  ⟨rfl, fun _ hj => s.setSp_sp_other x hj, fun _ _ => rfl⟩

theorem params (h : s.InSpindle t i k) : t.params = s.params := by rw [h.rest]
theorem quiet (h : s.InSpindle t i k) (q : s.Quiet) : t.Quiet := by
  rw [h.rest]
  exact q
theorem sameOutside (h : s.InSpindle t i k) : s.SameOutside t := by
  rw [h.rest]
  simp [State.SameOutside]

end State.InSpindle

/-! ### The fetch of the bundle at BA (R43, R215, R216) -/

/-- State t is s once spindle i has fetched its bundle on place h, and the bundles a ahead. -/
structure State.Fetches (s t : State) (i : Nat) (h : Place) (a : List (Word × BitVec 128)) : Prop extends s.InSpindle t i h.skein where
  spindle : t.sp i = (s.sp i).withAhead a
  skein : ∃ ls, t.sk h.skein = { s.sk h.skein with lines := ls }

namespace State.Fetches

variable {s t : State} {i : Nat} {h : Place} {a : List (Word × BitVec 128)}

theorem sk (f : s.Fetches t i h a) (k : Nat) : ∃ ls, t.sk k = { s.sk k with lines := ls } := by
  by_cases hk : k = h.skein
  · rw [hk]
    exact f.skein
  · exact ⟨_, f.skeins k hk⟩

theorem modeWord (f : s.Fetches t i h a) (x : Spindle) : t.modeWord (x.withAhead a) = s.modeWord x := by
  have same (k : Nat) : (t.sk k).split = (s.sk k).split ∧ (t.sk k).loose = (s.sk k).loose := by
    obtain ⟨ls, e⟩ := f.sk k
    rw [e]
    exact ⟨rfl, rfl⟩
  unfold State.modeWord
  simp only [same]
  rfl

theorem partOf (f : s.Fetches t i h a) : t.partOf i = s.partOf i := by
  unfold State.partOf State.param
  rw [f.params]

theorem copBinding (f : s.Fetches t i h a) (u : Nat) : t.copBinding i u = s.copBinding i u := by
  simp only [State.copBinding, State.param, f.params, f.partOf]

theorem readSpecial (f : s.Fetches t i h a) (x : Spindle) (n : Nat) : t.readSpecial i (x.withAhead a) n = s.readSpecial i x n := by
  unfold State.readSpecial State.spindleWord
  rw [f.modeWord, f.partOf]
  rfl

theorem readSock (f : s.Fetches t i h a) (x : Spindle) (k : Sock) : t.readSock i (x.withAhead a) k = s.readSock i x k := by
  cases k with
  | special n => exact f.readSpecial x n
  | unit u r => match r with
    | 0 | 1 | 2 | 3 | _ + 4 => rfl
  | _ => rfl

/-- The sources hold the values that they held before the fetch. -/
theorem liveMoves (f : s.Fetches t i h a) (x : Spindle) (b : Nat) : t.liveMoves i (x.withAhead a) b = s.liveMoves i x b := by
  unfold State.liveMoves State.moveValue
  simp only [f.readSock]
  rfl

end State.Fetches

/-- A spindle whose stores have all been performed sees a line as its skein holds it. -/
theorem State.viewLine_of_no_stores {s : State} {i : Nat} (h : Place) (l o : Nat) (stores : (s.sp i).stores = []) :
    s.viewLine i h l o = (s.skl h.skein l).val := by
  simp [State.viewLine, stores]

/-- Where no long operation is to be resumed, none is dropped (R140). -/
theorem State.dropResume_of_none {s : State} {i : Nat} (resume : (s.sp i).resume = false) : s.dropResume i = s.setSp i (s.sp i) := by
  simp [State.dropResume, State.modSp, resume]

/-- A bundle of which nothing was fetched ahead executes as its current bytes. -/
theorem State.fetched_of_none_ahead {s : State} {i : Nat} (h : Place) (b : Nat) (empty : (s.sp i).ahead = []) :
    s.fetched i h b = (b, s.modSp i fun y => y.withAhead (s.fetchAhead i h)) := by
  simp only [State.fetched, empty, List.find?_nil]
  rfl

/-- The word of an encoding that is legal, of a spindle with nothing in flight, nothing recorded and nothing to resume, goes on to its
moves. -/
theorem State.issueWord_of_idle {s : State} {i b : Nat} (ops : (s.sp i).ops = []) (arith : (s.sp i).arch.pendInfo = 0)
    (resume : (s.sp i).resume = false) (legal : illegalOf b = none) : s.issueWord i b = none := by
  have noResume : s.resumeMove i (longMoves b) = none := by simp [State.resumeMove, resume]
  have noSync : s.syncDue i = none := by simp [State.syncDue, ops, arith]
  have noGuard : (bundleMoves b).any (Move.guardWaits (s.sp i)) = false := by
    rw [List.any_eq_false]
    intro m _
    simp [Move.guardWaits, ops]
  simp [State.issueWord, noResume, noSync, noGuard, ops, arith, legal]

/-- The fetch of spindle i at BA on place h finds a bundle of encoding b, whose KIND is that of the command. -/
structure State.Finds (s : State) (i : Nat) (h : Place) (b kind : Nat) : Prop extends s.Ready i h where
  resume : (s.sp i).resume = false
  admitted : s.fetchFail (s.sp i) = none
  ahead : (s.sp i).ahead = []
  here : s.LinesHere h [lineOf (s.sp i).ba.toNat]
  bytes : lineGet (s.skl h.skein (lineOf (s.sp i).ba.toNat)).val ((s.sp i).ba.toNat % 128) 16 = b
  legal : illegalOf b = none
  kind : (if bundleKind b = 3 then 0 else bundleKind b) = kind

theorem State.Finds.kind_eq_two {s : State} {i b : Nat} {h : Place} (f : s.Finds i h b 2) : bundleKind b = 2 := by
  have kind := f.kind
  split at kind
  · exact absurd kind (by decide)
  · exact kind

/-- A bundle that the fetch finds issues its moves, with the values that its sources hold. -/
theorem State.issueBundle_of_finds {s : State} {i b kind : Nat} {h : Place} (f : s.Finds i h b kind) :
    ∃ t a, s.Fetches t i h a ∧
      s.issueBundle i kind = t.issueLive i h (s.liveMoves i (s.sp i) b) (if kind = 2 then opaqueBits b else 0) := by
  obtain ⟨l2, clean⟩ := f.here _ (List.mem_singleton.mpr rfl)
  obtain ⟨t, served, touches⟩ := State.wantShared_of_l2 l2 true
  have spindle := touches.sp i
  have view : t.viewLine i h (lineOf (s.sp i).ba.toNat) (s.sp i).memSeq = (s.skl h.skein (lineOf (s.sp i).ba.toNat)).val := by
    rw [State.viewLine_of_no_stores _ _ _ (by rw [spindle]; exact f.stores), touches.val]
  let a := t.fetchAhead i h
  let u := t.modSp i fun y => y.withAhead a
  have hu : u.sp i = (s.sp i).withAhead a := by rw [t.modSp_sp, spindle]
  have noPrecise : s.preciseDue i = none := by simp [State.preciseDue, f.loose]
  have word : u.issueWord i b = none :=
    State.issueWord_of_idle (by rw [hu]; exact f.ops) (by rw [hu]; exact f.arith) (by rw [hu]; exact f.resume) f.legal
  have drop : u.dropResume i = u.setSp i ((s.sp i).withAhead a) := by rw [State.dropResume_of_none (by rw [hu]; exact f.resume), hu]
  have fetches : s.Fetches (u.setSp i ((s.sp i).withAhead a)) i h a := {
    toInSpindle := ((State.InSpindle.of_inSkein touches.toInSkein i).trans (.setSp t i _ _)).trans (.setSp u i _ _)
    spindle := State.setSp_sp ..
    skein := touches.skein }
  refine ⟨_, a, fetches, ?_⟩
  unfold State.issueBundle
  simp only [f.issues, f.place, f.calm, noPrecise, f.admitted, served, view, State.fetched_of_none_ahead h _ (spindle ▸ f.ahead), f.bytes, clean, f.kind,
    ne_eq, not_true_eq_false, Bool.false_eq_true, if_false]
  show (match u.issueWord i b with
    | some v => v
    | none => (u.dropResume i).issueLive i h ((u.dropResume i).liveMoves i ((u.dropResume i).sp i) b) _) = _
  rw [word, drop, State.setSp_sp, fetches.liveMoves]

/-! ### The moves performed (R50, R68, R73) -/

theorem Spindle.retireOr_of_short {x : Spindle} (off : x.longOn = false) : x.retireOr none none = x.retired none := by
  simp [Spindle.retireOr, off, Spindle.retired]

theorem Spindle.retired_withAhead (x : Spindle) (a : List (Word × BitVec 128)) :
    (x.withAhead a).retired none = (x.retired none).withAhead a := rfl

theorem Spindle.retired_ba {x y : Spindle} (hb : x.ba = y.ba) (ha : x.arch.SameLoops y.arch) : (x.retired none).ba = (y.retired none).ba :=
  Spindle.retire_ba hb ha none

section
variable {s : State} {i : Nat} {h : Place}

/-- Where no store waits and no access is in flight, what follows an issue stays within the skein. -/
theorem State.inSkein_afterIssue {e : Effects} (early : e.early = false) (stores : (s.sp i).stores = [])
    (ops : ∀ r ∈ (s.sp i).ops, OpRec.access r = none) : s.InSkein (s.afterIssue i h e) h.skein := by
  unfold State.afterIssue
  extract_lets gathers s1 s2
  have h2 : s2 = s1 := by
    unfold s2
    rw [State.askOps_of_no_access (s := s1) h ops, State.drain_of_no_stores (s := s1) stores]
  rw [early, h2]
  exact (s.inSkein_freeCtr _ _).trans (State.inSkein_modSk _ _ _)

/-- The triggers of ALUs start in slot order, and the bundle retires. -/
theorem State.perform_of_alu {ms : List Live} (opq : Nat) (precise : (s.sp i).arch.precise = false) (off : (s.sp i).longOn = false)
    (alu : ∀ t ∈ ms.filterMap Live.trigger, t.u ≤ 3) :
    ∃ e : Effects, s.perform i h ms opq =
      (s.setSp i (((phase3 (s.sp i) ms).computes (ms.filterMap Live.trigger) (s.sp i).arch.constTime).retired none)).afterIssue i h e ∧
      e.early = false := by
  have started := State.startTrigs_of_alu (s := s) opq precise _ (phase3 (s.sp i) ms) alu
  have short : ((phase3 (s.sp i) ms).computes (ms.filterMap Live.trigger) (s.sp i).arch.constTime).longOn = false := by
    obtain ⟨a, rs, hy, -⟩ := (phase3 (s.sp i) ms).computes_eq (s.sp i).arch.constTime (ms.filterMap Live.trigger)
    rw [hy]
    exact (phase3_registers ms (s.sp i)).longOn.trans off
  refine ⟨{ x := (phase3 (s.sp i) ms).computes (ms.filterMap Live.trigger) (s.sp i).arch.constTime }, ?_, rfl⟩
  unfold State.perform
  simp only [started, Spindle.retireOr_of_short short, Option.isSome_none, Bool.false_and, Bool.false_eq_true, if_false]

/-- A coprocessor bundle whose guard is true forwards its request. -/
theorem State.perform_of_cop {ms : List Live} {r : Trig} (opq : Nat) (off : (s.sp i).longOn = false)
    (trig : ms.filterMap Live.trigger = [r]) (cop : 80 ≤ r.u) :
    ∃ e : Effects, s.perform i h ms opq =
      (s.setSp i ((s.startCop ((phase3 (s.sp i) ms).withOperand r.u r.a) r opq).retired none)).afterIssue i h e ∧ e.early = false := by
  have short : (s.startCop ((phase3 (s.sp i) ms).withOperand r.u r.a) r opq).longOn = false := by
    refine Eq.trans ?_ ((phase3_registers ms (s.sp i)).longOn.trans off)
    unfold State.startCop State.withSerial
    extract_lets
    split <;> rfl
  refine ⟨{ x := s.startCop ((phase3 (s.sp i) ms).withOperand r.u r.a) r opq }, ?_, rfl⟩
  unfold State.perform
  simp only [trig, List.foldl_cons, List.foldl_nil, State.startTrig_of_cop opq _ _ cop, Spindle.retireOr_of_short short, Option.isSome_none,
    Bool.false_and, Bool.false_eq_true, if_false]

end

/-! ### The three kinds of bundle (R42, R44, R73) -/

theorem State.longOn_of_canIssue {s : State} {i : Nat} (h : s.canIssue i = true) : (s.sp i).longOn = false := by
  simp only [State.canIssue, Bool.and_eq_true, Bool.not_eq_true'] at h
  obtain ⟨⟨⟨⟨⟨-, off⟩, -⟩, -⟩, -⟩, -⟩ := h
  exact off

/-- A coprocessor bundle has one move. -/
theorem State.length_liveMoves_of_cop (s : State) (i : Nat) (x : Spindle) {b : Nat} (kind : bundleKind b = 2) :
    (s.liveMoves i x b).length ≤ 1 := by
  have one : (bundleMoves b).length ≤ 1 := by
    simp only [bundleMoves, kind]
    exact List.length_filterMap_le _ _
  rw [State.liveMoves, List.length_map]
  exact (List.length_filter_le _ _).trans one

/-- A move that triggers writes nothing in phase 3. -/
theorem phase3_of_trigger {ms : List Live} {r : Trig} (one : ms.length ≤ 1) (trig : ms.filterMap Live.trigger = [r]) (x : Spindle) :
    phase3 x ms = x := by
  match ms, one with
  | [m], _ =>
    have hm : m.trigger.isSome = true := by
      cases h : m.trigger <;> simp_all
    exact if_pos hm

section
variable {s t : State} {i : Nat} {h : Place} {a : List (Word × BitVec 128)}

/-- What an issue leaves that changes the spindle to z. -/
theorem State.Fetches.issued {z : Spindle} {e : Effects} (f : s.Fetches t i h a) (early : e.early = false) (stores : z.stores = [])
    (ops : ∀ r ∈ z.ops, OpRec.access r = none) :
    s.InSpindle ((t.setSp i z).afterIssue i h e) i h.skein ∧ ((t.setSp i z).afterIssue i h e).sp i = z := by
  have after : (t.setSp i z).InSkein ((t.setSp i z).afterIssue i h e) h.skein :=
    State.inSkein_afterIssue early (by rwa [State.setSp_sp]) (by rwa [State.setSp_sp])
  exact ⟨(f.toInSpindle.trans (.setSp t i _ z)).trans (.of_inSkein after i), by rw [after.sp, State.setSp_sp]⟩

/-- Spindle x once a bundle of moves ms, whose triggers are those of ALUs, has retired (R50, R68). -/
def Spindle.afterAlus (x : Spindle) (ms : List Live) : Spindle :=
  ((phase3 x ms).computes (ms.filterMap Live.trigger) x.arch.constTime).retired none

theorem Spindle.afterAlus_withAhead (x : Spindle) (a : List (Word × BitVec 128)) (ms : List Live) :
    (x.withAhead a).afterAlus ms = (x.afterAlus ms).withAhead a := by
  unfold Spindle.afterAlus
  rw [phase3_withAhead, Spindle.computes_withAhead, Spindle.retired_withAhead]
  rfl

theorem Spindle.afterAlus_in_flight {x : Spindle} (ops : x.ops = []) (stores : x.stores = []) (ms : List Live) :
    (x.afterAlus ms).stores = [] ∧ ∀ r ∈ (x.afterAlus ms).ops, OpRec.access r = none := by
  have same := phase3_registers ms x
  obtain ⟨b, rs, hy, values⟩ := (phase3 x ms).computes_eq x.arch.constTime (ms.filterMap Live.trigger)
  unfold Spindle.afterAlus
  rw [hy]
  refine ⟨same.stores.trans stores, fun r hr => values r ?_⟩
  have hops : (phase3 x ms).ops ++ rs = rs := by rw [same.ops, ops, List.nil_append]
  exact hops ▸ hr

end

section
variable {s : State} {i b kind : Nat} {h : Place}

/-- A bundle whose triggers are those of ALUs, if any, takes effect. -/
theorem State.issueBundle_of_alu (f : s.Finds i h b kind) (fails : (s.liveMoves i (s.sp i) b).flatMap (Live.fails (s.sp i)) = [])
    (alu : ∀ r ∈ (s.liveMoves i (s.sp i) b).filterMap Live.trigger, r.u ≤ 3) :
    s.InSpindle (s.issueBundle i kind) i h.skein ∧
      { (s.issueBundle i kind).sp i with ahead := [] } = (s.sp i).afterAlus (s.liveMoves i (s.sp i) b) := by
  obtain ⟨t, a, fetches, issue⟩ := State.issueBundle_of_finds f
  generalize s.liveMoves i (s.sp i) b = ms at fails alu issue
  have hx := fetches.spindle
  have perform := issue.trans (State.issueLive_of_idle (s := t) (by rw [hx]; exact f.ops) (by rw [hx]; exact f.stores)
    (by rw [hx]; exact f.serial) (fun r hr => by have := alu r hr; omega) (by rw [hx]; exact fails)
    (fun r hr => State.trigFails_of_alu _ (alu r hr)) h _)
  obtain ⟨e, performed, early⟩ := State.perform_of_alu (s := t) (i := i) (h := h) (if kind = 2 then opaqueBits b else 0)
    (by rw [hx]; exact f.loose) (by rw [hx]; exact State.longOn_of_canIssue f.issues) alu
  have spindle : ((phase3 (t.sp i) ms).computes (ms.filterMap Live.trigger) (t.sp i).arch.constTime).retired none =
      ((s.sp i).afterAlus ms).withAhead a := by
    rw [hx]
    exact (s.sp i).afterAlus_withAhead a ms
  rw [spindle] at performed
  obtain ⟨stores, ops⟩ := Spindle.afterAlus_in_flight f.ops f.stores ms
  obtain ⟨within, now⟩ := fetches.issued (z := ((s.sp i).afterAlus ms).withAhead a) early stores ops
  rw [perform, performed]
  refine ⟨within, ?_⟩
  rw [now]
  have same : (s.sp i).withAhead [] = s.sp i := by
    rw [← f.ahead]
    rfl
  show ((s.sp i).afterAlus ms).withAhead [] = _
  rw [← Spindle.afterAlus_withAhead, same]

/-- The request that trigger r of a coprocessor unit makes of spindle x, hosted on place h, with opaque bits opq (R73, R187). -/
def State.copRequest (s : State) (h : Place) (x : Spindle) (r : Trig) (opq : Nat) : Serial :=
  { kind := .cop, addr := r.u * 16 + r.sock, data := (x.arch.unit r.u).o1.bits ++ r.a.bits,
    extra := BitVec.ofNat 128 (r.sock + r.mod * 2 ^ 4 + opq * 2 ^ 17), seq := x.serialSeq + 1,
    waitEpoch := if (s.sk h.skein).loose then 0 else (s.sk h.skein).openEpoch }

/-- The answer for which the operation of trigger r waits (R74, R76). -/
def Spindle.copAnswer (x : Spindle) (r : Trig) : OpRec :=
  { unit := r.u, trig := r.sock, kind := .answer 0 0 false 0, ser := x.serialSeq + 1, ba := x.ba }

theorem State.startCop_of_idle {x : Spindle} (ops : x.ops = []) (serial : x.serial = none) (place : x.host = some h) (r : Trig) (opq : Nat) :
    s.startCop (x.withOperand r.u r.a) r opq =
      { x.withOperand r.u r.a with
        ops := [x.copAnswer r], serial := some (s.copRequest h x r opq), serialSeq := x.serialSeq + 1 } := by
  have o1 : ((x.withOperand r.u r.a).arch.unit r.u).o1 = (x.arch.unit r.u).o1 := by
    simp [Spindle.withOperand, Arch.unit, Arch.modUnit]
  have ops' : (x.withOperand r.u r.a).ops = [] := ops
  have serial' : (x.withOperand r.u r.a).serial = none := serial
  have place' : (x.withOperand r.u r.a).host = some h := place
  simp only [State.startCop, State.withSerial, ops', serial', place', o1, List.nil_append, Option.isNone_none, if_true]
  rfl

/-- A coprocessor bundle whose guard is true leaves its request as the serial output and the answer in flight. -/
theorem State.issueBundle_of_cop (f : s.Finds i h b 2) (fails : (s.liveMoves i (s.sp i) b).flatMap (Live.fails (s.sp i)) = []) {r : Trig}
    (trig : (s.liveMoves i (s.sp i) b).filterMap Live.trigger = [r]) (cop : 80 ≤ r.u) (bound : s.copBinding i r.u ≠ 0) :
    s.InSpindle (s.issueBundle i 2) i h.skein ∧ ((s.issueBundle i 2).sp i).ops = [(s.sp i).copAnswer r] ∧
      ((s.issueBundle i 2).sp i).serial = some (s.copRequest h (s.sp i) r (opaqueBits b)) ∧
      ((s.issueBundle i 2).sp i).ba = ((s.sp i).retired none).ba := by
  obtain ⟨t, a, fetches, issue⟩ := State.issueBundle_of_finds f
  have one := s.length_liveMoves_of_cop i (s.sp i) f.kind_eq_two
  generalize s.liveMoves i (s.sp i) b = ms at fails trig issue one
  have hx := fetches.spindle
  have bound' : t.copBinding i r.u ≠ 0 := by rwa [fetches.copBinding]
  have only : ∀ q ∈ ms.filterMap Live.trigger, q = r := fun q hq => List.mem_singleton.mp (trig ▸ hq)
  have perform := issue.trans (State.issueLive_of_idle (s := t) (by rw [hx]; exact f.ops) (by rw [hx]; exact f.stores)
    (by rw [hx]; exact f.serial) (fun q hq => by rw [only q hq]; omega) (by rw [hx]; exact fails)
    (fun q hq => by rw [only q hq]; exact State.trigFails_of_cop _ cop bound') h _)
  obtain ⟨e, performed, early⟩ := State.perform_of_cop (s := t) (i := i) (h := h) (opaqueBits b)
    (by rw [hx]; exact State.longOn_of_canIssue f.issues) trig cop
  rw [phase3_of_trigger one trig, hx, State.startCop_of_idle (x := (s.sp i).withAhead a) (h := h) f.ops f.serial f.place]
    at performed
  have epoch : t.copRequest h ((s.sp i).withAhead a) r (opaqueBits b) = s.copRequest h (s.sp i) r (opaqueBits b) := by
    obtain ⟨ls, e⟩ := fetches.skein
    unfold State.copRequest
    rw [e]
    rfl
  rw [epoch] at performed
  generalize hz : Spindle.retired _ none = z at performed
  obtain ⟨within, now⟩ := fetches.issued (z := z) early (by rw [← hz]; exact f.stores) (by
    rw [← hz]
    exact List.forall_mem_singleton.mpr rfl)
  rw [perform, if_pos rfl, performed]
  refine ⟨within, ?_⟩
  rw [now, ← hz]
  exact ⟨rfl, rfl, Spindle.retired_ba rfl ⟨rfl, rfl, rfl, rfl⟩⟩

end

/-- Settles O5: the fetch finds the bundle, whose moves issue, and their triggers start. -/
theorem bundleIssuesByItsKind : Obligations.BundleIssuesByItsKind := by
  intro sp s h ready resume admitted ahead x l b ms y ts z here legal fails
  have finds {kind : Nat} (hk : (if bundleKind b = 3 then 0 else bundleKind b) = kind) : s.Finds sp h b kind :=
    ⟨ready, resume, admitted, ahead, here, rfl, legal, hk⟩
  have next {c : Instr} {kind : Nat} (within : s.InSpindle (s.issueBundle sp kind) sp h.skein) (hc : exec c s = done (s.issueBundle sp kind)) :
      exec c s = .next (s.issueBundle sp kind) := hc.trans (done_of_quiet _ (within.quiet ready.quiet))
  have others {u : State} (within : s.InSpindle u sp h.skein) (j : SpId) (hj : j ≠ sp) : u.sp j = s.sp j :=
    within.spindles j (mt Fin.ext hj)
  have alus {c : Instr} {kind : Nat} (hc : exec c s = done (s.issueBundle sp kind))
      (hk : (if bundleKind b = 3 then 0 else bundleKind b) = kind) (alu : ∀ r ∈ ts, r.u ≤ 3) :
      ∃ t, exec c s = .next t ∧ s.SameOutside t ∧ { t.sp sp with ahead := [] } = z ∧ ∀ j, j ≠ sp → t.sp j = s.sp j := by
    obtain ⟨within, now⟩ := State.issueBundle_of_alu (finds hk) fails alu
    exact ⟨_, next within hc, within.sameOutside, now, others within⟩
  refine ⟨fun alu => ⟨fun kind => alus rfl (by rw [kind]; rfl) alu, fun kind => alus rfl (by rw [kind]; rfl) alu⟩,
    fun kind => ⟨fun noTrig => ?_, fun r trig cop bound => ?_⟩⟩
  · have same : z = y := by
      show ((phase3 x ms).computes ts x.arch.constTime).retired none = _
      rw [noTrig]
      rfl
    exact same ▸ alus (c := .bundleCoprocessor sp) rfl (by rw [kind]; rfl) (by simp [noTrig])
  · obtain ⟨within, ops, serial, ba⟩ := State.issueBundle_of_cop (finds (by rw [kind]; rfl)) fails trig cop bound
    have off : phase3 x ms = x := phase3_of_trigger (s.length_liveMoves_of_cop sp x kind) trig x
    refine ⟨_, _, next (c := .bundleCoprocessor sp) within rfl, within.sameOutside, others within, within.skeins, ops, ?_, serial, rfl, rfl, rfl,
      rfl, rfl, rfl, rfl⟩
    rw [ba]
    show _ = ((phase3 x ms).retired none).ba
    rw [off]

end Sys2Proof.Machine

/-!
PROOFS. What a pending resume does to the claim about the system operations (R103, R140).
-/

namespace Sys2Proof.Machine

/-- Refutes O3: a SYNC issued in place of the bundle that was to resume a long operation drops the record of it (R140), where the claim
keeps every register but operand 0. -/
theorem not_systemTriggersOfReadySpindle : ¬ Obligations.SystemTriggersOfReadySpindle := by
  intro claim
  obtain ⟨⟨t, next, claimed, -⟩, -⟩ := claim 0 _ _ ready_resumingSpindle
  rw [next_of_exec rfl (by decide +kernel) next] at claimed
  have dropped := congrArg (fun x => x.arch.progress.done) claimed
  revert dropped
  decide +kernel

end Sys2Proof.Machine

/-!
PROOFS. A trigger issued as a bundle of its own: from a ready spindle to the operation in flight, and from there to what the operation
leaves when it completes (R50, R58, R60, R63, R98, R102).
-/

namespace Sys2Proof.Machine

/-! ### The move of a trigger (R55, R58, R63) -/

theorem trigCount_le (u : Nat) : trigCount u ≤ 12 := by
  unfold trigCount
  split_ifs
  · exact le_rfl
  · exact le_rfl
  · split <;> decide

theorem sockNum_of_low {u : Nat} (sock : Nat) (unit : u ≤ 19) : sockNum u sock = 0x200 + 16 * u + sock := if_neg (by omega)

/-- The number of a socket of units 0 to 19 names that socket. -/
theorem sockOf_sockNum {u sock : Nat} (unit : u ≤ 19) (role : sock < 4 + trigCount u) : sockOf (sockNum u sock) = .unit u sock := by
  have count := trigCount_le u
  have below : 0x200 + 16 * u + sock < 0x340 := by omega
  have listed : between 0x340 0x6FF (0x200 + 16 * u + sock) = false := by
    simp only [between, Bool.and_eq_false_iff, decide_eq_false_iff_not]
    omega
  have quot : (0x200 + 16 * u + sock - 0x200) / 16 = u := by omega
  have rem : (0x200 + 16 * u + sock) % 16 = sock := by omega
  unfold sockOf
  simp only [sockNum_of_low sock unit, below, listed, quot, rem, role, if_true]
  rw [if_neg (by omega), if_neg (by omega), if_neg (by omega), if_neg (by omega), if_neg Bool.false_ne_true]

/-- The unit of the trigger is one of 0 to 19, and the socket one of its triggers (R63). -/
structure Trig.Known (t : Trig) : Prop where
  unit : t.u ≤ 19
  low : 4 ≤ t.sock
  high : t.sock < 4 + trigCount t.u

/-- The move that starts trigger t. -/
def Trig.move (t : Trig) : Live := { slot := t.slot, dst := sockNum t.u t.sock, mod := t.mod, val := t.a }

section
variable {t : Trig} (known : t.Known)
include known

theorem Trig.Known.sockOf_move : sockOf t.move.dst = .unit t.u t.sock := sockOf_sockNum known.unit known.high

theorem Trig.Known.trigger_move : t.move.trigger = some t := by
  unfold Live.trigger
  rw [known.sockOf_move]
  exact if_pos known.low

theorem Trig.Known.fails_move (x : Spindle) : t.move.fails x = [] := by
  have general : t.move.dst ≠ 0x16C := by
    rw [show t.move.dst = _ from sockNum_of_low t.sock known.unit]
    omega
  unfold Live.fails
  simp only [known.sockOf_move, general, false_and, if_false]
  rfl

end

/-- Trigger t may stand in a bundle of its own: in slot 0, with a modifier that it allows, on an operand 0 as the socket takes it (R47, R59). -/
structure Trig.Alone (t : Trig) : Prop extends t.Known where
  slot : t.slot = 0
  allowed : modMisuse t.u t.sock t.mod = false
  fits : convertTo (unitWidth t.u 0) true t.a = t.a

/-! ### The issue (R50, R77, R140) -/

/-- Spindle x once a resume that its bundle does not take up is dropped, with the record of the long operation (R140). -/
def Spindle.dropped (x : Spindle) : Spindle := if x.resume then { x with resume := false, arch := { x.arch with progress := {} } } else x

theorem State.dropResume_sp (s : State) (i : Nat) : (s.dropResume i).sp i = (s.sp i).dropped := s.modSp_sp i _

theorem State.inSpindle_dropResume (s : State) (i k : Nat) : s.InSpindle (s.dropResume i) i k := .setSp s i k _

/-- A dropped resume touches the record of the long operation and no other register. -/
theorem Spindle.dropped_arch (x : Spindle) : ∃ p, x.dropped.arch = { x.arch with progress := p } := by
  unfold Spindle.dropped
  split
  · exact ⟨_, rfl⟩
  · exact ⟨x.arch.progress, rfl⟩

section
variable (x : Spindle)

@[simp] theorem Spindle.dropped_ops : x.dropped.ops = x.ops := by unfold Spindle.dropped; split <;> rfl
@[simp] theorem Spindle.dropped_stores : x.dropped.stores = x.stores := by unfold Spindle.dropped; split <;> rfl
@[simp] theorem Spindle.dropped_serial : x.dropped.serial = x.serial := by unfold Spindle.dropped; split <;> rfl
@[simp] theorem Spindle.dropped_longOn : x.dropped.longOn = x.longOn := by unfold Spindle.dropped; split <;> rfl
@[simp] theorem Spindle.dropped_precise : x.dropped.arch.precise = x.arch.precise := by
  obtain ⟨p, h⟩ := x.dropped_arch
  rw [h]
@[simp] theorem Spindle.dropped_constTime : x.dropped.arch.constTime = x.arch.constTime := by
  obtain ⟨p, h⟩ := x.dropped_arch
  rw [h]

end

section
variable {s : State} {i : Nat} {h : Place}

/-- A trigger of a ready spindle, unless of a long operation, goes on to its moves. -/
theorem State.issueTrig_of_ready (ready : s.Ready i h) {t : Trig} (alone : t.Alone) (short : longTrigger t.u t.sock = false) :
    s.issueTrig i t.u t.sock t.mod t.a = (s.dropResume i).issueLive i h [t.move] 0 := by
  have noPrecise : s.preciseDue i = none := by simp [State.preciseDue, ready.loose]
  have noSync : s.syncDue i = none := by simp [State.syncDue, ready.ops, ready.arith]
  have noResume : s.resumeMove i [] = none := by simp [State.resumeMove]
  unfold State.issueTrig State.issueMoves
  simp only [ready.issues, ready.place, ready.calm, noPrecise, noSync, ite_self, short, alone.allowed, alone.fits, Bool.false_eq_true, if_false,
    noResume]
  rw [Trig.move, alone.slot]

/-- A trigger alone, which starts an operation and no control transfer, call, return or long operation, leaves z and the bundle retired. -/
theorem State.issueLive_of_trigger {t : Trig} {z : Spindle} (known : t.Known) (units : t.u ≠ 10 ∧ t.u ≠ 11 ∧ t.u ≠ 15)
    (ops : (s.sp i).ops = []) (stores : (s.sp i).stores = []) (serial : (s.sp i).serial = none) (fails : s.trigFails i (s.sp i) t = [])
    (start : s.startTrig 0 (s.sp i) { x := s.sp i } t = { x := z }) (off : z.longOn = false) :
    s.issueLive i h [t.move] 0 = (s.setSp i (z.retired none)).afterIssue i h { x := z } := by
  have trig : [t.move].filterMap Live.trigger = [t] := by
    rw [List.filterMap_cons, known.trigger_move]
    rfl
  have only : ∀ r ∈ [t.move].filterMap Live.trigger, r = t := fun r hr => List.mem_singleton.mp (trig ▸ hr)
  have same : phase3 (s.sp i) [t.move] = s.sp i := phase3_of_trigger le_rfl trig _
  rw [State.issueLive_of_idle ops stores serial (fun r hr => by rw [only r hr]; exact units)
    (by rw [List.flatMap_singleton, known.fails_move]) (fun r hr => by rw [only r hr, same]; exact fails)]
  unfold State.perform
  simp only [trig, same, List.foldl_cons, List.foldl_nil, start, Spindle.retireOr_of_short off, Option.isSome_none, Bool.false_and,
    Bool.false_eq_true, if_false]

theorem State.trigFails_of_compute (x : Spindle) {t : Trig} (unit : t.u ≤ 9 ∨ t.u = 16) : s.trigFails i x t = [] := by
  unfold State.trigFails
  extract_lets
  repeat rw [if_neg (by omega)]

theorem State.startTrig_of_compute (opq : Nat) {old : Spindle} (precise : old.arch.precise = false) (y : Spindle) {t : Trig}
    (unit : t.u ≤ 9 ∨ t.u = 16) (short : longTrigger t.u t.sock = false) :
    s.startTrig opq old { x := y } t = { x := startCompute (y.withOperand t.u t.a) t false old.arch.constTime } := by
  simp only [State.startTrig, short, Bool.false_eq_true, if_false, if_pos unit, precise]
  rfl

/-- Spindle x with the operation of the computing unit's trigger t in flight, and its bundle retired (R58, R60, R68). -/
def Spindle.afterCompute (x : Spindle) (t : Trig) : Spindle :=
  (startCompute (x.dropped.withOperand t.u t.a) t false x.arch.constTime).retired none

theorem Spindle.afterCompute_in_flight {x : Spindle} (ops : x.ops = []) (stores : x.stores = []) (t : Trig) :
    (x.afterCompute t).stores = [] ∧ ∀ q ∈ (x.afterCompute t).ops, OpRec.access q = none := by
  obtain ⟨r, started, value⟩ := startCompute_eq (x.dropped.withOperand t.u t.a) t false x.arch.constTime
  unfold Spindle.afterCompute
  rw [started]
  refine ⟨x.dropped_stores.trans stores, ?_⟩
  show ∀ q ∈ x.dropped.ops ++ [r], OpRec.access q = none
  rw [x.dropped_ops, ops]
  exact List.forall_mem_singleton.mpr value

/-- The trigger of a computing unit of a ready spindle starts its operation, and the bundle retires. -/
theorem State.issueTrig_of_compute (ready : s.Ready i h) {t : Trig} (alone : t.Alone) (unit : t.u ≤ 9 ∨ t.u = 16)
    (short : longTrigger t.u t.sock = false) :
    s.InSpindle (s.issueTrig i t.u t.sock t.mod t.a) i h.skein ∧ (s.issueTrig i t.u t.sock t.mod t.a).sp i = (s.sp i).afterCompute t := by
  have issue := State.issueTrig_of_ready ready alone short
  have spindle := s.dropResume_sp i
  have dropped := s.inSpindle_dropResume i h.skein
  generalize s.dropResume i = d at issue spindle dropped
  have start := State.startTrig_of_compute (s := d) 0 (old := d.sp i) (by rw [spindle, Spindle.dropped_precise, ready.loose]) (d.sp i) unit short
  have off : (startCompute ((d.sp i).withOperand t.u t.a) t false (d.sp i).arch.constTime).longOn = false := by
    show (d.sp i).longOn = false
    rw [spindle, Spindle.dropped_longOn, State.longOn_of_canIssue ready.issues]
  have live := State.issueLive_of_trigger (h := h) alone.toKnown (by omega) (by rw [spindle, Spindle.dropped_ops, ready.ops])
    (by rw [spindle, Spindle.dropped_stores, ready.stores]) (by rw [spindle, Spindle.dropped_serial, ready.serial])
    (State.trigFails_of_compute _ unit) start off
  rw [spindle, Spindle.dropped_constTime] at live
  change _ = (d.setSp i ((s.sp i).afterCompute t)).afterIssue i h _ at live
  obtain ⟨stores, ops⟩ := Spindle.afterCompute_in_flight ready.ops ready.stores t
  have after : (d.setSp i ((s.sp i).afterCompute t)).InSkein (d.issueLive i h [t.move] 0) h.skein := by
    rw [live]
    exact State.inSkein_afterIssue rfl (by rwa [State.setSp_sp]) (by rwa [State.setSp_sp])
  rw [issue]
  exact ⟨(dropped.trans (.setSp d i _ _)).trans (.of_inSkein after i), by rw [after.sp, State.setSp_sp]⟩

end

/-! ### What a completion leaves (R60, R98, R102) -/

section
variable (x : Spindle) (r : OpRec)

theorem Spindle.complete_status : ((x.complete r).arch.unit r.unit).st = ((x.arch.unit r.unit).st &&& ~~~r.clrSt) ||| r.orSt := by
  unfold Spindle.complete
  dsimp only
  split_ifs <;> simp [Arch.unit, Arch.modUnit]

theorem Spindle.complete_pendInfo : (x.complete r).arch.pendInfo = x.arch.pendInfo ||| r.cause := by
  unfold Spindle.complete
  dsimp only
  split_ifs <;> simp_all [Arch.modUnit]

theorem Spindle.complete_getG (k : Nat) : (x.complete r).arch.getG k = x.arch.getG k := by
  unfold Spindle.complete
  dsimp only
  split_ifs <;> rfl

end

/-! ### The operation of an integer unit (R58, R79, R81, R83) -/

/-- Bit k of the status once outcome o has entered a status word st (R65, R98). -/
def OpOut.status (o : OpOut) (st : Word) (k : Nat) : Bool := (st.getLsbD k && !o.clr.getLsbD k) || o.set.getLsbD k

/-- Operation q of unit u holds outcome o until it completes: of its causes, an integer overflow enters the pending record (R98, R102). -/
structure OpRec.Holds (q : OpRec) (u : Nat) (o : OpOut) : Prop where
  unit : q.unit = u
  res : q.res = ⟨o.res, false⟩
  set : q.orSt = o.set
  clr : q.clrSt = o.clr
  cause : q.cause ≠ 0 ↔ o.iov = true

/-- With no trap enabled and PRECISE 0 an operation's record holds its outcome. -/
theorem opRecord_holds (t : Trig) (ba : Word) (o : OpOut) (mask pred : Nat) (unit : t.u ≤ 19) :
    OpRec.Holds { opRecord t ba o false 0 mask with pred := pred } t.u o where
  unit := rfl
  res := rfl
  set := rfl
  clr := rfl
  cause := by
    have small : 2 ^ (8 + t.u) ≤ 2 ^ 27 := Nat.pow_le_pow_right (by decide) (by omega)
    cases hiov : o.iov
    · simp [opRecord, hiov, b2n]
    · have nonzero : BitVec.ofNat 64 (1 + 2 ^ (8 + t.u)) ≠ 0 := fun h => by
        have := congrArg BitVec.toNat h
        rw [BitVec.toNat_ofNat, Nat.mod_eq_of_lt (by omega)] at this
        exact absurd this (by simp)
      simpa [opRecord, hiov, b2n] using nonzero

theorem loopEndCheck_arch (ba : Word) : ∀ (n : Nat) (a : Arch), ∃ c d, (loopEndCheck ba n a).1 = { a with loopCount := c, loopDepth := d }
  | 0, a => ⟨a.loopCount, a.loopDepth, rfl⟩
  | n + 1, a => by
    obtain ⟨c, d, ih⟩ := loopEndCheck_arch ba n { a with loopDepth := a.loopDepth - 1 }
    simp only [loopEndCheck]
    split_ifs
    · exact ⟨a.loopCount, a.loopDepth, rfl⟩
    · exact ⟨_, a.loopDepth, rfl⟩
    · exact ⟨c, d, ih⟩
    · exact ⟨a.loopCount, a.loopDepth, rfl⟩

section
variable (x : Spindle) {t : Trig}

theorem Spindle.withOperand_unit (u : Nat) (a : Cap) : (x.withOperand u a).arch.unit u = { x.arch.unit u with o0 := a } :=
  tget_tmod_same ({} : UnitSock) x.arch.units u fun w => { w with o0 := a }

/-- Of the registers, a trigger leaves operand 0, the progress of a long operation and the loop unit other than they were. -/
theorem Spindle.afterCompute_arch : ∃ p c d, (x.afterCompute t).arch =
    { (x.withOperand t.u t.a).arch with progress := p, loopCount := c, loopDepth := d } := by
  obtain ⟨p, hp⟩ := x.dropped_arch
  obtain ⟨c, d, loops⟩ := loopEndCheck_arch x.dropped.ba 5 (x.dropped.withOperand t.u t.a).arch
  refine ⟨p, c, d, ?_⟩
  show (loopEndCheck x.dropped.ba 5 (x.dropped.withOperand t.u t.a).arch).1 = _
  rw [loops]
  simp only [Spindle.withOperand, hp, Arch.modUnit]

theorem Spindle.dropped_unit (u : Nat) : x.dropped.arch.unit u = x.arch.unit u := by
  obtain ⟨p, hp⟩ := x.dropped_arch
  rw [hp]
  rfl

/-- A trigger of units 0 to 5 leaves one operation in flight, which holds what the unit computes. -/
theorem Spindle.afterCompute_ops (ops : x.ops = []) (unit : t.u ≤ 5) :
    ∃ q, (x.afterCompute t).ops = [q] ∧ q.Holds t.u (computeOp t (x.arch.unit t.u) x.arch.constTime) := by
  have unitNow : (x.dropped.withOperand t.u t.a).arch.unit t.u = { x.arch.unit t.u with o0 := t.a } := by
    rw [Spindle.withOperand_unit, x.dropped_unit]
  have noTraps : between 6 8 t.u = false := by
    simp only [between, Bool.and_eq_false_iff, decide_eq_false_iff_not]
    omega
  refine ⟨_, ?_, opRecord_holds t x.dropped.ba (computeOp t (x.arch.unit t.u) x.arch.constTime) (opMask t)
    (if t.u = 16 then bits t.mod 0 4 else 0) (by omega)⟩
  show x.dropped.ops ++ [_] = _
  rw [x.dropped_ops, ops, unitNow, noTraps]
  rfl

end

section
variable {s : State} {i : Nat} {h : Place}

/-- A trigger of units 0 to 5 of a ready spindle leaves in its unit, when its operation completes, what the unit computes. -/
theorem State.computes_of_trigger (ready : s.Ready i h) {t : Trig} (alone : t.Alone) (unit : t.u ≤ 5) {c : Instr}
    (issue : exec c s = done (s.issueTrig i t.u t.sock t.mod t.a)) {o : OpOut}
    (out : computeOp t ((s.sp i).arch.unit t.u) (s.sp i).arch.constTime = o) :
    s.Computes c i t.u o.res (o.status ((s.sp i).arch.unit t.u).st) o.iov := by
  have short : longTrigger t.u t.sock = false := by
    have h17 : ¬ 17 ≤ t.u := by omega
    have h8 : t.u ≠ 8 := by omega
    simp [longTrigger, between, h17, h8]
  obtain ⟨within, now⟩ := State.issueTrig_of_compute ready alone (by omega) short
  obtain ⟨q, ops, holds⟩ := (s.sp i).afterCompute_ops (t := t) ready.ops unit
  obtain ⟨p, c, d, arch⟩ := (s.sp i).afterCompute_arch (t := t)
  rw [out] at holds
  have status : (((s.sp i).afterCompute t).arch.unit t.u).st = ((s.sp i).arch.unit t.u).st := by
    rw [arch]
    show (((s.sp i).withOperand t.u t.a).arch.unit t.u).st = _
    rw [Spindle.withOperand_unit]
  refine ⟨_, q, issue.trans (done_of_quiet _ (within.quiet ready.quiet)), by rw [now, ops], holds.unit, ?_, fun k hk => ?_, ?_, fun k => ?_⟩
  · rw [now, ← holds.unit, Spindle.complete_result _ _ (by rw [holds.unit]; omega) (by rw [holds.unit]; omega), holds.res]
  · rw [now, ← holds.unit, Spindle.complete_status, holds.unit, status, holds.set, holds.clr]
    simp [OpOut.status, hk]
  · rw [now, Spindle.complete_pendInfo, arch]
    show (s.sp i).arch.pendInfo ||| q.cause ≠ 0 ↔ _
    rw [ready.arith, show (0 : Word) ||| q.cause = q.cause from BitVec.zero_or]
    exact holds.cause
  · rw [now, Spindle.complete_getG, arch]
    rfl

end

end Sys2Proof.Machine

/-!
PROOFS. The results and the status bits of the ALUs, the multiplier and the divider (R65, R79 to R83).
-/

namespace Sys2Proof.Machine

/-! ### A word moved to a trigger (R59, R63) -/

@[simp] theorem Cap64_ofWord (a : Word) : Cap64 (ofWord a) = a := by
  simp [Cap64, ofWord]

theorem convertTo_ofWord (a : Word) : convertTo .w64 true (ofWord a) = ofWord a := by
  simp [convertTo, ofWord]

/-- The trigger that a move of word a to socket sock of unit u starts. -/
def wordTrig (u sock : Nat) (a : Word) : Trig := { u := u, sock := sock, a := ofWord a }

/-- The ALUs, the multiplier and the divider take a word as operand 0. -/
theorem unitWidth_operand {u : Nat} (unit : u ≤ 5) : unitWidth u 0 = .w64 := by
  interval_cases u <;> rfl

theorem wordTrig_alone {u sock : Nat} (a : Word) (unit : u ≤ 5) (low : 4 ≤ sock) (high : sock < 4 + trigCount u) : (wordTrig u sock a).Alone where
  unit := unit.trans (by decide)
  low := low
  high := high
  slot := rfl
  allowed := rfl
  fits := by
    show convertTo (unitWidth u 0) true (ofWord a) = ofWord a
    rw [unitWidth_operand unit, convertTo_ofWord]

/-! ### The status bits (R65) -/

theorem getLsbD_aluBits (c v : Bool) (k : Nat) : (aluBits c v).getLsbD k = if k = 0 then c else if k = 1 then v else false := by
  match k with
  | 0 => cases c <;> cases v <;> rfl
  | 1 => cases c <;> cases v <;> rfl
  | k + 2 =>
    have low : b2n c + 2 * b2n v < 2 ^ 2 := by cases c <;> cases v <;> decide
    have none : (b2n c + 2 * b2n v).testBit (k + 2) = false :=
      Nat.testBit_lt_two_pow (low.trans_le (Nat.pow_le_pow_right (by decide) (by omega)))
    simp [aluBits, BitVec.getLsbD_ofNat, none]

section
variable {o : OpOut} {c v : Bool} (set : o.set = aluBits c v) (st : Word) (k : Nat)
include set

/-- An outcome that clears no status bit adds to bits 0 and 1. -/
theorem OpOut.status_of_keep (clr : o.clr = 0) :
    o.status st k = if k = 0 then st.getLsbD 0 || c else if k = 1 then st.getLsbD 1 || v else st.getLsbD k := by
  simp only [OpOut.status, clr, set, getLsbD_aluBits]
  split_ifs <;> simp_all

/-- An outcome that clears bit 0, the C of an ALU, first writes it. -/
theorem OpOut.status_of_clear (clr : o.clr = 1) :
    o.status st k = if k = 0 then c else if k = 1 then st.getLsbD 1 || v else st.getLsbD k := by
  simp only [OpOut.status, clr, set, getLsbD_aluBits]
  split_ifs <;> simp_all

end

theorem State.Computes.congr {s : State} {c : Instr} {i u : Nat} {r r' : BitVec 128} {st st' : Nat → Bool} {event event' : Bool}
    (computes : s.Computes c i u r st event) (res : r = r') (status : ∀ k, st k = st' k) (raised : event = event') :
    s.Computes c i u r' st' event' := by
  rwa [← res, ← raised, ← funext status]

/-! ### The three units -/

section
variable {s : State} {sp : SpId} {h : Place} (ready : s.Ready sp h) (a : Word) {c : Instr} {o : OpOut} {v : Bool}
include ready

/-- A trigger of an ALU that aluOp answers with V set as v, and with C written or kept (R79). -/
theorem State.Ready.computes_of_alu (u : AluId) (sock : Nat) {r : Word} {carry : Option Bool} {event : Bool}
    (issue : exec c s = done (s.issueTrig sp u sock 0 (ofWord a)))
    (out : aluOp sock a (Cap64 ((s.sp sp).arch.unit u).o1) ((s.sp sp).arch.unit u).st = o := by rfl) (res : o.res = r.setWidth 128 := by rfl)
    (clr : o.clr = if carry.isSome then 1 else 0 := by rfl) (set : o.set = aluBits (carry.getD false) v := by rfl)
    (iov : o.iov = (event && v) := by rfl) (low : 4 ≤ sock := by decide) (high : sock < 16 := by decide) :
    s.Computes c sp u (r.setWidth 128)
      (fun k => if k = 0 then carry.getD (((s.sp sp).arch.unit u).st.getLsbD 0)
        else if k = 1 then ((s.sp sp).arch.unit u).st.getLsbD 1 || v else ((s.sp sp).arch.unit u).st.getLsbD k) (event && v) := by
  have alu : (u : Nat) < 4 := u.isLt
  have count : trigCount u = 12 := if_pos alu
  have unit : (u : Nat) ≤ 5 := by omega
  refine (State.computes_of_trigger ready (t := wordTrig u sock a) (wordTrig_alone a unit low (by omega)) unit issue ?_).congr res (fun k => ?_) iov
  · refine (if_pos alu).trans ?_
    show aluOp sock (Cap64 (ofWord a)) _ _ = o
    rw [Cap64_ofWord]
    exact out
  · cases carry with
    | none => exact (OpOut.status_of_keep set _ k clr).trans (by simp [wordTrig])
    | some carry => exact OpOut.status_of_clear set _ k clr

/-- A trigger of the multiplier that mulOp answers with V set as v (R81). -/
theorem State.Ready.computes_of_multiplier (sock : Nat) {r : BitVec 128} (issue : exec c s = done (s.issueTrig sp 4 sock 0 (ofWord a)))
    (out : mulOp sock a (Cap64 ((s.sp sp).arch.unit 4).o1) (s.sp sp).arch.constTime = o := by rfl) (res : o.res = r := by rfl)
    (clr : o.clr = 0 := by rfl) (set : o.set = aluBits false v := by rfl) (iov : o.iov = v := by rfl) (low : 4 ≤ sock := by decide) (high : sock < 8 := by decide) :
    s.Computes c sp 4 r (fun k => if k = 1 then ((s.sp sp).arch.unit 4).st.getLsbD 1 || v else ((s.sp sp).arch.unit 4).st.getLsbD k) v := by
  have unit : (wordTrig 4 sock a).u ≤ 5 := by show 4 ≤ 5; decide
  refine (State.computes_of_trigger ready (wordTrig_alone a unit low high) unit issue ?_).congr res (fun k => ?_) iov
  · show mulOp sock (Cap64 (ofWord a)) _ _ = o
    rw [Cap64_ofWord]
    exact out
  · refine (OpOut.status_of_keep set _ k clr).trans ?_
    by_cases hk : k = 0 <;> simp [hk, wordTrig]

/-- A trigger of the divider that divOp answers with DZ set as dz and V as v (R83). -/
theorem State.Ready.computes_of_divider (sock : Nat) {r : Word} {dz : Bool} (issue : exec c s = done (s.issueTrig sp 5 sock 0 (ofWord a)))
    (out : divOp sock a (Cap64 ((s.sp sp).arch.unit 5).o1) (s.sp sp).arch.constTime = o) (res : o.res = r.setWidth 128 := by rfl)
    (clr : o.clr = 0 := by rfl) (set : o.set = aluBits dz v := by rfl) (iov : o.iov = false := by rfl)
    (low : 4 ≤ sock := by decide) (high : sock < 8 := by decide) :
    s.Computes c sp 5 (r.setWidth 128) (fun k => if k = 0 then ((s.sp sp).arch.unit 5).st.getLsbD 0 || dz
      else if k = 1 then ((s.sp sp).arch.unit 5).st.getLsbD 1 || v else ((s.sp sp).arch.unit 5).st.getLsbD k) false := by
  have unit : (wordTrig 5 sock a).u ≤ 5 := by show 5 ≤ 5; decide
  refine (State.computes_of_trigger ready (wordTrig_alone a unit low high) unit issue ?_).congr res
    (fun k => OpOut.status_of_keep set _ k clr) iov
  show divOp sock (Cap64 (ofWord a)) _ _ = o
  rw [Cap64_ofWord]
  exact out

end

/-! ### The ALUs (R79, R80) -/

theorem addOverflow_without_carry (a b : Word) : addOverflow a b false = outside64 (a.toInt + b.toInt) := by
  simp [addOverflow, overflows64, outside64, b2n]

/-- Settles O39: each trigger completes with what aluOp gives, whose flags are those of the table. -/
theorem aluResultsAndFlags : Obligations.AluResultsAndFlags := by
  intro sp u a s h ready w b c does sum
  have overflow : addOverflow a b false = outside64 sum := addOverflow_without_carry a b
  exact ⟨ready.computes_of_alu a u 4 rfl (set := congrArg (aluBits _) overflow), ready.computes_of_alu a u 5 rfl,
    ready.computes_of_alu a u 6 rfl (set := congrArg (aluBits false) overflow) (iov := overflow), ready.computes_of_alu a u 7 rfl,
    ready.computes_of_alu a u 8 rfl, ready.computes_of_alu a u 9 rfl, ready.computes_of_alu a u 10 rfl, ready.computes_of_alu a u 11 rfl,
    ready.computes_of_alu a u 12 rfl, ready.computes_of_alu a u 13 rfl, ready.computes_of_alu a u 14 rfl, ready.computes_of_alu a u 15 rfl⟩

/-! ### The multiplier and the divider (R81, R83) -/

theorem setWidth_mul (a b : Word) : (a * b).setWidth 128 = BitVec.ofNat 128 (a.toNat * b.toNat % 2 ^ 64) := by
  apply BitVec.eq_of_toNat_eq
  simp

/-- The unsigned quotient and remainder are those of every division of a by b. -/
theorem udiv_umod_of_division {a b : Word} {q r : Nat} (division : a.toNat = b.toNat * q + r) (less : r < b.toNat) :
    a / b = BitVec.ofNat 64 q ∧ a % b = BitVec.ofNat 64 r := by
  obtain ⟨hq, hr⟩ := (Nat.div_mod_unique (by omega)).mpr ⟨(Nat.add_comm r _).trans division.symm, less⟩
  rw [BitVec.udiv_def, BitVec.umod_def, hq, hr]
  exact ⟨rfl, rfl⟩

/-- The quotient rounded toward zero and its remainder are those of every division whose remainder is 0 or has the sign of a. -/
theorem tdiv_tmod_of_division {a b q r : Int} (division : a = b * q + r) (less : r.natAbs < b.natAbs) (sign : r = 0 ∨ (r < 0 ↔ a < 0)) :
    a.tdiv b = q ∧ a.tmod b = r := by
  have nonzero : b ≠ 0 := by omega
  rcases le_or_gt 0 a with pos | neg
  · exact (Int.tdiv_tmod_unique pos nonzero).mpr ⟨by omega, by omega, by omega⟩
  · exact (Int.tdiv_tmod_unique' neg.le nonzero).mpr ⟨by omega, by omega, by omega⟩

section
variable {a b : Word} (ct : Bool)

theorem divSigned_of_regular (divisor : b ≠ 0) (regular : ¬ (a.toInt = -(2 ^ 63) ∧ b.toInt = -1)) :
    divSigned a b ct = { res := (BitVec.ofInt 64 (a.toInt.tdiv b.toInt)).setWidth 128, lat := divLat (a.toInt.tdiv b.toInt).natAbs ct } :=
  (if_neg divisor).trans (if_neg regular)

theorem remSigned_of_regular (divisor : b ≠ 0) (regular : ¬ (a.toInt = -(2 ^ 63) ∧ b.toInt = -1)) :
    remSigned a b ct = { res := (BitVec.ofInt 64 (a.toInt.tmod b.toInt)).setWidth 128, lat := divLat (a.toInt.tdiv b.toInt).natAbs ct } :=
  (if_neg divisor).trans (if_neg regular)

end

/-- Settles O40: each trigger completes with what mulOp and divOp give; the divider's cases are those of R83. -/
theorem multiplierAndDividerResults : Obligations.MultiplierAndDividerResults := by
  intro sp a s h ready
  constructor
  · intro w b p does
    exact ⟨ready.computes_of_multiplier a 4 rfl (res := setWidth_mul a b), ready.computes_of_multiplier a 5 rfl,
      ready.computes_of_multiplier a 6 rfl, ready.computes_of_multiplier a 7 rfl⟩
  · intro w b does
    refine ⟨fun zero => ?_, fun least minusOne => ?_, fun divisor q r division less => ?_, fun divisor regular q r division less sign => ?_⟩
    · exact ⟨ready.computes_of_divider a 4 rfl (if_pos zero), ready.computes_of_divider a 6 rfl (if_pos zero),
        ready.computes_of_divider a 5 rfl (if_pos zero), ready.computes_of_divider a 7 rfl (if_pos zero)⟩
    · have divisor : b ≠ 0 := by
        intro zero
        rw [zero] at minusOne
        exact absurd minusOne (by decide)
      exact ⟨ready.computes_of_divider a 5 rfl ((if_neg divisor).trans (if_pos ⟨least, minusOne⟩)),
        ready.computes_of_divider a 7 rfl ((if_neg divisor).trans (if_pos ⟨least, minusOne⟩))⟩
    · obtain ⟨quotient, remainder⟩ := udiv_umod_of_division division less
      exact ⟨ready.computes_of_divider a 4 rfl (if_neg divisor) (congrArg (BitVec.setWidth 128) quotient),
        ready.computes_of_divider a 6 rfl (if_neg divisor) (congrArg (BitVec.setWidth 128) remainder)⟩
    · obtain ⟨quotient, remainder⟩ := tdiv_tmod_of_division division less sign
      have regular : ¬ (a.toInt = -(2 ^ 63) ∧ b.toInt = -1) := not_and_or.mpr regular
      exact ⟨ready.computes_of_divider a 5 rfl (divSigned_of_regular _ divisor regular) (by rw [quotient]),
        ready.computes_of_divider a 7 rfl (remSigned_of_regular _ divisor regular) (by rw [remainder])⟩

end Sys2Proof.Machine

/-!
PROOFS. The capability unit: the fields of a capability that it makes, and the authority of each operation's result (R109, R111, R112,
R116).
-/

namespace Sys2Proof.Machine

/-! ### The fields of a made capability (R109) -/

section
variable (base len perms otype kind : Nat) (tag : Bool)

theorem capBase_mkCap : capBase (mkCap base len perms otype kind tag) = base % 2 ^ 52 := by
  simp only [capBase, mkCap, bits, BitVec.toNat_ofNat]
  omega

theorem capLen_mkCap : capLen (mkCap base len perms otype kind tag) = len % 2 ^ 44 := by
  simp only [capLen, mkCap, bits, BitVec.toNat_ofNat]
  omega

theorem capPerms_mkCap : capPerms (mkCap base len perms otype kind tag) = perms % 2 ^ 16 := by
  simp only [capPerms, mkCap, bits, BitVec.toNat_ofNat]
  omega

end

theorem bits_lt (x lo n : Nat) : bits x lo n < 2 ^ n := Nat.mod_lt _ (Nat.two_pow_pos n)

theorem capBase_lt (c : Cap) : capBase c < 2 ^ 52 := bits_lt _ _ _
theorem capLen_lt (c : Cap) : capLen c < 2 ^ 44 := bits_lt _ _ _
theorem capPerms_lt (c : Cap) : capPerms c < 2 ^ 16 := bits_lt _ _ _

/-! ### Authority (R111, R112) -/

/-- Permissions p hold no permission that q does not. -/
def permsWithin (p q : Nat) : Prop := ∀ k, p.testBit k = true → q.testBit k = true

theorem permsWithin_refl (p : Nat) : permsWithin p p := fun _ h => h

theorem permsWithin_and (p m : Nat) : permsWithin (p &&& m) p := fun k h => by
  rw [Nat.testBit_and, Bool.and_eq_true] at h
  exact h.1

/-- Taking away a bit that is set sets none. -/
theorem permsWithin_sub_two_pow {p n : Nat} (h : p.testBit n = true) : permsWithin (p - 2 ^ n) p := by
  obtain ⟨q, rfl⟩ : ∃ q, p = 2 ^ n + q := ⟨p - 2 ^ n, by have := Nat.ge_two_pow_of_testBit h; omega⟩
  have clear : q.testBit n = false := by simpa [Nat.testBit_two_pow_add_eq] using h
  rw [Nat.add_sub_cancel_left]
  intro k hk
  rcases Nat.lt_trichotomy k n with below | rfl | above
  · rwa [Nat.testBit_two_pow_add_gt below]
  · exact h
  · obtain ⟨j, rfl⟩ := Nat.exists_eq_add_of_lt above
    have low : q / 2 ^ n % 2 = 0 := by
      rw [Nat.testBit_eq_decide_div_mod_eq, decide_eq_false_iff_not] at clear
      omega
    have same : (2 ^ n + q) / 2 ^ (n + 1) = q / 2 ^ (n + 1) := by
      rw [Nat.pow_succ, ← Nat.div_div_eq_div_mul, ← Nat.div_div_eq_div_mul, Nat.add_div_left _ (Nat.two_pow_pos n)]
      omega
    rw [show n + j + 1 = j + (n + 1) by omega, ← Nat.testBit_div_two_pow] at hk ⊢
    rwa [same]

/-- A made capability whose range and permissions lie within those of a lies within a. -/
theorem capWithin_mkCap {a : Cap} {base len perms : Nat} (otype kind : Nat) (tag : Bool) (low : capBase a ≤ base)
    (high : base + len ≤ capBase a + capLen a) (hb : base < 2 ^ 52) (hl : len < 2 ^ 44) (hp : perms < 2 ^ 16)
    (within : permsWithin perms (capPerms a)) : capWithin (mkCap base len perms otype kind tag) a := by
  unfold capWithin capHas bitAt
  rw [capBase_mkCap, capLen_mkCap, capPerms_mkCap, Nat.mod_eq_of_lt hb, Nat.mod_eq_of_lt hl, Nat.mod_eq_of_lt hp]
  exact ⟨low, high, within⟩

/-- A capability made of the range of a, with permissions among those of a, lies within a. -/
theorem capWithin_mkCap_same {a : Cap} {perms : Nat} (otype kind : Nat) (tag : Bool) (within : permsWithin perms (capPerms a))
    (hp : perms ≤ capPerms a) : capWithin (mkCap (capBase a) (capLen a) perms otype kind tag) a :=
  capWithin_mkCap otype kind tag le_rfl le_rfl (capBase_lt a) (capLen_lt a) (hp.trans_lt (capPerms_lt a)) within

/-! ### The operations that give a tagged result (R116) -/

section
variable {a b d : Cap} {v : BitVec 128}

theorem capNarrow_ok (h : capNarrow a v = .ok d) :
    a.tag = true ∧ capBase a ≤ bits v.toNat 0 52 ∧ bits v.toNat 0 52 + bits v.toNat 52 44 ≤ capBase a + capLen a ∧
      d = mkCap (bits v.toNat 0 52) (bits v.toNat 52 44) (capPerms a) (capOtype a) 0 true := by
  simp only [capNarrow] at h
  split_ifs at h with tag kind range
  simp only [Bool.not_eq_true', Bool.not_eq_false] at tag
  exact ⟨tag, by omega, by omega, (Except.ok.inj h).symm⟩

theorem capPdrop_ok (h : capPdrop a v = .ok d) :
    a.tag = true ∧ ∃ otype, d = mkCap (capBase a) (capLen a) (capPerms a &&& bits v.toNat 0 16) otype (capKind a) true := by
  simp only [capPdrop] at h
  split_ifs at h with tag kind <;>
    · simp only [Bool.not_eq_true', Bool.not_eq_false] at tag
      exact ⟨tag, _, (Except.ok.inj h).symm⟩

theorem capWrap_ok (h : capWrap a b = .ok d) :
    a.tag = true ∧ d = mkCap (capBase a) (capLen a) (capPerms a) (capOtype b) 1 true := by
  simp only [capWrap] at h
  split_ifs at h with tag kind perm
  simp only [Bool.or_eq_true, Bool.not_eq_true', not_or, Bool.not_eq_false] at tag
  exact ⟨tag.1, (Except.ok.inj h).symm⟩

theorem capUnwrap_ok (h : capUnwrap a b = .ok d) :
    a.tag = true ∧ ∃ p, permsWithin p (capPerms a) ∧ p ≤ capPerms a ∧ d = mkCap (capBase a) (capLen a) p 0 0 true := by
  simp only [capUnwrap] at h
  split_ifs at h with tag kind perm otype global <;>
    simp only [Bool.or_eq_true, Bool.not_eq_true', not_or, Bool.not_eq_false] at tag
  · rw [Bool.and_eq_true] at global
    exact ⟨tag.1, _, permsWithin_sub_two_pow global.1, Nat.sub_le _ _, (Except.ok.inj h).symm⟩
  · exact ⟨tag.1, _, permsWithin_refl _, le_rfl, (Except.ok.inj h).symm⟩

theorem capMkentry_ok (h : capMkentry a v = .ok d) :
    a.tag = true ∧ d = mkCap (capBase a) (capLen a) (capPerms a) (bits v.toNat 0 12) 2 true := by
  simp only [capMkentry] at h
  split_ifs at h with tag kind perm off
  simp only [Bool.not_eq_true', Bool.not_eq_false] at tag
  exact ⟨tag, (Except.ok.inj h).symm⟩

end

/-! ### The trigger sockets of the unit -/

/-- The triggers that give a tagged result, by socket: NARROW, PDROP, WRAP, UNWRAP and MKENTRY. -/
def makesCap (n : Nat) : Prop := n = 4 ∨ n = 5 ∨ n = 6 ∨ n = 7 ∨ n = 13

/-- A query, and UNTAG, give a value without a tag. -/
theorem capOp_untagged {n : Nat} (a b : Cap) (h : ¬ makesCap n) : ∃ d, capOp n a b = .ok d ∧ d.tag = false := by
  unfold makesCap at h
  unfold capOp
  split
  case h_5 | h_6 | h_7 | h_8 | h_9 | h_11 => exact ⟨_, rfl, rfl⟩
  all_goals omega

/-- A result that is a capability is tagged through a's tag, and lies within a. -/
theorem capOp_within {n : Nat} {a b d : Cap} (makes : makesCap n) (h : capOp n a b = .ok d) : a.tag = true ∧ capWithin d a := by
  rcases makes with rfl | rfl | rfl | rfl | rfl
  · obtain ⟨tag, low, high, rfl⟩ := capNarrow_ok h
    exact ⟨tag, capWithin_mkCap _ _ _ low high (bits_lt _ _ _) (bits_lt _ _ _) (bits_lt _ _ _) (permsWithin_refl _)⟩
  · obtain ⟨tag, otype, rfl⟩ := capPdrop_ok h
    exact ⟨tag, capWithin_mkCap_same _ _ _ (permsWithin_and _ _) Nat.and_le_left⟩
  · obtain ⟨tag, rfl⟩ := capWrap_ok h
    exact ⟨tag, capWithin_mkCap_same _ _ _ (permsWithin_refl _) le_rfl⟩
  · obtain ⟨tag, p, within, le, rfl⟩ := capUnwrap_ok h
    exact ⟨tag, capWithin_mkCap_same _ _ _ within le⟩
  · obtain ⟨tag, rfl⟩ := capMkentry_ok h
    exact ⟨tag, capWithin_mkCap_same _ _ _ (permsWithin_refl _) le_rfl⟩

/-- Each requirement that fails names its cause of the table. -/
theorem capOp_cause {n e : Nat} {a b : Cap} (h : capOp n a b = .error e) : e = 1 ∨ e = 2 ∨ e = 4 ∨ e = 7 ∨ e = 8 ∨ e = 9 := by
  by_cases makes : makesCap n
  · rcases makes with rfl | rfl | rfl | rfl | rfl <;>
      simp only [capOp, capNarrow, capPdrop, capWrap, capUnwrap, capMkentry] at h <;>
      split_ifs at h <;> have cause := Except.error.inj h <;> omega
  · obtain ⟨d, ok, -⟩ := capOp_untagged a b makes
    rw [ok] at h
    exact absurd h (by simp)

/-- Without a's tag no capability is made. -/
theorem capOp_of_untagged {n : Nat} {a : Cap} (b : Cap) (makes : makesCap n) (h : a.tag = false) : capOp n a b = .error 1 := by
  rcases makes with rfl | rfl | rfl | rfl | rfl <;>
    simp [capOp, capNarrow, capPdrop, capWrap, capUnwrap, capMkentry, h]

/-- Settles O41: a result that is a capability is made of a's range, or one in it, with permissions of a's. -/
theorem capabilityOperationsNeverEnlarge : Obligations.CapabilityOperationsNeverEnlarge := by
  intro a b
  refine ⟨fun n d h tagged => ?_, fun d h => ?_, fun d h => ?_, fun n e _ _ h => capOp_cause h, fun h n makes => capOp_of_untagged b makes h⟩
  · by_cases makes : makesCap n
    · have sockets : 4 ≤ n ∧ (n ≤ 7 ∨ n = 13) := by
        unfold makesCap at makes
        omega
      exact ⟨sockets.1, sockets.2, capOp_within makes h⟩
    · obtain ⟨q, ok, untagged⟩ := capOp_untagged a b makes
      obtain rfl : q = d := Except.ok.inj (ok.symm.trans h)
      exact absurd tagged (by simp [untagged])
  · obtain ⟨-, otype, rfl⟩ := capPdrop_ok h
    rw [capPerms_mkCap, Nat.mod_eq_of_lt (Nat.and_le_left.trans_lt (capPerms_lt a))]
  · obtain ⟨-, -, -, rfl⟩ := capNarrow_ok h
    rw [capBase_mkCap, capLen_mkCap, capPerms_mkCap, Nat.mod_eq_of_lt (bits_lt _ _ _), Nat.mod_eq_of_lt (bits_lt _ _ _), Nat.mod_eq_of_lt (capPerms_lt a)]
    exact ⟨rfl, rfl, rfl⟩

end Sys2Proof.Machine

/-!
PROOFS. What a pending resume does to the claims about the capability unit and about loads (R112, R116, R140).
-/

namespace Sys2Proof.Machine

/-- An operation in flight has no part in what a retirement leaves of the record of a long operation. -/
theorem Spindle.withOp_retired_progress (x : Spindle) (r : OpRec) :
    ((x.withOp r).retired none).arch.progress = (x.retired none).arch.progress := rfl

/-- Refutes O2: a TAGQ issued in place of the bundle that was to resume a long operation drops the record of it (R140), where the claim
keeps every register but operand 0. -/
theorem not_capabilityTriggerStartsItsOperation : ¬ Obligations.CapabilityTriggerStartsItsOperation := by
  intro claim
  obtain ⟨t, lat, next, claimed, -⟩ := claim (.tagq 0 Cap.zero) 0 { u := 14, sock := 8, a := Cap.zero } _ _ (capTagq Cap.zero) rfl rfl rfl
    ready_resumingSpindle
  rw [next_of_exec rfl (by decide +kernel) next] at claimed
  have dropped := congrArg (fun x => x.arch.progress.done) claimed
  simp only [Spindle.withOp_retired_progress] at dropped
  revert dropped
  decide +kernel

/-- The resuming spindle with a capability for its loads in c1, on a reel of which one channel of memory is up. -/
def resumingLoad : State :=
  { lonelyReel { resumingSpindle with arch := { resumingSpindle.arch with c := [(1, mkCap 0x10000 0x1000 (2 ^ pLOAD) 0 0 true)] } } with
    mcs := { interleave := 1, chans := [(0, { state := 1, dimms := 1, capacity := 64 })] } }

theorem ready_resumingLoad : resumingLoad.Ready 0 ⟨0, 0, 0⟩ where
  issues := by decide +kernel
  place := rfl
  calm := by decide +kernel
  ops := rfl
  stores := rfl
  serial := rfl
  arith := rfl
  loose := rfl
  quiet := rfl

/-- Refutes O48: a LD8U issued in place of the bundle that was to resume a long operation drops the record of it (R140), where the claim
keeps every register but operand 0. -/
theorem not_loadsStoresAndAtomicsIssue : ¬ Obligations.LoadsStoresAndAtomicsIssue := by
  rintro ⟨claim, -⟩
  obtain ⟨t, next, claimed, -⟩ := claim (.ld8u 0 0 1 0) 0 { u := 10, sock := 4, mod := 1, a := ofWord 0 } _ _ rfl (Or.inl rfl) (by decide)
    rfl ready_resumingLoad (by decide +kernel) (by decide +kernel) (by decide +kernel)
  rw [next_of_exec rfl (by decide +kernel) next] at claimed
  have dropped := congrArg (fun x => x.arch.progress.done) claimed
  revert dropped
  decide +kernel

end Sys2Proof.Machine

/-!
PROOFS. The timebase: the end of a WAIT, with the step that its ply then asks for, and DEADLINE (R135, R480, R482).
-/

namespace Sys2Proof.Machine

/-! ### Beads and steps (R475 to R482) -/

/-- From s to t nothing has changed but plies, skeins and power. -/
def State.InPower (s t : State) : Prop :=
  t = { s with cores := { s.cores with plies := t.cores.plies, skeins := t.cores.skeins }, power := t.power }

namespace State.InPower

variable {s t u : State}

theorem refl (s : State) : s.InPower s := rfl
theorem trans (h : s.InPower t) (g : t.InPower u) : s.InPower u := Eq.trans g (by rw [h])

theorem ite {c : Prop} [Decidable c] (ht : s.InPower t) (hu : s.InPower u) : s.InPower (if c then t else u) := by
  split
  · exact ht
  · exact hu

theorem sp (h : s.InPower t) (i : Nat) : t.sp i = s.sp i := by rw [h]; rfl
theorem mem (h : s.InPower t) : t.mem = s.mem := by rw [h]
theorem quiet (h : s.InPower t) (q : s.Quiet) : t.Quiet := by rw [h]; exact q

end State.InPower

section
variable (s : State)

theorem State.inPower_modSk (k : Nat) (f : Skein → Skein) : s.InPower (s.modSk k f) := rfl
theorem State.inPower_modPly (k p : Nat) (f : Ply → Ply) : s.InPower (s.modPly k p f) := rfl
theorem State.inPower_modPower (f : Power → Power) : s.InPower (s.modPower f) := rfl

theorem State.inPower_askBeads (d prio beads : Nat) (what : BeadFor) : s.InPower (s.askBeads d prio beads what) :=
  .ite (.refl s) (.ite (s.inPower_modSk d _) (s.inPower_modPower _))

theorem State.inPower_returnBeads (d beads : Nat) : s.InPower (s.returnBeads d beads) :=
  .ite (s.inPower_modSk d _) (s.inPower_modPower _)

theorem State.inPower_lowerPly (k p n : Nat) : s.InPower (s.lowerPly k p n) :=
  .ite (.refl s) <| .ite ((s.inPower_modPly k p _).trans (State.inPower_returnBeads _ k _))
    ((s.inPower_modPly k p _).trans (State.inPower_returnBeads _ k _))

theorem State.inPower_aimPly (k p goal : Nat) : s.InPower (s.aimPly k p goal) := by
  unfold State.aimPly
  extract_lets y mine s1
  have h1 : s.InPower s1 := s.inPower_modSk k _
  have fall := s1.inPower_modPly k p
  exact .ite (.refl s) <| .ite (h1.trans (s1.inPower_lowerPly k p goal)) <|
    .ite (.ite (h1.trans (fall _)) ((h1.trans (fall _)).trans (State.inPower_askBeads _ k _ _ _))) (h1.trans (s1.inPower_askBeads k _ _ _))

theorem State.inPower_wakePly (i : Nat) : s.InPower (s.wakePly i) := by
  unfold State.wakePly
  split
  · exact s.inPower_aimPly _ _ _
  · exact .refl s

end

/-! ### The end of a WAIT (R60, R135) -/

/-- The WAIT of a spindle that has nothing else in flight ends with the result n. -/
theorem Spindle.endWait_of_only {x : Spindle} {r : OpRec} {w : Word} (ops : x.ops = [r]) (wait : r.kind = .wait w) (n : Nat) :
    x.endWait n = { x.complete { r with res := capNum n } with ops := [], waitUntil := none } := by
  have first : x.frontOp r.unit = some r := by simp [Spindle.frontOp, ops]
  simp only [Spindle.endWait, ops, List.find?_cons, wait]
  rw [Spindle.arrive_of_first first, ops, List.erase_cons_head]

/-- The result that a WAIT enters in the result socket of the system unit. -/
theorem Spindle.complete_wait_result (x : Spindle) {r : OpRec} {w : Word} (unit : r.unit = 15) (wait : r.kind = .wait w) :
    ((x.complete r).arch.unit 15).r = r.res := by
  have kind : r.kind ≠ .sync := by simp [wait]
  unfold Spindle.complete
  simp only [unit, kind, and_false, or_false, false_and, Nat.reduceEqDiff, if_false]
  split_ifs <;> simp [Arch.unit, Arch.modUnit]

theorem exec_waitEnd_of_due {s : State} {sp : SpId} {w : Nat} (alive : s.alive sp = true) (waits : (s.sp sp).waitUntil = some w)
    (due : w ≤ s.time) : exec (.waitEnd sp) s = done (((s.modSp sp fun x => x.endWait 0).wakePly sp).park sp) := by
  show execWaitEnd sp s = _
  simp only [execWaitEnd, waits, alive, due, and_self, if_true]

/-! ### An interrupt is raised (R133, R134) -/

section
variable (s : State) (i n : Nat)

theorem State.raiseIntr_sp : (s.raiseIntr i n).sp i = { s.sp i with intPending := (s.sp i).intPending ||| BitVec.ofNat 256 (2 ^ n) } := by
  have raised := s.modSp_sp i fun x => { x with intPending := x.intPending ||| BitVec.ofNat 256 (2 ^ n) }
  unfold State.raiseIntr
  split <;> split_ifs <;> exact raised

/-- An interrupt changes spindles and the router's copies alone. -/
theorem State.raiseIntr_rest : s.raiseIntr i n = { s with cores := (s.raiseIntr i n).cores, home := (s.raiseIntr i n).home } := by
  unfold State.raiseIntr
  split <;> split_ifs <;> rfl

end

/-- Bit k of a mask of interrupts once interrupt n is pending. -/
theorem getLsbD_or_two_pow (p : BitVec 256) {k : Nat} (n : Nat) (hk : k < 256) :
    (p ||| BitVec.ofNat 256 (2 ^ n)).getLsbD k = (p.getLsbD k || decide (n = k)) := by
  rw [BitVec.getLsbD_or, BitVec.getLsbD_ofNat, Nat.testBit_two_pow, decide_eq_true hk, Bool.true_and]

theorem exec_deadlineReached_of_due {s : State} {sp : SpId} (runs : s.dataRuns sp = true) (set : (s.sp sp).arch.deadline ≠ 0)
    (due : (s.sp sp).arch.deadline.toNat ≤ s.time) : exec (.deadlineReached sp) s =
      done ((s.modSp sp fun x => { x with arch := { x.arch with deadline := 0 } }).raiseIntr sp 255) :=
  congrArg done (if_pos ⟨runs, set, due⟩)

/-- Settles O6: the WAIT enters its result and its ply asks for its step; DEADLINE becomes 0 and interrupt 255 is pending. -/
theorem timebaseEndsWaitsAndDeadlines : Obligations.TimebaseEndsWaitsAndDeadlines := by
  intro sp s quiet
  refine ⟨fun w ba alive waits due free ops => ?_, fun runs set due => ?_⟩
  · set u := s.modSp sp fun x => x.endWait 0
    have power := u.inPower_wakePly sp
    have ended := Spindle.endWait_of_only ops rfl 0
    have now : (u.wakePly sp).sp sp = (s.sp sp).endWait 0 := (power.sp sp).trans (s.modSp_sp sp _)
    have parked : (u.wakePly sp).park sp = u.wakePly sp := State.park_of_free (by rw [now, ended]; exact free)
    refine ⟨u.wakePly sp, ?_, ?_, ?_, ?_, ?_, power.mem⟩
    · rw [exec_waitEnd_of_due alive waits due, parked, done_of_quiet _ (power.quiet quiet)]
    · rw [now, ended]
    · rw [now, ended]
    · rw [now, ended]
      exact Spindle.complete_wait_result _ rfl rfl
    · rw [now, ended]
      rfl
  · set u := s.modSp sp fun x => { x with arch := { x.arch with deadline := 0 } }
    have rest := u.raiseIntr_rest sp 255
    have now := u.raiseIntr_sp sp 255
    rw [s.modSp_sp] at now
    refine ⟨u.raiseIntr sp 255, ?_, ?_, ?_, fun k hk => ?_, ?_⟩
    · rw [exec_deadlineReached_of_due runs set due, done_of_quiet]
      rw [rest]
      exact quiet
    · rw [now]
    · rw [now, getLsbD_or_two_pow _ _ (by decide)]
      simp
    · rw [now, getLsbD_or_two_pow _ _ (by omega)]
      simp [show 255 ≠ k by omega]
    · rw [rest]
      simp [State.SameOutside, u]

end Sys2Proof.Machine

/-!
PROOFS. Triggers of the system unit, and the lines that an event or a return reads and asks for (R50, R121, R140, R215, R246).
-/

namespace Sys2Proof.Machine

/-! ### Lines that an event or a return reads (R121, R124, R138) -/

section
variable {s t : State}

theorem State.Touches.held {k : Nat} (h : s.Touches t k) (m : Nat) : (t.skl k m).held = (s.skl k m).held := by
  obtain ⟨_, _, _, e⟩ := h.line m
  rw [e]
  rfl

theorem State.Touches.modes {k : Nat} (h : s.Touches t k) (j : Nat) :
    (t.sk j).split = (s.sk j).split ∧ (t.sk j).loose = (s.sk j).loose := by
  by_cases hj : j = k
  · obtain ⟨ls, e⟩ := h.skein
    rw [hj, e]
    exact ⟨rfl, rfl⟩
  · rw [h.other j hj]
    exact ⟨rfl, rfl⟩

variable {h : Place} {ls : List Nat}

theorem State.LinesHere.of_touches (here : s.LinesHere h ls) (touches : s.Touches t h.skein) : t.LinesHere h ls := fun l hl => by
  rw [touches.l2, touches.val]
  exact here l hl

theorem State.LinesHere.no_poison (here : s.LinesHere h ls) : (ls.any fun l => (s.skl h.skein l).val.poison) = false := by
  rw [List.any_eq_false]
  intro l hl
  simp [(here l hl).2]

/-- Lines that are all in the ply's L2 are served. -/
theorem State.wantLines_of_here (fetch : Bool) :
    ∀ {ls : List Nat} {s : State}, s.LinesHere h ls → ∃ t, s.wantLines h ls fetch = (true, t) ∧ s.Touches t h.skein
  | [], s, _ => ⟨s, rfl, .refl s _⟩
  | l :: ls, s, here => by
    obtain ⟨u, served, touches⟩ := State.wantShared_of_l2 (here l List.mem_cons_self).1 fetch
    have rest : u.LinesHere h ls := State.LinesHere.of_touches (fun m hm => here m (List.mem_cons_of_mem _ hm)) touches
    obtain ⟨t, want, touches'⟩ := State.wantLines_of_here fetch rest
    refine ⟨t, ?_, touches.trans touches'⟩
    rw [← want]
    simp [State.wantLines, served]

end

/-- With no store waiting, what a spindle sees of a granule is what its skein's lines hold, at every place in its order. -/
theorem State.viewGranule_congr {s t : State} {i : Nat} {h : Place} (hs : (s.sp i).stores = []) (ht : (t.sp i).stores = [])
    (val : ∀ l, (t.skl h.skein l).val = (s.skl h.skein l).val) (a o o' : Nat) : t.viewGranule i h a o = s.viewGranule i h a o' := by
  simp only [State.viewGranule, State.viewLine_of_no_stores h _ _ hs, State.viewLine_of_no_stores h _ _ ht, val]

/-- MODE is read from the spindle and from its skein's two settings (R57). -/
theorem State.modeWord_congr {s t : State} (same : ∀ k, (t.sk k).split = (s.sk k).split ∧ (t.sk k).loose = (s.sk k).loose) (x : Spindle) :
    t.modeWord x = s.modeWord x := by
  unfold State.modeWord
  simp only [same]

/-! ### A line that the skein lacks is asked for (R246) -/

section
variable (s : State) (h : Place) (l : Nat)

theorem State.inSkein_noteMiss : s.InSkein (s.noteMiss h l) h.skein := by
  unfold State.noteMiss
  split
  · exact .refl s _
  · refine s.inSkein_modPly h.skein ?_
    dsimp only
    split <;> rfl

theorem State.inSkein_ask (k p : Nat) (own pf lock : Bool) : s.InSkein (s.ask k p l own pf lock) k := by
  have asked (f : Skein → Skein) (q : Packet) : s.InSkein ((s.modSk k f).send q) k :=
    (s.inSkein_modSk k f).trans (State.inSkein_send _ k q)
  unfold State.ask
  dsimp only
  split
  · exact .refl s k
  · exact asked _ _

theorem State.inSkein_askFor (own : Bool) : s.InSkein (s.askFor h l own) h.skein :=
  (s.inSkein_noteMiss h l).trans (State.inSkein_ask _ l h.skein h.ply own false false)

end

/-- Where the skein lacks the line of the oldest retired store, every store waits, and the line is at most asked for (R145). -/
theorem State.inSkein_drain_of_lacking {s : State} {i : Nat} {h : Place} {r : StoreRec} {rest : List StoreRec}
    (place : (s.sp i).host = some h) (stores : (s.sp i).stores = r :: rest) (lacks : (s.skl h.skein (lineOf r.addr)).held = false) :
    s.InSkein (s.drain i) h.skein := by
  have want : s.wantOwned h (lineOf r.addr) = (false, s.askFor h (lineOf r.addr) true) := by simp [State.wantOwned, lacks]
  unfold State.drain
  simp only [stores, List.length_cons, State.drainN, State.drainOne, place, want]
  split
  · next moved =>
    split at moved <;> cases moved
  · next t waits =>
    split at waits <;> cases waits
    · exact .refl s _
    · exact s.inSkein_askFor h _ true

/-! ### The map of memory (R38, R39) -/

section
variable {s t : State} {i k : Nat} (within : s.InSpindle t i k)
include within

theorem State.InSpindle.cxlReach : ∀ n a : Nat, t.cxlReach n a = s.cxlReach n a
  | 0, _ => rfl
  | n + 1, a => by
    have same : t.cxlOf a = s.cxlOf a := by
      rw [within.rest]
      rfl
    unfold State.cxlReach
    rw [same]
    cases s.cxlOf a with
    | none => rfl
    | some r => exact State.InSpindle.cxlReach n _

theorem State.InSpindle.localRange (a n : Nat) : t.localRange a n = s.localRange a n := by
  rw [within.rest]
  rfl

theorem State.InSpindle.memRange (a n : Nat) : t.memRange a n = s.memRange a n := by
  have held : (decide (a + n ≤ t.installed) && t.noRetired a n) = (decide (a + n ≤ s.installed) && s.noRetired a n) :=
    within.localRange a n
  unfold State.memRange
  rw [within.cxlReach, held]

theorem State.InSpindle.tsbOk {x y : Spindle} (tsb : y.tsb = x.tsb) : t.tsbOk y = s.tsbOk x := by
  simp only [State.tsbOk, tsb, within.localRange]

end

/-! ### Changes within a spindle alone -/

/-- From s to t nothing has changed but spindle i and the MODEL's counter of free values. -/
structure State.AtSpindle (s t : State) (i : Nat) : Prop where
  rest : t = { s with cores := t.cores, freeCtr := t.freeCtr }
  plies : t.cores.plies = s.cores.plies
  spindles : ∀ j, j ≠ i → t.sp j = s.sp j
  skeins : ∀ k, t.sk k = s.sk k

namespace State.AtSpindle

variable {s t u : State} {i : Nat}

theorem trans (h : s.AtSpindle t i) (g : t.AtSpindle u i) : s.AtSpindle u i where
  rest := g.rest.trans (by rw [h.rest])
  plies := g.plies.trans h.plies
  spindles j hj := (g.spindles j hj).trans (h.spindles j hj)
  skeins k := (g.skeins k).trans (h.skeins k)

theorem setSp (s : State) (i : Nat) (x : Spindle) : s.AtSpindle (s.setSp i x) i :=
  ⟨rfl, rfl, fun _ hj => s.setSp_sp_other x hj, fun _ => rfl⟩

theorem inSpindle (h : s.AtSpindle t i) (k : Nat) : s.InSpindle t i k := ⟨by rw [h.rest], h.spindles, fun j _ => h.skeins j⟩

theorem skl (h : s.AtSpindle t i) (k l : Nat) : t.skl k l = s.skl k l := by
  unfold State.skl
  rw [h.skeins]

theorem modes (h : s.AtSpindle t i) (k : Nat) : (t.sk k).split = (s.sk k).split ∧ (t.sk k).loose = (s.sk k).loose := by
  rw [h.skeins]
  exact ⟨rfl, rfl⟩

theorem linesHere (h : s.AtSpindle t i) {p : Place} {ls : List Nat} (here : s.LinesHere p ls) : t.LinesHere p ls := fun l hl => by
  rw [h.skl]
  exact here l hl

theorem onlySpindle (h : s.AtSpindle t i) : s.OnlySpindle t i :=
  ⟨(h.inSpindle 0).sameOutside, h.spindles, h.plies, h.skeins, by rw [h.rest], by rw [h.rest]⟩

end State.AtSpindle

/-- What follows an issue that leaves no operation, store or output under way changes nothing more. -/
theorem State.atSpindle_afterIssue {s : State} {i : Nat} {h : Place} {e : Effects} (early : e.early = false) (gather : e.gather = false)
    (ops : (s.sp i).ops = []) (stores : (s.sp i).stores = []) (serial : (s.sp i).serial = none) :
    s.AtSpindle (s.afterIssue i h e) i ∧ (s.afterIssue i h e).sp i = s.sp i := by
  unfold State.afterIssue
  extract_lets gathers s1 s2
  have shut : gathers = false := by simp [gathers, gather, serial]
  have kept : s.AtSpindle s1 i := by
    refine ⟨rfl, rfl, fun _ _ => rfl, fun k => ?_⟩
    unfold s1
    rw [State.sk_of_modSk]
    split
    · next hk => simp [shut, hk, State.sk]
    · rfl
  have h2 : s2 = s1 := by
    have none : ∀ r ∈ (s1.sp i).ops, OpRec.access r = none := by
      rw [show s1.sp i = s.sp i from rfl, ops]
      exact fun _ hr => absurd hr List.not_mem_nil
    unfold s2
    rw [State.askOps_of_no_access (s := s1) h none, State.drain_of_no_stores (s := s1) stores]
  rw [early, h2]
  exact ⟨kept, rfl⟩

/-! ### A trigger of the system unit (R50, R131, R138) -/

/-- The trigger of socket sock of the system unit on operand a. -/
def sysTrig (sock : Nat) (a : Cap) : Trig := { u := 15, sock := sock, a := a }

theorem sysTrig_alone {sock : Nat} {a : Cap} (low : 4 ≤ sock) (high : sock < 13) (fits : convertTo .w64 true a = a) :
    (sysTrig sock a).Alone where
  unit := by show 15 ≤ 19; decide
  low := low
  high := high
  slot := rfl
  allowed := rfl
  fits := fits

/-- The lines of the task-state block that trigger t of spindle x reads before it takes effect (R138). -/
def State.blockLines (s : State) (x : Spindle) (t : Trig) : List Nat :=
  if (t.u == 15 && t.sock == 5 && (t.w.toNat % 4 == 0 || t.w.toNat % 4 == 3)) && s.tsbOk x then linesOf (capBase x.tsb) 6144 else []

section
variable {s : State} {i : Nat} {h : Place}

/-- A trigger of the system unit that raises no event takes effect once its spindle has the lines that it reads. -/
theorem State.issueLive_of_system {sock : Nat} {a : Cap} (alone : (sysTrig sock a).Alone) (ops : (s.sp i).ops = [])
    (stores : (s.sp i).stores = []) (serial : (s.sp i).serial = none) (fails : s.trigFails i (s.sp i) (sysTrig sock a) = [])
    {t : State} (want : s.wantLines h (s.blockLines (s.sp i) (sysTrig sock a)) false = (true, t)) :
    s.issueLive i h [(sysTrig sock a).move] 0 = t.perform i h [(sysTrig sock a).move] 0 := by
  have known := alone.toKnown
  have trig : [(sysTrig sock a).move].filterMap Live.trigger = [sysTrig sock a] := by
    rw [List.filterMap_cons, known.trigger_move]
    rfl
  have same : phase3 (s.sp i) [(sysTrig sock a).move] = s.sp i := phase3_of_trigger le_rfl trig _
  have room : (s.sp i).overFull [sysTrig sock a] = false := Spindle.overFull_of_no_access _ fun t ht => by
    rw [List.mem_singleton.mp ht]
    exact ⟨show 15 ≠ 10 by decide, show 15 ≠ 11 by decide⟩
  unfold State.issueLive
  simp only [trig, same, List.any_cons, List.any_nil, Live.waits_of_idle ops, State.trigWaits_of_idle ops stores serial, room,
    List.flatMap_singleton, known.fails_move, fails, List.append_nil, firstFail, List.foldl_nil, Bool.or_false, Bool.false_eq_true, if_false]
  show (match s.wantLines h (s.blockLines (s.sp i) (sysTrig sock a)) false with
    | (false, s1) => s1
    | (true, s1) => s1.perform i h [(sysTrig sock a).move] 0) = _
  rw [want]

/-- What a dropped resume leaves of a ready spindle: nothing in flight. -/
theorem State.dropResume_idle (ready : s.Ready i h) :
    ((s.dropResume i).sp i).ops = [] ∧ ((s.dropResume i).sp i).stores = [] ∧ ((s.dropResume i).sp i).serial = none := by
  rw [s.dropResume_sp, Spindle.dropped_ops, Spindle.dropped_stores, Spindle.dropped_serial]
  exact ⟨ready.ops, ready.stores, ready.serial⟩

/-- A trigger of the system unit of a ready spindle, once the spindle has the lines that it reads. -/
theorem State.issueTrig_of_system (ready : s.Ready i h) {sock : Nat} {a : Cap} (alone : (sysTrig sock a).Alone)
    (fails : (s.dropResume i).trigFails i (s.sp i).dropped (sysTrig sock a) = []) {t : State}
    (want : (s.dropResume i).wantLines h ((s.dropResume i).blockLines (s.sp i).dropped (sysTrig sock a)) false = (true, t)) :
    s.issueTrig i 15 sock 0 a = t.perform i h [(sysTrig sock a).move] 0 := by
  obtain ⟨ops, stores, serial⟩ := State.dropResume_idle ready
  have issue := State.issueTrig_of_ready ready alone rfl
  rw [← s.dropResume_sp] at fails want
  exact issue.trans (State.issueLive_of_system alone ops stores serial fails want)

/-- The moves of a trigger of the system unit performed start it. -/
theorem State.started_of_system {sock : Nat} {a : Cap} (alone : (sysTrig sock a).Alone) (x : Spindle) :
    ([(sysTrig sock a).move].filterMap Live.trigger).foldl (s.startTrig 0 x) { x := phase3 x [(sysTrig sock a).move] } =
      s.startTrig 0 x { x := x } (sysTrig sock a) := by
  have trig : [(sysTrig sock a).move].filterMap Live.trigger = [sysTrig sock a] := by
    rw [List.filterMap_cons, alone.toKnown.trigger_move]
    rfl
  rw [phase3_of_trigger le_rfl trig, trig]
  rfl

theorem State.startTrig_of_trap (x : Spindle) (a : Cap) :
    s.startTrig 0 x { x := x } (sysTrig 4 a) = { x := x.withOperand 15 a, trap := some (Cap64 a).toNat } := rfl

theorem State.startTrig_of_eret (x : Spindle) (a : Cap) :
    s.startTrig 0 x { x := x } (sysTrig 5 a) = { x := x.withOperand 15 a, eret := some ((Cap64 a).toNat % 4) } := rfl

end

end Sys2Proof.Machine

/-!
PROOFS. The delivery of an event: the state saved to the TSB as stores that wait, the handler entered (R121 to R129, R131, R136).
-/

namespace Sys2Proof.Machine

/-! ### The save (R121, R122, R125) -/

/-- Spindle x with the save of state v, under MODE word mode, at the end of its order (R121). -/
def Spindle.saved (x : Spindle) (v : Saved) (mode : Word) : Spindle :=
  { x with stores := x.stores ++ saveStores v mode (capBase x.tsb) x.memSeq, memSeq := x.memSeq + 48 }

/-- The first store of a save goes to the first line of the TSB. -/
theorem saveStores_cons (v : Saved) (mode : Word) (base order : Nat) :
    ∃ r rest, saveStores v mode base order = r :: rest ∧ r.addr = base := by
  unfold saveStores
  rw [List.range_succ_eq_map, List.map_cons]
  exact ⟨_, _, rfl, rfl⟩

section
variable {s : State} {i : Nat} {h : Place}

/-- A save of a state in the modes that hold. -/
theorem State.saveTsb_of_modes {v : Saved} (precise : v.arch.precise = (s.sp i).arch.precise)
    (constTime : v.arch.constTime = (s.sp i).arch.constTime) :
    s.saveTsb i v = s.setSp i ((s.sp i).saved v (s.modeWord (s.sp i))) := by
  have modes : s.savedMode (s.sp i) v = s.modeWord (s.sp i) := by
    simp only [State.savedMode, State.modeWord, precise, constTime]
  show s.setSp i ((s.sp i).saved v (s.savedMode (s.sp i) v)) = _
  rw [modes]

/-- A spindle whose save waits for a line of the TSB that its skein lacks: all its stores stay, and the line is at most asked for. -/
theorem State.saved_drain {z : Spindle} {v : Saved} {mode : Word} {base order : Nat} (place : z.host = some h)
    (stores : z.stores = saveStores v mode base order) (lacks : (s.skl h.skein (lineOf base)).held = false) :
    s.InSpindle ((s.setSp i z).drain i) i h.skein ∧ ((s.setSp i z).drain i).sp i = z := by
  obtain ⟨r, rest, first, addr⟩ := saveStores_cons v mode base order
  have same : (s.setSp i z).sp i = z := s.setSp_sp i z
  have waits := State.inSkein_drain_of_lacking (s := s.setSp i z) (i := i) (h := h) (r := r) (rest := rest) (by rw [same, place])
    (by rw [same, stores, first]) (by rw [State.skl_setSp, addr, lacks])
  exact ⟨(State.InSpindle.setSp s i _ z).trans (.of_inSkein waits i), by rw [waits.sp, same]⟩

end

/-! ### Delivery through a descriptor (R123 to R126) -/

/-- Spindle x at the handler of descriptor d (R126). -/
def Spindle.atHandler (x : Spindle) (d : Descr) : Spindle :=
  { x with
    arch := { x.arch with
      codecap := if capKind d.entry = 2 then capEnter d.entry else d.entry,
      c := tset Cap.zero (if bitAt d.flags 1 then x.arch.c else tset Cap.zero x.arch.c 0 d.data) 62 d.stack,
      imask := imaskOf (bits d.flags 4 5) (bitAt d.flags 9) true (slotBusy x) },
    ba := BitVec.ofNat 64 (capBase d.entry + if capKind d.entry = 2 then 16 * capOtype d.entry else 0) }

section
variable {s t : State} {i n : Nat} {h : Place} {d : Descr}

/-- A delivery that finds all it needs: the state is saved, and the spindle stands at the handler. -/
theorem State.Delivers.delivered (D : s.Delivers i n h d) (place : (s.sp i).host = some h) (ops : (s.sp i).ops = [])
    (stores : (s.sp i).stores = []) (e : EvInfo) : ∃ t, s.deliver i n e = (true, t) ∧ s.InSpindle t i h.skein ∧
      t.sp i = (((s.sp i).saved ((s.sp i).image n e) (s.modeWord (s.sp i))).leave).atHandler d := by
  obtain ⟨mem, may, covers⟩ := D.tdt
  obtain ⟨u, want, touches⟩ := State.wantLines_of_here false D.lines
  have here : u.LinesHere h (linesOf (capBase (s.sp i).tdt + 64 * n) 64) := D.lines.of_touches touches
  have same : u.sp i = s.sp i := touches.sp i
  have read (a : Nat) : u.viewGranule i h a (s.sp i).memSeq = s.viewGranule i h a (s.sp i).memSeq :=
    State.viewGranule_congr stores (by rw [same, stores]) touches.val a _ _
  obtain ⟨de, ds, dd, df⟩ := d
  obtain ⟨entry, stack, data, flags⟩ := Descr.mk.inj D.what
  rw [← read] at entry stack data flags
  have fit := D.fit
  have mode : u.modeWord (s.sp i) = s.modeWord (s.sp i) := State.modeWord_congr touches.modes _
  have lacks : (u.skl h.skein (lineOf (capBase (s.sp i).tsb))).held = false := by rw [touches.held, D.save]
  have saves : u.saveTsb i ((u.sp i).image n e) = u.setSp i ((s.sp i).saved ((s.sp i).image n e) (s.modeWord (s.sp i))) := by
    rw [State.saveTsb_of_modes rfl rfl, same, mode]
  obtain ⟨y, hy⟩ : ∃ y, y = (s.sp i).saved ((s.sp i).image n e) (s.modeWord (s.sp i)) := ⟨_, rfl⟩
  obtain ⟨within, now⟩ := State.saved_drain (s := u.setSp i y) (i := i) (z := y.leave.atHandler ⟨de, ds, dd, df⟩) (v := (s.sp i).image n e)
    (mode := s.modeWord (s.sp i)) (order := (s.sp i).memSeq) (by rw [hy]; exact place)
    (by simp [hy, Spindle.atHandler, Spindle.leave, Spindle.saved, stores]) lacks
  rw [← hy] at saves ⊢
  refine ⟨_, ?_, ((State.InSpindle.of_inSkein touches.toInSkein i).trans (.setSp u i _ y)).trans within, now⟩
  unfold State.deliver
  simp only [place, ops, List.isEmpty_nil, Bool.not_true, Bool.false_eq_true, if_false, D.tsb, D.free, mem, may, covers, D.map, Bool.and_self,
    want, here.no_poison, ← entry, ← stack, ← data, ← flags, fit, ne_eq, not_true_eq_false, saves, State.setSp_sp]
  simp only [Spindle.atHandler, Spindle.enter]
  split <;> rfl

/-- The same delivery after changes of the spindle that keep its event capabilities, IMASK and waiting stores. -/
theorem State.Delivers.of_atSpindle (D : s.Delivers i n h d) (near : s.AtSpindle t i) (stores : (s.sp i).stores = [])
    (kept : (t.sp i).stores = []) (tsb : (t.sp i).tsb = (s.sp i).tsb) (tdt : (t.sp i).tdt = (s.sp i).tdt)
    (imask : (t.sp i).arch.imask = (s.sp i).arch.imask) : t.Delivers i n h d where
  tsb := by rw [(near.inSpindle 0).tsbOk tsb, D.tsb]
  free := by rw [tsbBusy, imask, ← tsbBusy, D.free]
  save := by rw [near.skl, tsb, D.save]
  tdt := by
    rw [tdt]
    exact D.tdt
  map := by rw [(near.inSpindle 0).memRange, tdt, D.map]
  lines := by
    rw [tdt]
    exact near.linesHere D.lines
  what := by
    have read (a : Nat) : t.viewGranule i h a (t.sp i).memSeq = s.viewGranule i h a (s.sp i).memSeq :=
      State.viewGranule_congr stores kept (fun l => by rw [near.skl]) a _ _
    simp only [read, tdt]
    exact D.what
  fit := D.fit

/-- What a spindle at the handler shows: x saved, the handler entered. -/
theorem State.entersHandler_of_arch {k : Nat} {x y : Spindle} {e : EvInfo} (within : s.InSpindle t i k) (stores : x.stores = [])
    (hy : y = ((x.saved (x.image n e) (s.modeWord x)).leave).atHandler d)
    (same : (t.sp i).arch = y.arch ∧ (t.sp i).ba = y.ba ∧ (t.sp i).stores = y.stores) : s.EntersHandler t i n d x e := by
  obtain ⟨arch, ba, waits⟩ := same
  refine ⟨?_, ?_, ?_, ?_, fun keep => ?_, ?_, within.spindles, within.sameOutside⟩
  · rw [arch, hy]
    rfl
  · rw [ba, hy]
    rfl
  · rw [arch, hy]
    rfl
  · rw [arch, hy]
    exact tget_tset_same _ _ _ _
  · rw [arch, hy]
    simp [Spindle.atHandler, Arch.getC, keep, tget_tset]
  · rw [waits, hy]
    simp [Spindle.atHandler, Spindle.leave, Spindle.saved, stores]

end

/-! ### Entry to a hardware event (R128, R129) -/

/-- Spindle x at the entry of hardware event n (R128). -/
def Spindle.atHardware (x : Spindle) (n : Nat) : Spindle :=
  { x with arch := { x.arch with codecap := x.eventBase, imask := imaskOf 16 true true (slotBusy x) },
           ba := BitVec.ofNat 64 (capBase x.eventBase + 32 * n) }

/-- A hardware event that finds all it needs: the state is saved, and the spindle stands at its entry. -/
theorem State.hwEntry_enters {s : State} {i : Nat} {h : Place} (n : Nat) (e : EvInfo) (place : (s.sp i).host = some h)
    (ops : (s.sp i).ops = []) (stores : (s.sp i).stores = []) (tsb : s.tsbOk (s.sp i) = true) (free : tsbBusy (s.sp i) = false)
    (base : eventBaseOk (s.sp i) = true) (lacks : (s.skl h.skein (lineOf (capBase (s.sp i).tsb))).held = false) :
    ∃ t, s.hwEntry i n e = (true, t) ∧ s.InSpindle t i h.skein ∧
      t.sp i = (((s.sp i).saved ((s.sp i).image (n + 2 ^ 13) e) (s.modeWord (s.sp i))).leave).atHardware n := by
  have saves : s.saveTsb i ((s.sp i).image (n + 2 ^ 13) e) =
      s.setSp i ((s.sp i).saved ((s.sp i).image (n + 2 ^ 13) e) (s.modeWord (s.sp i))) := State.saveTsb_of_modes rfl rfl
  obtain ⟨y, hy⟩ : ∃ y, y = (s.sp i).saved ((s.sp i).image (n + 2 ^ 13) e) (s.modeWord (s.sp i)) := ⟨_, rfl⟩
  obtain ⟨within, now⟩ := State.saved_drain (s := s.setSp i y) (i := i) (z := y.leave.atHardware n)
    (v := (s.sp i).image (n + 2 ^ 13) e) (mode := s.modeWord (s.sp i)) (order := (s.sp i).memSeq) (by rw [hy]; exact place)
    (by simp [hy, Spindle.atHardware, Spindle.leave, Spindle.saved, stores]) lacks
  rw [← hy] at saves ⊢
  refine ⟨_, ?_, (State.InSpindle.setSp s i _ y).trans within, now⟩
  unfold State.hwEntry
  simp only [place, ops, Option.isNone_some, List.isEmpty_nil, Bool.not_true, Bool.false_eq_true, or_self, if_false, tsb, free, base, saves,
    State.setSp_sp]
  rw [show (s.sp i).eventBase = y.leave.eventBase by rw [hy]; rfl]
  rfl

/-! ### TRAP (R131) -/

/-- The loop check at a retirement does not look at the record of a long operation. -/
theorem loopEndCheck_progress (ba : Word) (p : Progress) : ∀ (n : Nat) (a : Arch),
    loopEndCheck ba n { a with progress := p } = ({ (loopEndCheck ba n a).1 with progress := p }, (loopEndCheck ba n a).2)
  | 0, _ => rfl
  | n + 1, a => by
    have ih := loopEndCheck_progress ba p n { a with loopDepth := a.loopDepth - 1 }
    simp only [loopEndCheck]
    split_ifs
    · rfl
    · rfl
    · exact ih
    · rfl

/-- The bundle of a trigger retires over a dropped resume as it would without, but for the record of the long operation. -/
theorem Spindle.dropped_retired (x : Spindle) (u : Nat) (a : Cap) : ∃ p, (x.dropped.withOperand u a).retired none =
    { (x.withOperand u a).retired none with arch := { ((x.withOperand u a).retired none).arch with progress := p } } := by
  unfold Spindle.dropped
  split
  · refine ⟨{}, ?_⟩
    show Spindle.retired { x.withOperand u a with resume := false, arch := { (x.withOperand u a).arch with progress := {} } } none = _
    simp only [Spindle.retired, Spindle.retire, loopEndCheck_progress]
  · exact ⟨((x.withOperand u a).retired none).arch.progress, rfl⟩

section
variable {s : State} {i : Nat} {h : Place}

/-- The bundle of a TRAP performed: it retires, and the system call is owed. -/
theorem State.perform_trap {a : Word} (alone : (sysTrig 4 (ofWord a)).Alone) (off : (s.sp i).longOn = false) :
    let z : Spindle := { ((s.sp i).withOperand 15 (ofWord a)).retired none with trapPend := some a.toNat }
    let u := (s.setSp i z).afterIssue i h { x := (s.sp i).withOperand 15 (ofWord a), trap := some a.toNat }
    s.perform i h [(sysTrig 4 (ofWord a)).move] 0 = (u.takeEvents i).getD u := by
  have off' : ((s.sp i).withOperand 15 (ofWord a)).longOn = false := off
  unfold State.perform
  simp only [State.started_of_system alone, State.startTrig_of_trap, Cap64_ofWord, Spindle.retireOr, off', Option.isSome_some, Bool.not_false,
    Bool.and_self, if_true, Bool.false_eq_true, if_false]
  rfl

/-- A system call that is owed and can be delivered is. -/
theorem State.takeEvents_of_trap {t : State} {n : Nat} (owed : (s.sp i).trapPend = some n)
    (deliver : s.deliver i n { ba := (s.sp i).ba } = (true, t)) :
    s.takeEvents i = some (t.modSp i fun y => { y with trapPend := none }) := by
  simp only [State.takeEvents, owed, deliver]

/-- A change of one spindle. -/
theorem State.InSpindle.modSp (s : State) (i k : Nat) (f : Spindle → Spindle) : s.InSpindle (s.modSp i f) i k := .setSp s i k _

/-- A TRAP of a ready spindle leaves its bundle retired, up to the record of a long operation, and then the events that are due. -/
theorem State.Ready.trap_retires (ready : s.Ready i h) {a : Word} (small : a.toNat ≤ 4095) :
    let x := ((s.sp i).withOperand 15 (ofWord a)).retired none
    ∃ u p, s.issueTrig i 15 4 0 (ofWord a) = (u.takeEvents i).getD u ∧ s.AtSpindle u i ∧
      u.sp i = { x with arch := { x.arch with progress := p }, trapPend := some a.toNat } := by
  intro x
  have alone : (sysTrig 4 (ofWord a)).Alone := sysTrig_alone (by decide) (by decide) (convertTo_ofWord a)
  have fails : (s.dropResume i).trigFails i (s.sp i).dropped (sysTrig 4 (ofWord a)) = [] := by
    have within : ¬4095 < a.toNat := by omega
    simp [State.trigFails, sysTrig, Trig.w, within]
  have issue := State.issueTrig_of_system ready alone fails (t := s.dropResume i) rfl
  have trap := State.perform_trap (s := s.dropResume i) (i := i) (h := h) alone
    (by rw [s.dropResume_sp, Spindle.dropped_longOn, State.longOn_of_canIssue ready.issues])
  obtain ⟨p, hp⟩ := (s.sp i).dropped_retired 15 (ofWord a)
  rw [s.dropResume_sp, hp] at trap
  obtain ⟨z, hz⟩ : ∃ z, z = { x with arch := { x.arch with progress := p }, trapPend := some a.toNat } := ⟨_, rfl⟩
  have now := (s.dropResume i).setSp_sp i z
  obtain ⟨after, kept⟩ := State.atSpindle_afterIssue (s := (s.dropResume i).setSp i z) (i := i) (h := h)
    (e := { x := (s.sp i).dropped.withOperand 15 (ofWord a), trap := some a.toNat }) rfl rfl
    (by rw [now, hz]; exact ready.ops) (by rw [now, hz]; exact ready.stores) (by rw [now, hz]; exact ready.serial)
  refine ⟨_, p, issue.trans trap, ?_, ?_⟩
  · have entered := (State.AtSpindle.setSp s i (s.sp i).dropped).trans (.setSp (s.dropResume i) i z)
    rw [hz] at entered after
    exact entered.trans after
  · rw [now, hz] at kept
    exact kept

end

theorem Spindle.withOperand_retired_imask (x : Spindle) (u : Nat) (a : Cap) :
    ((x.withOperand u a).retired none).arch.imask = x.arch.imask := by
  obtain ⟨c, d, loops⟩ := loopEndCheck_arch x.ba 5 (x.withOperand u a).arch
  show (loopEndCheck x.ba 5 (x.withOperand u a).arch).1.imask = _
  rw [loops]
  rfl

/-- The bundle of the TRAP retires before the event takes it: the state saved is the one after it, whatever resume was dropped. -/
theorem trapDeliversSystemCall : TrapDeliversSystemCall := by
  intro sp a s h d ready small D x
  obtain ⟨u, p, issue, spindle, now⟩ := ready.trap_retires small
  have stores : (u.sp sp).stores = [] := by
    rw [now]
    exact ready.stores
  have D' : u.Delivers sp a.toNat h d := D.of_atSpindle spindle ready.stores stores (by rw [now]; rfl) (by rw [now]; rfl)
    (by rw [now]; exact (s.sp sp).withOperand_retired_imask 15 _)
  obtain ⟨t, deliver, within, entered⟩ := D'.delivered (by rw [now]; exact ready.place) (by rw [now]; exact ready.ops) stores
    { ba := (u.sp sp).ba }
  have mode : u.modeWord (u.sp sp) = s.modeWord x := by
    rw [State.modeWord_congr spindle.modes, now]
    rfl
  rw [State.takeEvents_of_trap (by rw [now]) deliver, Option.getD_some] at issue
  have all := ((spindle.inSpindle h.skein).trans within).trans (.modSp t sp _ fun y => { y with trapPend := none })
  refine ⟨_, ?_, State.entersHandler_of_arch all ready.stores rfl ?_⟩
  · show done (s.issueTrig sp 15 4 0 (ofWord a)) = _
    rw [issue, done_of_quiet _ (all.quiet ready.quiet)]
  · rw [State.modSp_sp, entered, mode, now]
    exact ⟨rfl, rfl, rfl⟩

/-! ### Interrupts and notices at a boundary (R128, R133, R136) -/

section
variable {s : State} {i : Nat} {h : Place}

theorem State.Boundary.atBoundary (B : s.Boundary i h) : s.atBoundary i = (s, true) := by
  obtain ⟨trap, exhausted, prec⟩ := B.calm
  have awake : (s.sp i).waitUntil.isSome = false := by
    have issues := B.issues
    simp only [State.canIssue, Bool.and_eq_true, Option.isNone_iff_eq_none] at issues
    obtain ⟨⟨⟨⟨-, awake⟩, -⟩, -⟩, -⟩ := issues
    rw [awake, Option.isSome_none]
  simp [State.atBoundary, awake, B.issues, trap, exhausted, prec]

theorem State.takeInterrupt_of_deliver {n : Nat} {ba : Word} {resume : Bool} {t : State}
    (deliver : s.deliver i (4096 + n) { ba := ba, resume := resume } = (true, t)) :
    s.takeInterrupt i n ba resume = t.modSp i fun y => { y with intPending := y.intPending &&& ~~~(BitVec.ofNat 256 (2 ^ n)) } := by
  simp only [State.takeInterrupt, deliver]

theorem State.takeNotice_of_hwEntry {n : Nat} {ba : Word} {resume : Bool} {t : State}
    (enter : s.hwEntry i n { ba := ba, fa := if n = 5 then (s.sp i).notice5.getD 0 else 0, resume := resume } = (true, t)) :
    s.takeNotice i n ba resume = t.modSp i fun y =>
      { y with notice1 := y.notice1 && n != 1, notice2 := y.notice2 && n != 2, notice5 := if n = 5 then none else y.notice5 } := by
  simp only [State.takeNotice, enter]

end

theorem exec_interruptDelivery_of_due {s : State} {sp : SpId} {h : Place} {n : Nat} (B : s.Boundary sp h) (noNotice : dueNotice (s.sp sp) = none)
    (due : dueInterrupt (s.sp sp) = some n) :
    exec (.interruptDelivery sp) s = done (s.takeInterrupt sp n (s.sp sp).ba (s.sp sp).resume) := by
  show execInterruptDelivery sp s = _
  simp [execInterruptDelivery, B.atBoundary, noNotice, due]

theorem exec_noticeDelivery_of_due {s : State} {sp : SpId} {h : Place} {n : Nat} (B : s.Boundary sp h) (due : dueNotice (s.sp sp) = some n) :
    exec (.noticeDelivery sp) s = done (s.takeNotice sp n (s.sp sp).ba (s.sp sp).resume) := by
  show execNoticeDelivery sp s = _
  simp [execNoticeDelivery, B.atBoundary, due]

/-- The two claims differ in the way in: a descriptor of the TDT, or EVENT_BASE. -/
theorem dueEventsAreDelivered : DueEventsAreDelivered := by
  intro sp n s h B x
  refine ⟨fun d noNotice due D => ?_, fun due tsb free base lacks => ?_⟩
  · obtain ⟨t, deliver, within, entered⟩ := D.delivered B.place B.ops B.stores { ba := x.ba, resume := x.resume }
    have all := within.trans (.modSp t sp _ fun y => { y with intPending := y.intPending &&& ~~~(BitVec.ofNat 256 (2 ^ n)) })
    refine ⟨_, ?_, State.entersHandler_of_arch all B.stores rfl ?_, ?_⟩
    · rw [exec_interruptDelivery_of_due B noNotice due, State.takeInterrupt_of_deliver deliver, done_of_quiet _ (all.quiet B.quiet)]
    · rw [State.modSp_sp, entered]
      exact ⟨rfl, rfl, rfl⟩
    · rw [State.modSp_sp, entered]
      rfl
  · obtain ⟨t, enter, within, entered⟩ := State.hwEntry_enters n
      { ba := x.ba, fa := if n = 5 then x.notice5.getD 0 else 0, resume := x.resume } B.place B.ops B.stores tsb free base lacks
    have all := within.trans (.modSp t sp _ fun y =>
      { y with notice1 := y.notice1 && n != 1, notice2 := y.notice2 && n != 2, notice5 := if n = 5 then none else y.notice5 })
    refine ⟨_, ?_, all.sameOutside, ?_⟩
    · rw [exec_noticeDelivery_of_due B due, State.takeNotice_of_hwEntry enter, done_of_quiet _ (all.quiet B.quiet)]
    · rw [State.modSp_sp, entered]
      refine ⟨rfl, rfl, rfl, ?_, ?_, ?_, ?_⟩
      · simp [Spindle.atHardware, Spindle.leave, Spindle.saved, B.stores, x]
      · rintro rfl
        simp
      · rintro rfl
        simp
      · rintro rfl
        simp

/-- Settles O51: the delivery saves the state as stores that wait for the TSB's lines, and enters the handler. -/
theorem eventsReachTheirHandlers : Obligations.EventsReachTheirHandlers :=
  ⟨trapDeliversSystemCall, dueEventsAreDelivered⟩

end Sys2Proof.Machine

/-!
PROOFS. The return from an event: from the TSB, and from the save slot (R138).
-/

namespace Sys2Proof.Machine

/-! ### IMASK with its busy bits (R132) -/

section
variable (n : Nat) (notice tsb slot : Bool)

theorem getLsbD_tsb_imaskOf : (imaskOf n notice tsb slot).getLsbD 16 = tsb := by
  unfold imaskOf
  rw [BitVec.getLsbD_ofNat, Nat.testBit_eq_decide_div_mod_eq]
  cases notice <;> cases tsb <;> cases slot <;> simp [b2n] <;> omega

theorem getLsbD_slot_imaskOf : (imaskOf n notice tsb slot).getLsbD 17 = slot := by
  unfold imaskOf
  rw [BitVec.getLsbD_ofNat, Nat.testBit_eq_decide_div_mod_eq]
  cases notice <;> cases tsb <;> cases slot <;> simp [b2n] <;> omega

end

section
variable (x : Spindle) (v : Saved) (tsb slot : Bool)

theorem Spindle.restore_tsbBusy : tsbBusy (x.restore v tsb slot) = tsb := getLsbD_tsb_imaskOf _ _ _ _
theorem Spindle.restore_slotBusy : slotBusy (x.restore v tsb slot) = slot := getLsbD_slot_imaskOf _ _ _ _

/-- A restore brings back every register, so that a resume dropped before it does not matter. -/
theorem Spindle.restore_dropped (u : Nat) (a : Cap) :
    (x.dropped.withOperand u a).restore v tsb slot = (x.withOperand u a).restore v tsb slot := by
  unfold Spindle.dropped
  split <;> rfl

/-- Of the live registers, a restored image keeps sockets alone. -/
theorem imageSaved_congr (f : Nat → Cap) {a b : Arch} (h : a.units = b.units) : imageSaved f a = imageSaved f b := by
  unfold imageSaved
  rw [h]

theorem Spindle.dropped_units (u : Nat) (a : Cap) : (x.dropped.withOperand u a).arch.units = (x.withOperand u a).arch.units := by
  obtain ⟨p, h⟩ := x.dropped_arch
  simp only [Spindle.withOperand, h, Arch.modUnit]

@[simp] theorem Spindle.dropped_imask : x.dropped.arch.imask = x.arch.imask := by
  obtain ⟨p, h⟩ := x.dropped_arch
  rw [h]
@[simp] theorem Spindle.dropped_tsb : x.dropped.tsb = x.tsb := by unfold Spindle.dropped; split <;> rfl
@[simp] theorem Spindle.dropped_memSeq : x.dropped.memSeq = x.memSeq := by unfold Spindle.dropped; split <;> rfl
@[simp] theorem Spindle.dropped_host : x.dropped.host = x.host := by unfold Spindle.dropped; split <;> rfl
@[simp] theorem Spindle.dropped_slot : x.dropped.slot = x.slot := by unfold Spindle.dropped; split <;> rfl

end

/-! ### The bundle of an ERET (R50, R138) -/

/-- A variant of ERET as operand 0 (R138). -/
theorem sysTrig_variant {k : Nat} (hk : k < 4) : (sysTrig 5 (capNum k)).Alone ∧ (Cap64 (capNum k)).toNat % 4 = k := by
  have all : ∀ j : Fin 4, convertTo .w64 true (capNum j) = capNum j ∧ (Cap64 (capNum j)).toNat % 4 = j := by decide
  obtain ⟨fits, variant⟩ := all ⟨k, hk⟩
  exact ⟨sysTrig_alone (by decide) (by decide) fits, variant⟩

section
variable {s : State} {i : Nat} {h : Place} {k : Nat}

/-- The state in which the bundle of ERET variant k takes effect. -/
def State.returning (s : State) (i : Nat) (h : Place) (k : Nat) : State :=
  let y := (s.sp i).withOperand 15 (capNum k)
  (s.setSp i y).afterIssue i h { x := y, eret := some k }

theorem State.atSpindle_returning (ops : (s.sp i).ops = []) (stores : (s.sp i).stores = []) (serial : (s.sp i).serial = none) :
    s.AtSpindle (s.returning i h k) i ∧ (s.returning i h k).sp i = (s.sp i).withOperand 15 (capNum k) := by
  have now := s.setSp_sp i ((s.sp i).withOperand 15 (capNum k))
  obtain ⟨after, kept⟩ := State.atSpindle_afterIssue (s := s.setSp i ((s.sp i).withOperand 15 (capNum k))) (i := i) (h := h)
    (e := { x := (s.sp i).withOperand 15 (capNum k), eret := some k }) rfl rfl (by rw [now]; exact ops) (by rw [now]; exact stores)
    (by rw [now]; exact serial)
  exact ⟨(State.AtSpindle.setSp s i _).trans after, kept.trans now⟩

/-- Variants 0 and 3 return from the TSB. -/
theorem State.perform_eret_tsb (hk : k = 0 ∨ k = 3) :
    s.perform i h [(sysTrig 5 (capNum k)).move] 0 = ((s.returning i h k).eret0 i (s.sp i).ba).2 := by
  obtain ⟨alone, variant⟩ := sysTrig_variant (k := k) (by omega)
  unfold State.perform
  simp only [State.started_of_system alone, State.startTrig_of_eret, variant, hk, if_true]
  rfl

/-- Variant 1 writes the save slot's state to the TSB and retires. -/
theorem State.perform_eret_slot_to_tsb (busy : (s.sp i).arch.imask.getLsbD 17 = true)
    (tsb : (s.returning i h 1).tsbOk ((s.sp i).withOperand 15 (capNum 1)) = true) :
    s.perform i h [(sysTrig 5 (capNum 1)).move] 0 = ((s.returning i h 1).eret1 i).modSp i fun y => y.retireOr none none := by
  obtain ⟨alone, variant⟩ := sysTrig_variant (k := 1) (by decide)
  have busy' : slotBusy ((s.sp i).withOperand 15 (capNum 1)) = true := busy
  unfold State.returning at tsb ⊢
  unfold State.perform
  simp only [State.started_of_system alone, State.startTrig_of_eret, variant, busy', tsb, Nat.reduceEqDiff, one_ne_zero, or_self, if_true, if_false]

/-- Variant 2 returns from the save slot. -/
theorem State.perform_eret_slot (busy : (s.sp i).arch.imask.getLsbD 17 = true) :
    s.perform i h [(sysTrig 5 (capNum 2)).move] 0 = (s.returning i h 2).eret2 i := by
  obtain ⟨alone, variant⟩ := sysTrig_variant (k := 2) (by decide)
  have busy' : slotBusy ((s.sp i).withOperand 15 (capNum 2)) = true := busy
  unfold State.perform
  simp only [State.started_of_system alone, State.startTrig_of_eret, variant, busy', Nat.reduceEqDiff, OfNat.ofNat_ne_zero, or_self, if_true, if_false]
  rfl

/-- An ERET of a ready spindle raises no event of its own. -/
theorem State.trigFails_of_eret (x : Spindle) (a : Cap) : s.trigFails i x (sysTrig 5 a) = [] := rfl

/-- A return from the TSB whose lines are all here: every register comes back, and TSB_BUSY is 0. -/
theorem State.eret0_restores {x : Spindle} {ba : Word} (now : s.sp i = x) (place : x.host = some h) (stores : x.stores = [])
    (tsb : s.tsbOk x = true) (here : s.LinesHere h (linesOf (capBase x.tsb) 6144)) {f : Nat → Cap}
    (image : ∀ g, s.viewGranule i h (capBase x.tsb + 16 * g) x.memSeq = f g) (depth : (loWord (f 6)).toNat ≤ 4) :
    ∃ t, s.eret0 i ba = (true, t) ∧ s.InSpindle t i h.skein ∧ t.sp i = x.restore (imageSaved f x.arch) false (slotBusy x) := by
  obtain ⟨u, want, touches⟩ := State.wantLines_of_here false here
  have same : u.sp i = x := (touches.sp i).trans now
  have read (g : Nat) : u.viewGranule i h (capBase x.tsb + 16 * g) x.memSeq = f g := by
    rw [← image]
    exact State.viewGranule_congr (by rw [now, stores]) (by rw [same, stores]) touches.val _ _ _
  have clean : ((linesOf (capBase x.tsb) 6144).any fun l => (u.viewLine i h l x.memSeq).poison) = false := by
    simp only [State.viewLine_of_no_stores h _ _ (show (u.sp i).stores = [] by rw [same, stores])]
    exact (here.of_touches touches).no_poison
  have shallow : ¬4 < (loWord (f 6)).toNat := by omega
  refine ⟨_, ?_, (State.InSpindle.of_inSkein touches.toInSkein i).trans (.setSp u i _ _), State.setSp_sp _ _ _⟩
  simp only [State.eret0, now, place, tsb, want, clean, read, shallow, same, Bool.not_true, Bool.false_eq_true, if_false]

/-- Variants 0 and 3 of a ready spindle that has the lines of its TSB. -/
theorem State.Ready.eret_tsb (ready : s.Ready i h) (hk : k = 0 ∨ k = 3) (tsb : s.tsbOk (s.sp i) = true)
    (here : s.LinesHere h (linesOf (capBase (s.sp i).tsb) 6144)) {y : Spindle} (hy : y = (s.sp i).withOperand 15 (capNum k))
    {f : Nat → Cap} (image : ∀ g, s.viewGranule i h (capBase y.tsb + 16 * g) y.memSeq = f g) (depth : (loWord (f 6)).toNat ≤ 4) :
    s.InSpindle (s.issueTrig i 15 5 0 (capNum k)) i h.skein ∧
      (s.issueTrig i 15 5 0 (capNum k)).sp i = y.restore (imageSaved f y.arch) false (slotBusy y) := by
  obtain ⟨alone, variant⟩ := sysTrig_variant (k := k) (by omega)
  have drops : s.AtSpindle (s.dropResume i) i := .setSp s i _
  have dropped := s.dropResume_sp i
  have lines : (s.dropResume i).blockLines (s.sp i).dropped (sysTrig 5 (capNum k)) = linesOf (capBase (s.sp i).tsb) 6144 := by
    have ok : (s.dropResume i).tsbOk (s.sp i).dropped = true := ((drops.inSpindle 0).tsbOk (s.sp i).dropped_tsb).trans tsb
    have reads : ((Cap64 (capNum k)).toNat % 4 == 0 || (Cap64 (capNum k)).toNat % 4 == 3) = true := by
      rw [variant]
      simpa using hk
    simp [State.blockLines, ok, sysTrig, Trig.w, reads, Spindle.dropped_tsb]
  obtain ⟨u, want, touches⟩ := State.wantLines_of_here false (drops.linesHere here)
  have issue : s.issueTrig i 15 5 0 (capNum k) = u.perform i h [(sysTrig 5 (capNum k)).move] 0 :=
    State.issueTrig_of_system ready alone (State.trigFails_of_eret _ _) (by rw [lines, want])
  obtain ⟨ops, stores, serial⟩ := State.dropResume_idle ready
  rw [← touches.sp i] at ops stores serial dropped
  obtain ⟨moves, now⟩ := State.atSpindle_returning (h := h) (k := k) ops stores serial
  rw [dropped] at now
  have within : s.InSpindle (u.returning i h k) i h.skein :=
    ((drops.inSpindle _).trans (.of_inSkein touches.toInSkein i)).trans (moves.inSpindle _)
  have block : ((s.sp i).dropped.withOperand 15 (capNum k)).tsb = (s.sp i).tsb := (s.sp i).dropped_tsb
  have seq : ((s.sp i).dropped.withOperand 15 (capNum k)).memSeq = y.memSeq := by
    rw [hy]
    exact (s.sp i).dropped_memSeq
  have waits : ((s.sp i).dropped.withOperand 15 (capNum k)).stores = [] := (s.sp i).dropped_stores.trans ready.stores
  have same (l : Nat) : ((u.returning i h k).skl h.skein l).val = (s.skl h.skein l).val := by rw [moves.skl, touches.val, drops.skl]
  have read (g : Nat) : (u.returning i h k).viewGranule i h (capBase ((s.sp i).dropped.withOperand 15 (capNum k)).tsb + 16 * g)
      ((s.sp i).dropped.withOperand 15 (capNum k)).memSeq = f g := by
    rw [← image, block, seq, show y.tsb = (s.sp i).tsb by rw [hy]; rfl]
    exact State.viewGranule_congr ready.stores (by rw [now, waits]) same _ _ _
  obtain ⟨t, returns, restores, regs⟩ := State.eret0_restores (ba := (u.sp i).ba) now ((s.sp i).dropped_host.trans ready.place) waits
    ((within.tsbOk block).trans tsb) (by rw [block]; exact moves.linesHere ((drops.linesHere here).of_touches touches)) read depth
  rw [issue, State.perform_eret_tsb hk, returns]
  refine ⟨within.trans restores, ?_⟩
  have busy : slotBusy ((s.sp i).dropped.withOperand 15 (capNum k)) = slotBusy y := by
    rw [hy]
    exact congrArg (fun w : Word => w.getLsbD 17) (s.sp i).dropped_imask
  rw [regs, busy, hy, Spindle.restore_dropped, imageSaved_congr f ((s.sp i).dropped_units 15 _)]

/-- Variants 1 and 2 of a ready spindle read nothing before they take effect. -/
theorem State.Ready.eret_slot_performs (ready : s.Ready i h) (hk : k = 1 ∨ k = 2) :
    s.issueTrig i 15 5 0 (capNum k) = (s.dropResume i).perform i h [(sysTrig 5 (capNum k)).move] 0 := by
  obtain ⟨alone, variant⟩ := sysTrig_variant (k := k) (by omega)
  have reads : ((Cap64 (capNum k)).toNat % 4 == 0 || (Cap64 (capNum k)).toNat % 4 == 3) = false := by
    rw [variant]
    rcases hk with rfl | rfl <;> rfl
  have noLines : (s.dropResume i).blockLines (s.sp i).dropped (sysTrig 5 (capNum k)) = [] := by
    simp [State.blockLines, sysTrig, Trig.w, reads]
  exact State.issueTrig_of_system ready alone (State.trigFails_of_eret _ _) (by rw [noLines]; rfl)

/-- What the bundle of a ready spindle leaves in which ERET variant k takes effect. -/
theorem State.Ready.returning (ready : s.Ready i h) (k : Nat) : s.AtSpindle ((s.dropResume i).returning i h k) i ∧
    ((s.dropResume i).returning i h k).sp i = (s.sp i).dropped.withOperand 15 (capNum k) := by
  obtain ⟨ops, stores, serial⟩ := State.dropResume_idle ready
  obtain ⟨moves, now⟩ := State.atSpindle_returning (h := h) (k := k) ops stores serial
  exact ⟨(State.AtSpindle.setSp s i _).trans moves, now.trans (by rw [s.dropResume_sp])⟩

/-- A spindle once the save slot's state v has become the image in its TSB (R138). -/
def Spindle.slotSaved (x : Spindle) (v : Saved) (mode : Word) : Spindle :=
  { x.saved v mode with
    slot := none, arch := { x.arch with imask := imaskOf (bits x.arch.imask.toNat 0 5) (x.arch.imask.getLsbD 8) true false } }

theorem State.eret1_saves {x : Spindle} {v : Saved} (now : s.sp i = x) (place : x.host = some h) (stores : x.stores = [])
    (slot : x.slot = some v) (tsb : s.tsbOk x = true) (lacks : (s.skl h.skein (lineOf (capBase x.tsb))).held = false) :
    s.InSpindle (s.eret1 i) i h.skein ∧ (s.eret1 i).sp i = x.slotSaved v (s.savedMode x v) := by
  have saves : s.saveTsb i v = s.setSp i (x.saved v (s.savedMode x v)) := by
    rw [← now]
    rfl
  obtain ⟨y, hy⟩ : ∃ y, y = x.saved v (s.savedMode x v) := ⟨_, rfl⟩
  have waits : (x.slotSaved v (s.savedMode x v)).stores = saveStores v (s.savedMode x v) (capBase x.tsb) x.memSeq := by
    simp [Spindle.slotSaved, Spindle.saved, stores]
  obtain ⟨within, kept⟩ := State.saved_drain (s := s.setSp i y) (i := i) (h := h) (z := x.slotSaved v (s.savedMode x v))
    (by simp only [Spindle.slotSaved, Spindle.saved, place]) waits
    (by rw [State.skl_setSp, lacks])
  have eret : s.eret1 i = ((s.setSp i y).setSp i (x.slotSaved v (s.savedMode x v))).drain i := by
    simp only [State.eret1, now, slot, tsb, Bool.not_true, Bool.false_eq_true, if_false, saves, ← hy, State.modSp, State.setSp_sp]
    rw [hy]
    rfl
  rw [eret]
  exact ⟨(State.InSpindle.setSp s i _ y).trans within, kept⟩

/-- Variant 1 of a ready spindle whose save slot holds state v. -/
theorem State.Ready.eret_slot_to_tsb (ready : s.Ready i h) {v : Saved} (slot : (s.sp i).slot = some v) (busy : slotBusy (s.sp i) = true)
    (tsb : s.tsbOk (s.sp i) = true) (lacks : (s.skl h.skein (lineOf (capBase (s.sp i).tsb))).held = false) :
    s.InSpindle (s.issueTrig i 15 5 0 (capNum 1)) i h.skein ∧ (s.issueTrig i 15 5 0 (capNum 1)).sp i =
      (((s.sp i).dropped.withOperand 15 (capNum 1)).slotSaved v (s.savedMode (s.sp i) v)).retireOr none none := by
  obtain ⟨moves, now⟩ := ready.returning 1
  obtain ⟨x, hx⟩ : ∃ x, x = (s.sp i).dropped.withOperand 15 (capNum 1) := ⟨_, rfl⟩
  have block : x.tsb = (s.sp i).tsb := by rw [hx]; exact (s.sp i).dropped_tsb
  have place : x.host = (s.sp i).host := by rw [hx]; exact (s.sp i).dropped_host
  have stores : x.stores = [] := by rw [hx]; exact (s.sp i).dropped_stores.trans ready.stores
  have held : x.slot = some v := by rw [hx]; exact (s.sp i).dropped_slot.trans slot
  have mode : ((s.dropResume i).returning i h 1).savedMode x v = s.savedMode (s.sp i) v := by
    rw [State.savedMode, State.modeWord_congr moves.modes]
    simp only [State.savedMode, State.modeWord, place]
  rw [← hx] at now ⊢
  have ok : ((s.dropResume i).returning i h 1).tsbOk x = true := ((moves.inSpindle 0).tsbOk block).trans tsb
  obtain ⟨within, saved⟩ := State.eret1_saves now (place.trans ready.place) stores held ok (by rw [moves.skl, block, lacks])
  have issue := ready.eret_slot_performs (k := 1) (Or.inl rfl)
  rw [State.perform_eret_slot_to_tsb (by rw [s.dropResume_sp, Spindle.dropped_imask]; exact busy) (by rw [s.dropResume_sp, ← hx, ok])] at issue
  rw [issue]
  exact ⟨((moves.inSpindle _).trans within).trans (.modSp _ i _ _), by rw [State.modSp_sp, saved, mode]⟩

/-- Variant 2 of a ready spindle whose save slot holds state v. -/
theorem State.Ready.eret_slot (ready : s.Ready i h) {v : Saved} (slot : (s.sp i).slot = some v) (busy : slotBusy (s.sp i) = true) :
    s.AtSpindle (s.issueTrig i 15 5 0 (capNum 2)) i ∧ ∃ us, (s.issueTrig i 15 5 0 (capNum 2)).sp i =
      { ((s.sp i).withOperand 15 (capNum 2)).restore { v with arch := { v.arch with units := us } } (tsbBusy (s.sp i)) false with
        slot := none } := by
  obtain ⟨moves, now⟩ := ready.returning 2
  have held : ((s.sp i).dropped.withOperand 15 (capNum 2)).slot = some v := (s.sp i).dropped_slot.trans slot
  have tsb : tsbBusy ((s.sp i).dropped.withOperand 15 (capNum 2)) = tsbBusy (s.sp i) :=
    congrArg (fun w : Word => w.getLsbD 16) (s.sp i).dropped_imask
  rw [ready.eret_slot_performs (Or.inr rfl), State.perform_eret_slot (by rw [s.dropResume_sp, Spindle.dropped_imask]; exact busy)]
  simp only [State.eret2, now, held, tsb, Spindle.restore_dropped]
  exact ⟨moves.trans (.setSp _ i _), _, State.setSp_sp _ _ _⟩

end

/-- A short bundle that retires keeps the save slot, IMASK and the stores that wait. -/
theorem Spindle.retireOr_kept (x : Spindle) :
    (x.retireOr none none).slot = x.slot ∧ (x.retireOr none none).arch.imask = x.arch.imask ∧ (x.retireOr none none).stores = x.stores := by
  obtain ⟨c, d, loops⟩ := loopEndCheck_arch x.ba 5 x.arch
  unfold Spindle.retireOr
  split
  · exact ⟨rfl, rfl, rfl⟩
  · refine ⟨rfl, ?_, rfl⟩
    show (loopEndCheck x.ba 5 x.arch).1.imask = _
    rw [loops]

section
variable (x : Spindle) (v : Saved) (mode : Word)

theorem Spindle.slotSaved_slot : (x.slotSaved v mode).slot = none := by unfold Spindle.slotSaved; rfl
theorem Spindle.slotSaved_stores : (x.slotSaved v mode).stores = x.stores ++ saveStores v mode (capBase x.tsb) x.memSeq := by
  unfold Spindle.slotSaved; rfl
theorem Spindle.slotSaved_tsbBusy : (x.slotSaved v mode).arch.imask.getLsbD 16 = true := by
  unfold Spindle.slotSaved
  exact getLsbD_tsb_imaskOf _ _ _ _
theorem Spindle.slotSaved_slotBusy : (x.slotSaved v mode).arch.imask.getLsbD 17 = false := by
  unfold Spindle.slotSaved
  exact getLsbD_slot_imaskOf _ _ _ _

end

/-- Settles O4: the bundle reads the lines of its TSB, if it needs them, and the return brings back the state that it says. -/
theorem eretRestoresSavedState : Obligations.EretRestoresSavedState := by
  intro sp s h ready
  refine ⟨?_, fun v slot busy => ⟨fun tsb lacks => ?_, ?_⟩⟩
  · intro r tsb here y f depth
    have variant : (if r then 3 else 0) = 0 ∨ (if r then 3 else 0) = 3 := by cases r <;> simp
    obtain ⟨within, restored⟩ := ready.eret_tsb variant tsb here (y := y) rfl (f := f) (fun _ => rfl) depth
    refine ⟨_, done_of_quiet _ (within.quiet ready.quiet), within.sameOutside, restored, ?_, ?_⟩
    · rw [restored]
      rfl
    · rw [restored, Spindle.restore_tsbBusy]
  · obtain ⟨within, saved⟩ := ready.eret_slot_to_tsb slot busy tsb lacks
    obtain ⟨x, hx⟩ : ∃ x, x = (s.sp sp).dropped.withOperand 15 (capNum 1) := ⟨_, rfl⟩
    have stores : x.stores = [] := by rw [hx]; exact (s.sp sp).dropped_stores.trans ready.stores
    have tsb' : x.tsb = (s.sp sp).tsb := by rw [hx]; exact (s.sp sp).dropped_tsb
    have seq : x.memSeq = (s.sp sp).memSeq := by rw [hx]; exact (s.sp sp).dropped_memSeq
    obtain ⟨hslot, himask, hstores⟩ := (x.slotSaved v (s.savedMode (s.sp sp) v)).retireOr_kept
    rw [← hx] at saved
    refine ⟨_, done_of_quiet _ (within.quiet ready.quiet), within.sameOutside, ?_, ?_, ?_, ?_⟩
    · rw [saved, hslot, Spindle.slotSaved_slot]
    · rw [saved, tsbBusy, himask, Spindle.slotSaved_tsbBusy]
    · rw [saved, slotBusy, himask, Spindle.slotSaved_slotBusy]
    · rw [saved, hstores, Spindle.slotSaved_stores, stores, tsb', seq, List.nil_append]
  · obtain ⟨only, us, restored⟩ := ready.eret_slot slot busy
    refine ⟨_, done_of_quiet _ ((only.inSpindle 0).quiet ready.quiet), only.onlySpindle, ?_⟩
    rw [restored]
    exact ⟨rfl, rfl, rfl, rfl, rfl, getLsbD_slot_imaskOf _ _ _ _, getLsbD_tsb_imaskOf _ _ _ _⟩

end Sys2Proof.Machine

/-!
PROOFS. The reactions that the fault collector queues and the skeins (R427, R433), and the training of a strand whose two ends are split
differently (R19, R278, R279).
-/

namespace Sys2Proof.Machine

/-! ### The counter of free values over a report (R426 to R443) -/

section
variable (s : State)

@[simp] theorem State.todo_freeCtr (r : React) : (s.todo r).freeCtr = s.freeCtr := rfl
@[simp] theorem State.setErr_freeCtr : s.setErr.freeCtr = s.freeCtr := rfl

@[simp] theorem State.raiseIntr_freeCtr (i n : Nat) : (s.raiseIntr i n).freeCtr = s.freeCtr := by rw [s.raiseIntr_rest]

@[simp] theorem State.notifyIntr_freeCtr (id part n : Nat) : (s.notifyIntr id part n).freeCtr = s.freeCtr := by
  unfold State.notifyIntr
  split
  · exact s.raiseIntr_freeCtr _ _
  · rfl

@[simp] theorem State.applyRung_freeCtr (r : ActRec) (k : Nat) : (s.applyRung r k).freeCtr = s.freeCtr := by
  unfold State.applyRung
  extract_lets t
  have asked : t.freeCtr = s.freeCtr := by
    unfold t
    repeat' split
    all_goals rfl
  split <;> exact asked

@[simp] theorem State.requestSnap_freeCtr (trigger source seq : Nat) : (s.requestSnap trigger source seq).freeCtr = s.freeCtr := by
  unfold State.requestSnap
  extract_lets f r join
  repeat' split
  all_goals rfl

@[simp] theorem State.logRecord_freeCtr (r : LogRec) : (s.logRecord r).freeCtr = s.freeCtr := by
  unfold State.logRecord
  extract_lets f
  split <;> rfl

@[simp] theorem State.openRecord_freeCtr (e : EventIn) (owner sev handled : Nat) : (s.openRecord e owner sev handled).freeCtr = s.freeCtr := by
  unfold State.openRecord
  extract_lets f
  split
  · rfl
  · split
    · split
      next n due _ =>
        simp only [State.setErr_freeCtr, State.applyRung_freeCtr, State.notifyIntr_freeCtr]
        split <;> simp
    · simp

@[simp] theorem State.collectCore_freeCtr (e : EventIn) (forced : Bool) (rung : Nat) : (s.collectCore e forced rung).freeCtr = s.freeCtr := by
  unfold State.collectCore
  extract_lets t block key g base sev owner handled s1
  split
  next => rfl
  next full s2 s3 s4 s5 _ =>
    have h2 : s2.freeCtr = s.freeCtr := s1.logRecord_freeCtr _
    have h3 : s3.freeCtr = s.freeCtr := by
      unfold s3
      split <;> simp [h2]
    have h4 : s4.freeCtr = s.freeCtr := by
      unfold s4
      split <;> simp [h3]
    have h5 : s5.freeCtr = s.freeCtr := by
      unfold s5
      split <;> simp [h4]
    split <;> simp [h5]

@[simp] theorem State.collect_freeCtr (e : EventIn) (forced : Bool) (rung : Nat) : (s.collect e forced rung).freeCtr = s.freeCtr := by
  unfold State.collect State.rollSecond
  rw [State.collectCore_freeCtr]
  extract_lets sec n t
  split
  · rfl
  · split <;> simp [t]

/-- Each event that is raised takes a free value. -/
theorem State.raise_freeCtr (src inst : Nat) (spindle : Option Nat) : (s.raise src inst spindle).freeCtr = s.freeCtr + 1 := by
  unfold State.raise
  rw [State.collect_freeCtr]

end

/-! ### Skeins over the reactions (R427, R433, R458) -/

/-- From s to t no skein has changed, and no free value was taken. -/
structure State.KeepsSkeins (s t : State) : Prop where
  skeins : ∀ k, t.sk k = s.sk k
  free : t.freeCtr = s.freeCtr

namespace State.KeepsSkeins

variable {s t u : State}

theorem refl (s : State) : s.KeepsSkeins s := ⟨fun _ => rfl, rfl⟩
theorem trans (h : s.KeepsSkeins t) (g : t.KeepsSkeins u) : s.KeepsSkeins u :=
  ⟨fun k => (g.skeins k).trans (h.skeins k), g.free.trans h.free⟩

theorem of_reports (h : s.Reports t) (free : t.freeCtr = s.freeCtr) : s.KeepsSkeins t where
  skeins k := by
    rw [h.rest]
    rfl
  free := free

theorem ite {c : Prop} [Decidable c] (ht : s.KeepsSkeins t) (hu : s.KeepsSkeins u) : s.KeepsSkeins (if c then t else u) := by
  split
  · exact ht
  · exact hu

end State.KeepsSkeins

section
variable (s : State)

theorem State.keepsSkeins_modFaults (f : Faults → Faults) : s.KeepsSkeins (s.modFaults f) := ⟨fun _ => rfl, rfl⟩
theorem State.keepsSkeins_modMbox (page : Nat) (f : Mbox → Mbox) : s.KeepsSkeins (s.modMbox page f) := ⟨fun _ => rfl, rfl⟩
theorem State.keepsSkeins_modSp (i : Nat) (f : Spindle → Spindle) : s.KeepsSkeins (s.modSp i f) := ⟨fun _ => rfl, rfl⟩

theorem State.keepsSkeins_postNotice (page ty : Nat) (args : List Nat) : s.KeepsSkeins (s.postNotice page ty args) :=
  .ite ((s.keepsSkeins_modMbox page _).trans (.of_reports (State.reports_notifyIntr _ _ _ _) (State.notifyIntr_freeCtr _ _ _ _))) <|
    .ite (s.keepsSkeins_modMbox page _) ((s.keepsSkeins_modMbox page _).trans (State.keepsSkeins_modFaults _ _))

theorem State.keepsSkeins_stopSpindle (i cause seq tsbCause : Nat) : s.KeepsSkeins (s.stopSpindle i cause seq tsbCause) := by
  have stopped := s.keepsSkeins_modSp i fun x => { x with stopped := cause }
  have posted := stopped.trans (State.keepsSkeins_postNotice _ 0 1 (i :: [cause, seq, tsbCause]))
  refine .ite (.refl s) ?_
  unfold State.spindleNotice
  dsimp only
  split
  · exact .ite posted (posted.trans (State.keepsSkeins_postNotice _ _ _ _))
  · exact posted

theorem State.keepsSkeins_halt : s.KeepsSkeins s.halt := by
  refine .ite (.refl s) ?_
  split <;> exact ⟨fun _ => rfl, rfl⟩

/-- The loss of a skein that is lost takes a free value, for its event. -/
theorem State.skeinLoss_keeps_or_raises (k : Nat) (why : LossCause) :
    s.KeepsSkeins (s.skeinLoss k why) ∨ (s.skeinLoss k why).freeCtr ≠ 0 := by
  unfold State.skeinLoss
  extract_lets b kind hosts others moving s1 dirty s2 s3 s4 s5 s6 s7 s8 s9 s10
  split
  · exact Or.inl (.refl s)
  · right
    clear_value s10
    cases kind <;> simp only [State.raise_freeCtr] <;> exact Nat.succ_ne_zero _

/-- A reaction leaves the skeins as they are, or takes a free value. -/
theorem State.react_keeps_or_raises (r : React) : s.KeepsSkeins (s.react r) ∨ (s.react r).freeCtr ≠ 0 := by
  cases r with
  | event e rung => exact Or.inl (.of_reports (s.reports_collect _ _ _) (s.collect_freeCtr _ _ _))
  | stop i cause seq tsb => exact Or.inl (s.keepsSkeins_stopSpindle _ _ _ _)
  | stopPart p seq => exact Or.inl (foldS_ind (s.KeepsSkeins ·) _ (fun i t ht => ht.trans (t.keepsSkeins_stopSpindle _ _ _ _)) _ _ (.refl s))
  | loseSkein k why => exact s.skeinLoss_keeps_or_raises k why
  | halt => exact Or.inl s.keepsSkeins_halt
  | fatalSnap src seq => exact Or.inl (.of_reports (s.reports_requestSnap _ _ _) (s.requestSnap_freeCtr _ _ _))

end

theorem settleN_of_quiet {n : Nat} {s : State} (quiet : s.faults.todo = []) : settleN n s = s := by
  cases n with
  | zero => rfl
  | succ n =>
    unfold settleN
    rw [quiet]

theorem settleN_of_queue {n : Nat} {s : State} {r : React} {rest : List React} (queue : s.faults.todo = r :: rest) :
    settleN (n + 1) s = settleN n ((s.modFaults fun f => { f with todo := rest }).react r) := by
  rw [settleN, queue]

/-- Where no free value has been taken in the end, the reactions have left the skeins as they were. -/
theorem keepsSkeins_settleN : ∀ (n : Nat) (s : State), (settleN n s).freeCtr = 0 → s.KeepsSkeins (settleN n s)
  | 0, s, _ => .refl s
  | n + 1, s, untaken => by
    cases queue : s.faults.todo with
    | nil => rw [settleN_of_quiet queue]; exact .refl s
    | cons r rest =>
      rw [settleN_of_queue queue] at untaken ⊢
      have later := keepsSkeins_settleN n _ untaken
      have now := ((s.modFaults fun f => { f with todo := rest }).react_keeps_or_raises r).resolve_right (by simp [← later.free, untaken])
      exact ((s.keepsSkeins_modFaults _).trans now).trans later

theorem State.settle_keeps_skeins {s t : State} (settles : s.settle = t) (untaken : t.freeCtr = 0) (k : Nat) : s.sk k = t.sk k := by
  subst settles
  exact ((keepsSkeins_settleN 262144 s untaken).skeins k).symm

/-! ### A strand whose two ends are split differently (R19, R278, R279) -/

/-- Skein 5 in training, with 64 lanes to the hub, against an admitted buddy that has 48. -/
def unevenStrand : State :=
  { cores := { skeins := [(4, { present := true, lanes := BitVec.allOnes 96 }), (5, { linkState := 1 })] },
    jalif := { boot := { strand := [(4, 3)] } } }

/-- Every lane is good at both ends. -/
def goodEnds : EndMasks := ⟨BitVec.allOnes 96, BitVec.allOnes 96⟩

theorem exec_unevenStrand : exec (.strandTraining 5 goodEnds goodEnds) unevenStrand = done (unevenStrand.train 5 ⟨goodEnds, goodEnds⟩) := rfl

/-- Refutes O58: the buddy's end clears its own part of the strand, which is wider than skein 5's, so that skein 5 keeps 48 of the 64 good lanes
of its hub role, where the claim has it keep them all. -/
theorem not_strandsMeshDrainAndFence : ¬ Obligations.StrandsMeshDrainAndFence := by
  rintro ⟨events, -⟩
  obtain ⟨-, -, -, -, -, training, -⟩ := events 5 unevenStrand
  obtain ⟨u, next, lanes, -⟩ := training ⟨goodEnds, goodEnds⟩ (by decide +kernel) (by decide +kernel)
  rw [exec_unevenStrand, done_of_quiet _ (by decide +kernel)] at next
  rw [State.settle_keeps_skeins (Host.Outcome.next.inj next).symm (by decide +kernel) _] at lanes
  revert lanes
  decide +kernel

end Sys2Proof.Machine

/-!
PROOFS. What a report of the fault collector, a notice and an answer to a mailbox leave of the spindles (R134, R427 to R443, R453, R458).
-/

namespace Sys2Proof.Machine

/-! ### The spindles that the table lists -/

section
variable {α : Type} {t : Tbl α} {k : Nat} {v : α} {e : Nat × α}

theorem mem_of_mem_tins (h : e ∈ tins t k v) : e ∈ t ∨ e = (k, v) := by
  induction t with
  | nil => exact .inr (List.mem_singleton.mp h)
  | cons x r ih =>
    obtain ⟨j, w⟩ := x
    unfold tins at h
    split_ifs at h with hj hk
    · exact (List.mem_cons.mp h).symm
    · rcases List.mem_cons.mp h with h | h
      · exact .inr h
      · exact .inl (List.mem_cons_of_mem _ h)
    · rcases List.mem_cons.mp h with h | h
      · exact .inl (h ▸ List.mem_cons_self)
      · exact (ih h).imp_left (List.mem_cons_of_mem _)

theorem mem_of_mem_terase (h : e ∈ terase t k) : e ∈ t := by
  induction t with
  | nil => exact h
  | cons x r ih =>
    obtain ⟨j, w⟩ := x
    unfold terase at h
    split_ifs at h
    · exact List.mem_cons_of_mem _ (ih h)
    · rcases List.mem_cons.mp h with h | h
      · exact h ▸ List.mem_cons_self
      · exact List.mem_cons_of_mem _ (ih h)

/-- An entry of a written table is an old one, or the one written. -/
theorem mem_of_mem_tset [DecidableEq α] {d : α} (h : e ∈ tset d t k v) : e ∈ t ∨ e = (k, v) := by
  unfold tset at h
  split at h
  · exact .inl (mem_of_mem_terase h)
  · exact mem_of_mem_tins h

/-- What a table reads at a key is the default or an entry's value. -/
theorem tget_eq_default_or_mem (d : α) (t : Tbl α) (k : Nat) : tget d t k = d ∨ (k, tget d t k) ∈ t := by
  induction t with
  | nil => exact .inl rfl
  | cons x r ih =>
    obtain ⟨j, w⟩ := x
    by_cases hj : j = k
    · right
      simp [tget, hj]
    · simpa [tget, hj, Ne.symm hj] using ih

end

/-- Every listed spindle satisfies Q. -/
def State.Every (s : State) (Q : Spindle → Prop) : Prop := ∀ e ∈ s.cores.spindles, Q e.2

section
variable {s : State} {Q : Spindle → Prop}

theorem State.Every.sp (h : s.Every Q) (fresh : Q {}) (i : Nat) : Q (s.sp i) := by
  rcases tget_eq_default_or_mem {} s.cores.spindles i with e | e
  · unfold State.sp
    rwa [e]
  · exact h _ e

theorem State.Every.modSp (h : s.Every Q) {i : Nat} {f : Spindle → Spindle} (hf : Q (f (s.sp i))) : (s.modSp i f).Every Q := by
  intro e he
  rcases mem_of_mem_tset he with he | rfl
  · exact h e he
  · exact hf

end

/-- The spindle is not hosted by ply p of skein k. -/
def Spindle.AwayFrom (x : Spindle) (k p : Nat) : Prop := ∀ h, x.host = some h → ¬(h.skein = k ∧ h.ply = p)

theorem State.spindlesOn_eq_nil {s : State} {k p : Nat} : s.spindlesOn k p = [] ↔ s.Every (·.AwayFrom k p) := by
  unfold State.spindlesOn State.Every Spindle.AwayFrom
  rw [List.filterMap_eq_nil_iff]
  refine forall₂_congr fun e _ => ?_
  cases place : e.2.host <;> simp [place]

theorem State.targets_eq_nil {s : State} : s.targets = [] ↔ s.Every (·.target = none) := List.filterMap_eq_nil_iff

/-! ### What a report keeps -/

/-- P holds of a state whatever the fault collector records, the pins show, the router keeps, and interrupts of spindles are pending, and
whatever free values the MODEL has taken. -/
structure ReportClosed (P : State → Prop) : Prop where
  faults : ∀ (s : State) (f : Faults → Faults), P s → P (s.modFaults f)
  pins : ∀ (s : State) (f : Pins → Pins), P s → P (s.modPins f)
  free : ∀ (s : State) (n : Nat), P s → P { s with freeCtr := n }
  router : ∀ (s : State) (r : List (Nat × Nat × Nat)), P s → P { s with home := { s.home with router := r } }
  pending : ∀ (s : State) (i : Nat) (p : BitVec 256), P s → P (s.modSp i fun x => { x with intPending := p })

namespace ReportClosed

variable {P : State → Prop} (closed : ReportClosed P) {s : State}
include closed

theorem todo (h : P s) (r : React) : P (s.todo r) := closed.faults _ _ h

theorem raiseIntr (h : P s) (i n : Nat) : P (s.raiseIntr i n) := by
  have h1 := closed.pending s i ((s.sp i).intPending ||| BitVec.ofNat 256 (2 ^ n)) h
  unfold State.raiseIntr
  split
  · split
    · exact h1
    · exact closed.router _ _ h1
  · split
    · exact closed.router _ _ h1
    · exact h1

theorem notifyIntr (h : P s) (id part n : Nat) : P (s.notifyIntr id part n) := by
  unfold State.notifyIntr
  split
  · exact closed.raiseIntr h _ _
  · exact h

theorem applyRung (h : P s) (r : ActRec) (k : Nat) : P (s.applyRung r k) := by
  unfold State.applyRung
  extract_lets t
  have ht : P t := by
    unfold t
    split
    · split
      · exact closed.todo h _
      · exact h
    · exact closed.todo h _
    · split
      · exact closed.todo h _
      · exact h
    · exact closed.todo h _
    · exact h
  split
  · exact ht
  · exact closed.todo ht _

theorem requestSnap (h : P s) (trigger source seq : Nat) : P (s.requestSnap trigger source seq) := by
  unfold State.requestSnap
  extract_lets f r join
  split
  · exact closed.faults _ _ h
  · split
    · exact closed.faults _ _ h
    · exact closed.todo (closed.faults _ _ h) _

theorem logRecord (h : P s) (r : LogRec) : P (s.logRecord r) := by
  unfold State.logRecord
  extract_lets f
  split <;> exact closed.faults _ _ h

theorem openRecord (h : P s) (e : EventIn) (owner sev handled : Nat) : P (s.openRecord e owner sev handled) := by
  unfold State.openRecord
  extract_lets f
  split
  · exact closed.faults _ _ h
  · split
    next limit k r _ _ =>
      split
      next n due _ =>
        extract_lets s1 s2
        have h1 : P s1 := closed.faults _ _ h
        have h2 : P s2 := by
          refine closed.notifyIntr ?_ _ _ _
          split
          · exact h1
          · exact closed.notifyIntr h1 _ _ _
        exact closed.pins _ _ (closed.applyRung h2 _ _)
    next => exact closed.pins _ _ (closed.todo (closed.faults _ _ h) _)

theorem collectCore (h : P s) (e : EventIn) (forced : Bool) (rung : Nat) : P (s.collectCore e forced rung) := by
  unfold State.collectCore
  extract_lets t block key g base sev owner handled s1
  have h1 : P s1 := closed.faults _ _ h
  split
  next => exact h1
  next full s2 s3 s4 s5 _ =>
    have h2 : P s2 := closed.logRecord h1 _
    have h3 : P s3 := by
      unfold s3
      split
      · exact closed.faults _ _ h2
      · exact h2
    have h4 : P s4 := by
      unfold s4
      split
      · exact closed.openRecord h3 _ _ _ _
      · exact h3
    have h5 : P s5 := by
      unfold s5
      split
      · exact closed.todo (closed.pins _ _ (closed.faults _ _ h4)) _
      · exact h4
    split
    · exact closed.requestSnap h5 _ _ _
    · exact h5

theorem collect (h : P s) (e : EventIn) (forced : Bool) (rung : Nat) : P (s.collect e forced rung) := by
  refine closed.collectCore ?_ _ _ _
  unfold State.rollSecond
  extract_lets sec n t
  have ht : P t := closed.faults _ _ h
  split
  · exact h
  · split
    · exact ht
    · exact closed.collectCore ht _ _ _

theorem raise (h : P s) (src inst : Nat) (spindle : Option Nat) : P (s.raise src inst spindle) :=
  closed.collect (closed.free _ _ h) _ _ _

end ReportClosed

/-- A report keeps what interrupts have no part in. -/
theorem reportClosed_every {Q : Spindle → Prop} (fresh : Q {}) (pending : ∀ x p, Q x → Q { x with intPending := p }) :
    ReportClosed (·.Every Q) where
  faults _ _ h := h
  pins _ _ h := h
  free _ _ h := h
  router _ _ h := h
  pending _ i _ h := h.modSp (pending _ _ (h.sp fresh i))

theorem reportClosed_spindlesOn (k p : Nat) : ReportClosed fun s => s.spindlesOn k p = [] := by
  simp only [State.spindlesOn_eq_nil]
  exact reportClosed_every (fun _ h => absurd h (by simp)) fun _ _ h => h

theorem reportClosed_targets : ReportClosed fun s => s.targets = [] := by
  simp only [State.targets_eq_nil]
  exact reportClosed_every rfl fun _ _ h => h

/-! ### Notices and answers -/

/-- As Reports, but that a notice or an answer may have been posted to mailboxes as well. -/
structure State.Posts (s t : State) : Prop where
  rest : t = { s with
    faults := t.faults, pins := t.pins, freeCtr := t.freeCtr, cores := { s.cores with spindles := t.cores.spindles },
    home := { s.home with router := t.home.router }, jalif := { s.jalif with mboxes := t.jalif.mboxes } }
  sp : ∀ i, ∃ p, t.sp i = { s.sp i with intPending := p }

namespace State.Posts

variable {s t u : State}

theorem of_reports (h : s.Reports t) : s.Posts t := ⟨by rw [h.rest], h.sp⟩
theorem refl (s : State) : s.Posts s := .of_reports (.refl s)

theorem trans (h : s.Posts t) (k : t.Posts u) : s.Posts u where
  rest := k.rest.trans (by rw [h.rest])
  sp i := by
    obtain ⟨p, hp⟩ := h.sp i
    obtain ⟨q, hq⟩ := k.sp i
    exact ⟨q, by rw [hq, hp]⟩

theorem modMbox (s : State) (page : Nat) (f : Mbox → Mbox) : s.Posts (s.modMbox page f) := ⟨rfl, (Reports.refl s).sp⟩

theorem sk (h : s.Posts t) (k : Nat) : t.sk k = s.sk k := by rw [h.rest]; rfl
theorem ply (h : s.Posts t) (k p : Nat) : t.ply k p = s.ply k p := by rw [h.rest]; rfl
theorem mem (h : s.Posts t) : t.mem = s.mem := by rw [h.rest]
theorem rehost (h : s.Posts t) : t.jalif.rehost = s.jalif.rehost := by rw [h.rest]

end State.Posts

namespace State

variable (s : State)

theorem posts_raise (src inst : Nat) (spindle : Option Nat) : s.Posts (s.raise src inst spindle) := .of_reports (s.reports_raise _ _ _)

theorem posts_postNotice (page ty : Nat) (args : List Nat) : s.Posts (s.postNotice page ty args) := by
  unfold postNotice
  extract_lets m n
  split
  · exact (Posts.modMbox s page _).trans (.of_reports (reports_notifyIntr _ _ _ _))
  · split
    · exact .modMbox s page _
    · exact (Posts.modMbox s page _).trans (.of_reports (reports_todo _ _))

theorem posts_spindleNotice (i ty : Nat) (args : List Nat) : s.Posts (s.spindleNotice i ty args) := by
  have first := s.posts_postNotice 0 ty (i :: args)
  unfold spindleNotice
  extract_lets s1
  split
  · split
    · exact first
    · exact first.trans (posts_postNotice _ _ _ _)
  · exact first

theorem posts_respond (mb : Mb) (code status : Nat) (res : List Nat) (payload : List Byte) :
    s.Posts (s.respond mb code status res payload) := by
  unfold respond
  extract_lets bit s1
  have answered : s.Posts s1 := .modMbox s mb.page _
  split
  · exact answered
  · exact answered.trans (.of_reports (reports_notifyIntr _ _ _ _))

end State

theorem ReportClosed.respond {P : State → Prop} (closed : ReportClosed P) (mbox : ∀ (s : State) page f, P s → P (s.modMbox page f)) {s : State}
    (h : P s) (mb : Mb) (code status : Nat) (res : List Nat) (payload : List Byte) : P (s.respond mb code status res payload) := by
  have answered := mbox s mb.page
  unfold State.respond
  extract_lets bit s1
  split
  · exact answered _ h
  · exact closed.notifyIntr (answered _ h) _ _ _

end Sys2Proof.Machine

/-!
PROOFS. What the caches of a skein may change when lines move, leave, are asked for and are written (R213 to R221, R246, R255): the
skein's mode, the state of its plies and every other skein stay as they are.
-/

namespace Sys2Proof.Machine

/-- x but for the slots of its caches and the misses that its prefetcher has seen. -/
def Ply.Caches (x y : Ply) : Prop :=
  ∃ l2 sb sbAt strides, y = { x with l2 := l2, sb := sb, sbAt := sbAt, strides := strides }

namespace Ply.Caches

variable {x y z : Ply}

theorem refl (x : Ply) : x.Caches x := ⟨_, _, _, _, rfl⟩
theorem trans (h : x.Caches y) (g : y.Caches z) : x.Caches z := by
  obtain ⟨_, _, _, _, rfl⟩ := h
  obtain ⟨_, _, _, _, rfl⟩ := g
  exact ⟨_, _, _, _, rfl⟩

theorem l2State (h : x.Caches y) : y.l2State = x.l2State := by obtain ⟨_, _, _, _, rfl⟩ := h; rfl
theorem state (h : x.Caches y) : y.state = x.state := by obtain ⟨_, _, _, _, rfl⟩ := h; rfl
theorem step (h : x.Caches y) : y.step = x.step := by obtain ⟨_, _, _, _, rfl⟩ := h; rfl
theorem cmpMask (h : x.Caches y) : y.cmpMask = x.cmpMask := by obtain ⟨_, _, _, _, rfl⟩ := h; rfl
theorem l2Failed (h : x.Caches y) : y.l2Failed = x.l2Failed := by obtain ⟨_, _, _, _, rfl⟩ := h; rfl

end Ply.Caches

theorem State.ply_of_modPly (s : State) (k p : Nat) (f : Ply → Ply) (j q : Nat) :
    (s.modPly k p f).ply j q = if 20 * j + q = 20 * k + p then f (s.ply j q) else s.ply j q := by
  simp only [State.ply, State.modPly, tmod, tget_tset]
  split
  · next h => rw [h]
  · rfl

/-- Two plies of one skein are different plies. -/
theorem State.modPly_ply_of_ne (s : State) (k : Nat) {p q : Nat} (f : Ply → Ply) (h : q ≠ p) : (s.modPly k p f).ply k q = s.ply k q := by
  rw [s.ply_of_modPly, if_neg (by omega)]

/-- As InSkein, and the skein stays present or lost as it was, and of the plies only the caches have changed. -/
structure State.CacheWork (s t : State) (k : Nat) : Prop extends s.InSkein t k where
  mode : (t.sk k).present = (s.sk k).present ∧ (t.sk k).lost = (s.sk k).lost
  plies : ∀ j p, (s.ply j p).Caches (t.ply j p)

namespace State.CacheWork

variable {s t u : State} {k : Nat}

theorem refl (s : State) (k : Nat) : s.CacheWork s k := ⟨.refl s k, ⟨rfl, rfl⟩, fun _ _ => .refl _⟩

theorem trans (h : s.CacheWork t k) (g : t.CacheWork u k) : s.CacheWork u k where
  toInSkein := h.toInSkein.trans g.toInSkein
  mode := ⟨g.mode.1.trans h.mode.1, g.mode.2.trans h.mode.2⟩
  plies j p := (h.plies j p).trans (g.plies j p)

theorem ite {c : Prop} [Decidable c] (ht : s.CacheWork t k) (hu : s.CacheWork u k) : s.CacheWork (if c then t else u) k := by
  split
  · exact ht
  · exact hu

theorem foldS {β : Type} (s : State) (k : Nat) (xs : List β) {f : β → State → State} (h : ∀ x (t : State), t.CacheWork (f x t) k) :
    s.CacheWork (Machine.foldS xs f s) k :=
  foldS_ind (fun t => s.CacheWork t k) f (fun x t ht => ht.trans (h x t)) xs s (.refl s k)

theorem lost (h : s.CacheWork t k) (j : Nat) : (t.sk j).lost = (s.sk j).lost := by
  by_cases hj : j = k
  · rw [hj]
    exact h.mode.2
  · rw [h.other j hj]

end State.CacheWork

section
variable (s : State) (k : Nat)

theorem State.cacheWork_modSk {f : Skein → Skein}
    (h : (f (s.sk k)).present = (s.sk k).present ∧ (f (s.sk k)).lost = (s.sk k).lost) : s.CacheWork (s.modSk k f) k where
  toInSkein := s.inSkein_modSk k f
  mode := by rwa [s.modSk_sk]
  plies _ _ := .refl _

theorem State.cacheWork_modPly {j p : Nat} {f : Ply → Ply} (h : ∀ y : Ply, y.Caches (f y)) : s.CacheWork (s.modPly j p f) k where
  toInSkein := s.inSkein_modPly k (h _).l2State
  mode := ⟨rfl, rfl⟩
  plies i q := by
    rw [s.ply_of_modPly]
    split
    · exact h _
    · exact .refl _

theorem State.cacheWork_send (q : Packet) : s.CacheWork (s.send q) k := ⟨s.inSkein_send k q, ⟨rfl, rfl⟩, fun _ _ => .refl _⟩

theorem State.cacheWork_setSkl (l : Nat) (x : SkLine) : s.CacheWork (s.setSkl k l x) k := s.cacheWork_modSk k ⟨rfl, rfl⟩
theorem State.cacheWork_modSkl (l : Nat) (f : SkLine → SkLine) : s.CacheWork (s.modSkl k l f) k := s.cacheWork_setSkl k l _

/-! ### Lines leave (R214, R219 to R221, R255) -/

theorem State.cacheWork_l2Drop (p l : Nat) : s.CacheWork (s.l2Drop k p l) k :=
  (s.cacheWork_modSkl k l _).trans (State.cacheWork_modPly _ k fun _ => ⟨_, _, _, _, rfl⟩)

theorem State.cacheWork_sbDrop (p l : Nat) : s.CacheWork (s.sbDrop k p l) k :=
  (s.cacheWork_modSkl k l _).trans (State.cacheWork_modPly _ k fun _ => ⟨_, _, _, _, rfl⟩)

theorem State.cacheWork_l3Drop (l : Nat) : s.CacheWork (s.l3Drop k l) k :=
  (s.cacheWork_modSkl k l _).trans (State.cacheWork_modSk _ k ⟨rfl, rfl⟩)

theorem State.cacheWork_forget (l : Nat) : s.CacheWork (s.forget k l) k := by
  unfold State.forget
  extract_lets x s1 s2
  have h1 : s.CacheWork s1 k := .foldS s k _ fun p t => t.cacheWork_l2Drop k p l
  have h2 : s.CacheWork s2 k := h1.trans (.foldS s1 k _ fun p t => t.cacheWork_sbDrop k p l)
  refine ((h2.trans (s2.cacheWork_l3Drop k l)).trans (State.cacheWork_setSkl _ k l _)).trans (State.cacheWork_modSk _ k ?_)
  split <;> exact ⟨rfl, rfl⟩

theorem State.cacheWork_sendRelease (l : Nat) : s.CacheWork (s.sendRelease k l) k :=
  .ite (s.cacheWork_modSk k ⟨rfl, rfl⟩) (.refl s k)

theorem State.cacheWork_sendEvict (p : Packet) : s.CacheWork (s.sendEvict k p) k :=
  (s.cacheWork_modSk k ⟨rfl, rfl⟩).trans (State.cacheWork_send _ k _)

theorem State.cacheWork_evictLine (l : Nat) : s.CacheWork (s.evictLine k l) k := by
  unfold State.evictLine
  extract_lets x s1
  have h1 : s.CacheWork s1 k := s.cacheWork_forget k l
  exact .ite ((h1.trans (s1.cacheWork_sendEvict k _)).trans (State.cacheWork_sendRelease _ k l)) (h1.trans (s1.cacheWork_sendEvict k _))

theorem State.cacheWork_evictPoisoned (l : Nat) : s.CacheWork (s.evictPoisoned k l) k :=
  (s.cacheWork_modSkl k l _).trans (State.cacheWork_evictLine _ k l)

/-! ### Lines move within the skein (R214 to R221, R235) -/

variable {s k} {t : State}

theorem State.cacheWork_l3Insert {l : Nat} (h : s.l3Insert k l = some t) : s.CacheWork t k := by
  unfold State.l3Insert at h
  extract_lets z ok at h
  split at h
  · cases h
    exact s.cacheWork_modSkl k l _
  · split at h
    · cases h
    · next w slots _ =>
      extract_lets v s1 s2 s3 at h
      obtain rfl := Option.some.inj h
      have h1 : s.CacheWork s1 k := s.cacheWork_modSk k ⟨rfl, rfl⟩
      have h2 : s.CacheWork s2 k := h1.trans (s1.cacheWork_l3Drop k _)
      have h3 : s.CacheWork s3 k :=
        .ite h1 (.ite h2 ((h2.trans (s2.cacheWork_setSkl k _ _)).trans (State.cacheWork_evictLine _ k _)))
      exact (h3.trans (s3.cacheWork_modSk k ⟨rfl, rfl⟩)).trans (State.cacheWork_modSkl _ k l _)

theorem State.cacheWork_l2Victim {p v : Nat} (h : s.l2Victim k p v = some t) : s.CacheWork t k := by
  unfold State.l2Victim at h
  extract_lets x s1 y decline at h
  have h1 : s.CacheWork s1 k := s.cacheWork_l2Drop k p v
  have gone : s.CacheWork ((s1.setSkl k v { y with l2 := x.l2 }).evictLine k v) k :=
    (h1.trans (s1.cacheWork_setSkl k v _)).trans (State.cacheWork_evictLine _ k v)
  split at h
  · split_ifs at h <;> obtain rfl := Option.some.inj h
    · exact h1
    · exact gone
  · split at h
    · next s2 inserted =>
      cases h
      exact (h1.trans (State.cacheWork_l3Insert inserted)).trans (s2.cacheWork_modSkl k v _)
    · split_ifs at h <;> obtain rfl := Option.some.inj h
      · exact h1
      · exact gone

theorem State.cacheWork_l2Insert {p l : Nat} (h : s.l2Insert k p l = some t) : s.CacheWork t k := by
  unfold State.l2Insert at h
  extract_lets y at h
  split at h
  · cases h
    exact s.cacheWork_modSkl k l _
  · split at h
    · cases h
    · next w slots _ =>
      extract_lets v s1 at h
      have h1 : s.CacheWork s1 k := s.cacheWork_modPly k fun _ => ⟨_, _, _, _, rfl⟩
      split at h
      · cases h
      · next s2 victim =>
        cases h
        have h2 : s.CacheWork s2 k := by
          split at victim
          · cases victim
            exact h1
          · exact h1.trans (State.cacheWork_l2Victim victim)
        exact (h2.trans (s2.cacheWork_modPly k fun _ => ⟨_, _, _, _, rfl⟩)).trans (State.cacheWork_modSkl _ k l _)

theorem State.cacheWork_l3AfterHit (s : State) (k p l : Nat) : s.CacheWork (s.l3AfterHit k p l) k :=
  .ite (.refl s k) (.ite (s.cacheWork_l3Drop k l) (s.cacheWork_modSk k ⟨rfl, rfl⟩))

theorem State.cacheWork_bring {p l : Nat} (h : s.bring k p l = some t) : s.CacheWork t k := by
  unfold State.bring at h
  extract_lets x y s1 at h
  split at h
  · split at h
    · extract_lets j at h
      have marked : s.CacheWork (s.modPly k p fun y => { y with l2 := tmod {} y.l2 j fun z => { z with rrpv := 0 } }) k :=
        s.cacheWork_modPly k fun _ => ⟨_, _, _, _, rfl⟩
      split at h <;> cases h
      · exact s.cacheWork_modPly k fun _ => ⟨_, _, _, _, rfl⟩
      · exact marked.trans (State.cacheWork_modSkl _ k l _)
    · cases h
      exact .refl s k
  · split at h
    · cases h
      exact .refl s k
    · have h1 : s.CacheWork s1 k := .ite (s.cacheWork_sbDrop k p l) (.refl s k)
      split at h
      · next s2 inserted =>
        cases h
        exact ((h1.trans (State.cacheWork_l2Insert inserted)).trans (s2.cacheWork_l3AfterHit k p l)).trans (State.cacheWork_modSkl _ k l _)
      · cases h

theorem State.cacheWork_bringWrite {p l : Nat} (h : s.bringWrite k p l = some t) : s.CacheWork t k := by
  unfold State.bringWrite at h
  split_ifs at h
  · exact State.cacheWork_bring h
  · cases h
    exact .refl s k
  · exact State.cacheWork_l3Insert h
  · cases h
    exact s.cacheWork_modSkl k l _

end

/-! ### Requests and writes (R182, R216, R218, R243, R246) -/

section
variable (s : State)

theorem State.cacheWork_noteMiss (h : Place) (l : Nat) : s.CacheWork (s.noteMiss h l) h.skein := by
  unfold State.noteMiss
  refine .ite (.refl s _) (s.cacheWork_modPly h.skein fun y => ?_)
  dsimp only
  split
  · exact .refl y
  · exact ⟨_, _, _, _, rfl⟩

theorem State.cacheWork_ask (k p l : Nat) (own pf lock : Bool) : s.CacheWork (s.ask k p l own pf lock) k := by
  unfold State.ask
  extract_lets z cmd q
  exact .ite (.refl s k) ((s.cacheWork_modSk k ⟨rfl, rfl⟩).trans (State.cacheWork_send _ k _))

theorem State.cacheWork_askFor (h : Place) (l : Nat) (own : Bool) : s.CacheWork (s.askFor h l own) h.skein :=
  (s.cacheWork_noteMiss h l).trans (State.cacheWork_ask _ _ _ _ _ _ _)

theorem State.cacheWork_wantOwned (h : Place) (l : Nat) : s.CacheWork (s.wantOwned h l).2 h.skein := by
  unfold State.wantOwned
  extract_lets x
  split
  · split
    · exact .refl s _
    · split
      · next t brought => exact (s.cacheWork_noteMiss h l).trans (State.cacheWork_bringWrite brought)
      · exact s.cacheWork_modSk h.skein ⟨rfl, rfl⟩
  · exact s.cacheWork_askFor h l true

theorem State.cacheWork_bufLeave (k l : Nat) : s.CacheWork (s.bufLeave k l) k := .ite (s.cacheWork_evictLine k l) (.refl s k)

theorem State.cacheWork_writeOwned (k p l : Nat) (v : LineVal) : s.CacheWork (s.writeOwned k p l v) k := by
  unfold State.writeOwned
  extract_lets x up s1 s2 s3 loose s4 s5 n s6
  have h1 : s.CacheWork s1 k := .foldS s k _ fun q t => t.cacheWork_l2Drop k q l
  have h2 : s.CacheWork s2 k := h1.trans (.foldS s1 k _ fun q t => t.cacheWork_sbDrop k q l)
  have h3 : s.CacheWork s3 k := .ite (h2.trans (s2.cacheWork_l3AfterHit k p l)) h2
  have h4 : s.CacheWork s4 k := h3.trans (s3.cacheWork_modSkl k l _)
  have h5 : s.CacheWork s5 k := .ite (h4.trans (s4.cacheWork_send k _)) h4
  have h6 : s.CacheWork s6 k := .ite h5 (h5.trans (s5.cacheWork_modSk k ⟨rfl, rfl⟩))
  exact .ite h6 (h6.trans (s6.cacheWork_bufLeave k l))

end

end Sys2Proof.Machine

/-!
PROOFS. A ply that retries, that fails, and that is powered off (R156, R157, R160, R164, R168, R169, R172, R282, R478).
-/

namespace Sys2Proof.Machine

/-! ### A ply is powered off (R160, R478) -/

section
variable (s : State)

@[simp] theorem State.returnBeads_sp (d n i : Nat) : (s.returnBeads d n).sp i = s.sp i := by
  unfold State.returnBeads State.modGranted
  split <;> rfl
@[simp] theorem State.returnBeads_ply (d n k p : Nat) : (s.returnBeads d n).ply k p = s.ply k p := by
  unfold State.returnBeads State.modGranted
  split <;> rfl
@[simp] theorem State.returnBeads_faults (d n : Nat) : (s.returnBeads d n).faults = s.faults := by
  unfold State.returnBeads State.modGranted
  split <;> rfl

@[simp] theorem State.setFence_sp (key : Nat) (x : FenceSt) (i : Nat) : (s.setFence key x).sp i = s.sp i := rfl
@[simp] theorem State.setFence_ply (key : Nat) (x : FenceSt) (k p : Nat) : (s.setFence key x).ply k p = s.ply k p := rfl
@[simp] theorem State.setFence_faults (key : Nat) (x : FenceSt) : (s.setFence key x).faults = s.faults := rfl

@[simp] theorem State.drainKey_cores (key : Nat) : (s.drainKey key).cores = s.cores := by
  unfold State.drainKey
  split <;> rfl

theorem State.testLost_of_none {k p : Nat} (none : (s.ply k p).testMb = none) : s.testLost k p = s := by
  unfold State.testLost
  rw [none]

theorem State.plyOff_off (k p st : Nat) : ((s.plyOff k p st).ply k p).state = st ∧ ((s.plyOff k p st).ply k p).step = 15 := by
  unfold State.plyOff
  extract_lets t y u mine
  rw [State.modPly_ply]
  exact ⟨rfl, rfl⟩

/-- What a ply that is powered off leaves as it was, when no command waits for a test of it. -/
theorem State.plyOff_keeps {k p : Nat} (untested : (s.ply k p).testMb = none) (st : Nat) :
    (∀ i, (s.plyOff k p st).sp i = s.sp i) ∧ (s.plyOff k p st).faults = s.faults ∧
      ((s.plyOff k p st).ply k p).cmpMask = (s.ply k p).cmpMask ∧
      ∀ q, q ≠ p → (s.ply k q).Caches ((s.plyOff k p st).ply k q) := by
  unfold State.plyOff
  rw [s.testLost_of_none untested]
  extract_lets v y u mine
  have work : s.CacheWork u k := .foldS s k _ fun l t => by
    have dropped := t.cacheWork_sbDrop k p l
    exact .ite dropped ((dropped.trans (State.cacheWork_setSkl _ k l _)).trans (State.cacheWork_evictLine _ k l))
  clear_value u
  refine ⟨fun i => ?_, ?_, ?_, fun q hq => ?_⟩
  · simpa using work.sp i
  · simpa using work.faults
  · simpa using (work.plies k p).cmpMask
  · simpa [State.modPly_ply_of_ne _ _ _ hq] using work.plies k q

/-! ### A ply fails (R157, R162, R164, R168) -/

variable {s}

/-- Where no move is under way, none changes its place. -/
theorem State.retarget_of_no_targets (free : s.targets = []) (k p : Nat) : s.retarget k p = s := by
  have none_waits : (s.cores.spindles.filterMap fun e => match e.2.target with
      | some d => if d.skein = k ∧ d.ply = p then some e.1 else none
      | none => none) = [] :=
    List.filterMap_eq_nil_iff.mpr fun e he => by rw [State.targets_eq_nil.mp free e he]
  unfold State.retarget
  extract_lets waiting
  have h : waiting = [] := none_waits
  rw [h, foldS_nil]

section
variable {k p : Nat} (idle : s.spindlesOn k p = []) (detail : Option Nat)
include idle

/-- A failed ply that hosts nothing is powered off. -/
theorem State.failPly_of_idle : ((s.failPly k p detail).ply k p).state = 3 ∧ ((s.failPly k p detail).ply k p).step = 15 := by
  unfold State.failPly
  simp only [idle, List.isEmpty_nil, if_true]
  exact State.plyOff_off _ k p 3

theorem State.failPly_cmpMask (free : s.targets = []) (untested : (s.ply k p).testMb = none) :
    ((s.failPly k p detail).ply k p).cmpMask = (s.ply k p).cmpMask := by
  unfold State.failPly
  extract_lets s1 s2 s3
  have free1 : s1.targets = [] := by
    have same : s1.cores.spindles = s.cores.spindles := by
      simp only [s1, State.drainKey_cores]
      rfl
    unfold State.targets at free ⊢
    rwa [same]
  have ply1 : s1.ply k p = { s.ply k p with state := 3, inject := 0, failedAt := s.time } := by
    simp only [State.ply, s1, State.drainKey_cores]
    exact s.modPly_ply k p _
  have reported : s1.Reports s2 ∧ s2.targets = [] := by
    unfold s2
    split
    · exact ⟨s1.reports_collect _ _ _, reportClosed_targets.collect free1 _ _ _⟩
    · exact ⟨s1.reports_raise _ _ _, reportClosed_targets.raise free1 _ _ _⟩
  have ply2 : s2.ply k p = s1.ply k p := (State.Posts.of_reports reported.1).ply k p
  have same : s3 = s2 := State.retarget_of_no_targets reported.2 k p
  simp only [idle, List.isEmpty_nil, if_true]
  obtain ⟨-, -, mask, -⟩ := s3.plyOff_keeps (k := k) (p := p) (by rw [same, ply2, ply1]; exact untested) 3
  rw [mask, same, ply2, ply1]

end

end

/-! ### A ply retries (R156, R157) -/

theorem tget_map {α : Type} {d : α} {f : α → α} (fixed : f d = d) (t : Tbl α) (k : Nat) :
    tget d (t.map fun e => (e.1, f e.2)) k = f (tget d t k) := by
  induction t with
  | nil => exact fixed.symm
  | cons e r ih =>
    obtain ⟨j, v⟩ := e
    by_cases hj : j = k
    · simp [tget, hj]
    · simpa [tget, hj, Ne.symm hj] using ih

theorem State.skl_clearL1 (s : State) (k p l : Nat) : (s.clearL1 k p).skl k l =
    { s.skl k l with l1d := (s.skl k l).l1d &&& ~~~(fibreBits p), l1i := (s.skl k l).l1i &&& ~~~(fibreBits p) } := by
  simp only [State.skl, State.clearL1, State.modSk_sk]
  exact tget_map (d := ({} : SkLine))
    (f := fun x : SkLine => { x with l1d := x.l1d &&& ~~~(fibreBits p), l1i := x.l1i &&& ~~~(fibreBits p) })
    (by simp) (s.sk k).lines l

theorem State.l1Empty_clearL1 (s : State) (k p : Nat) : (s.clearL1 k p).L1Empty k p := by
  have cleared (x m : BitVec 40) : x &&& ~~~m &&& m = 0 := by
    rw [BitVec.and_assoc, BitVec.and_comm (~~~m), BitVec.and_not_self]
    exact BitVec.and_zero
  intro l
  rw [s.skl_clearL1]
  exact ⟨cleared _ _, cleared _ _⟩

/-- From s to u ply p of skein k has retried once (R156): the retry is counted and stamped, the ply's L1s hold nothing, and neither the
ply's state, nor a bundle address, nor memory has changed. -/
def State.HasRetried (s u : State) (k p : Nat) : Prop :=
  (u.ply k p).retryTotal = satBits 32 ((s.ply k p).retryTotal + 1) ∧ (u.ply k p).state = (s.ply k p).state ∧
    (u.ply k p).stamps = (s.time :: (s.ply k p).stamps).take (s.param 0x0500 0 - 1) ∧ u.L1Empty k p ∧
    (∀ i, (u.sp i).ba = (s.sp i).ba) ∧ u.mem = s.mem

/-- The unretired work of ply p of skein k is gone (R156). -/
def State.dropWork (s : State) (k p : Nat) : State :=
  foldS (s.spindlesOn k p) (fun i t => t.modSp i fun x => { x with ahead := [] }) (s.clearL1 k p)

theorem State.dropWork_eq (s : State) (k p : Nat) :
    (s.dropWork k p = { s with cores := (s.dropWork k p).cores }) ∧ (∀ j q, (s.dropWork k p).ply j q = s.ply j q) ∧
      (∀ j, (s.dropWork k p).sk j = (s.clearL1 k p).sk j) ∧ ∀ i, ((s.dropWork k p).sp i).ba = (s.sp i).ba := by
  refine foldS_ind (fun t : State => (t = { s with cores := t.cores }) ∧ (∀ j q, t.ply j q = s.ply j q) ∧
    (∀ j, t.sk j = (s.clearL1 k p).sk j) ∧ ∀ i, (t.sp i).ba = (s.sp i).ba) _ (fun i t ⟨rest, ply, sk, ba⟩ => ?_) _ _
    ⟨rfl, fun _ _ => rfl, fun _ => rfl, fun _ => rfl⟩
  refine ⟨by rw [rest]; rfl, ply, sk, fun j => ?_⟩
  by_cases hj : j = i
  · rw [hj, t.modSp_sp]
    exact ba i
  · rw [t.modSp_sp_other _ hj, ba j]

section
variable {s t u : State} {k p : Nat}

theorem State.Reports.param (h : s.Reports t) (id x : Nat) : t.param id x = s.param id x := by rw [h.rest]; rfl
theorem State.Reports.time (h : s.Reports t) : t.time = s.time := by rw [h.rest]
theorem State.Reports.ply (h : s.Reports t) (k p : Nat) : t.ply k p = s.ply k p := (State.Posts.of_reports h).ply k p
theorem State.Reports.sk (h : s.Reports t) (k : Nat) : t.sk k = s.sk k := (State.Posts.of_reports h).sk k
theorem State.Reports.mem (h : s.Reports t) : t.mem = s.mem := (State.Posts.of_reports h).mem
theorem State.Reports.ba (h : s.Reports t) (i : Nat) : (t.sp i).ba = (s.sp i).ba := by
  obtain ⟨_, e⟩ := h.sp i
  rw [e]

theorem State.HasRetried.of_reports (h : s.Reports t) (g : t.HasRetried u k p) : s.HasRetried u k p := by
  obtain ⟨total, state, stamps, l1, ba, mem⟩ := g
  rw [h.ply] at total state stamps
  rw [h.time, h.param] at stamps
  exact ⟨total, state, stamps, l1, fun i => (ba i).trans (h.ba i), mem.trans h.mem⟩

/-- Counting down an injected error has no part in the retry (R166). -/
theorem State.HasRetried.of_injected {n : Ply → Nat} (g : (s.modPly k p fun y => { y with inject := n y }).HasRetried u k p) :
    s.HasRetried u k p := by
  obtain ⟨total, state, stamps, rest⟩ := g
  rw [s.modPly_ply] at total state stamps
  exact ⟨total, state, stamps, rest⟩

/-- Below its limit a retry changes no more than R156 gives. -/
theorem State.retryPly_below (several : 1 < s.param 0x0500 0) (below : (s.ply k p).stamps.length + 1 < s.param 0x0500 0) :
    s.HasRetried (s.retryPly k p) k p := by
  unfold State.retryPly
  extract_lets y limit win on ba s0 s1 stamps near bas follows
  have hs0 : s0 = s.dropWork k p := rfl
  obtain ⟨rest, ply, sk, sameBa⟩ := s.dropWork_eq k p
  rw [← hs0] at rest ply sk sameBa
  clear_value s0
  have all : stamps = (s.ply k p).stamps := by
    show (s.ply k p).stamps.take (s.param 0x0500 0 - 1) = _
    exact List.take_of_length_le (by omega)
  have far : near = false := by
    unfold near
    split
    · simp only [decide_eq_false_iff_not, not_and]
      intro h
      rw [all] at h
      exact absurd h (Nat.not_le.mpr below)
    · rfl
  have reported : (s0.modPly k p fun y => { y with retryTotal := satBits 32 (y.retryTotal + 1) }).Reports s1 := State.reports_raise _ _ _ _
  have ply1 : s1.ply k p = { s.ply k p with retryTotal := satBits 32 ((s.ply k p).retryTotal + 1) } := by
    rw [reported.ply, State.modPly_ply, ply]
  rw [if_neg (by rw [far]; simp only [Bool.false_eq_true, or_false]; exact Nat.not_le.mpr several)]
  refine ⟨?_, ?_, ?_, fun l => ?_, fun i => ?_, ?_⟩
  · rw [State.modPly_ply, ply1]
  · rw [State.modPly_ply, ply1]
  · rw [State.modPly_ply, all]
  · have line : s1.skl k l = (s.clearL1 k p).skl k l := by
      simp only [State.skl, reported.sk, State.modPly_sk, sk]
    rw [State.skl_modPly, line]
    exact s.l1Empty_clearL1 k p l
  · exact (reported.ba i).trans (sameBa i)
  · refine reported.mem.trans ?_
    show s0.mem = s.mem
    rw [rest]

/-- At a limit of one, the retry of a ply that hosts nothing declares it failed. -/
theorem State.retryPly_at_limit (one : s.param 0x0500 0 ≤ 1) (idle : s.spindlesOn k p = []) :
    ((s.retryPly k p).ply k p).state = 3 ∧ ((s.retryPly k p).ply k p).step = 15 := by
  unfold State.retryPly
  extract_lets y limit win on ba s0 s1 stamps near bas follows
  have off : on = none := by
    unfold on
    rw [idle]
    rfl
  have idle1 : s1.spindlesOn k p = [] := by
    refine (reportClosed_spindlesOn k p).raise ?_ _ _ _
    unfold s0
    rw [idle, foldS_nil]
    exact idle
  rw [if_pos (Or.inl one)]
  split
  · next i _ _ hosted _ => exact absurd (off.symm.trans hosted) (by simp)
  · exact State.failPly_of_idle (s := s1.modPly k p _) idle1 none

end

end Sys2Proof.Machine

/-!
PROOFS. Errors of a ply and its failure (R149, R156, R157, R164, R168, R169, R172).
-/

namespace Sys2Proof.Machine

theorem State.Reports.skeinUp {s t : State} (h : s.Reports t) (k : Nat) : t.skeinUp k = s.skeinUp k := by
  unfold State.skeinUp
  rw [h.sk]

/-! ### Errors of a Twin ply (R149, R156, R166, R169) -/

section
variable {s : State} {sk : SkId} {pl : PlId} (compares : s.compares sk pl = true)
include compares

theorem exec_plyRetry_of_error {ev : PlyEvent} (error : ev = .parity ∨ ev = .hang) : exec (.plyRetry sk pl ev) s = done (s.retryPly sk pl) := by
  show execPlyRetry sk pl ev s = _
  rcases error with rfl | rfl <;> simp [execPlyRetry, compares]

/-- A mismatch while no comparator test is pending; one that had been injected is counted down. -/
theorem exec_plyRetry_of_mismatch (untested : (s.ply sk pl).testPend = false) (g : Word) :
    exec (.plyRetry sk pl (.mismatch g)) s =
      done ((if (decide (0 < (s.ply sk pl).inject) && g.getLsbD (s.ply sk pl).injectGroup) = true
        then s.modPly sk pl fun y => { y with inject := y.inject - 1 } else s).retryPly sk pl) := by
  show execPlyRetry sk pl (.mismatch g) s = _
  simp only [execPlyRetry, compares, untested, Bool.not_false, Bool.and_self, if_true]

theorem exec_draftWordUncorrectable_of_twin : exec (.draftWordUncorrectable sk pl) s =
    done ((s.raise 0x0106 (20 * sk + pl) (s.spindlesOn sk pl).head?).retryPly sk pl) := by
  show execDraftWordUncorrectable sk pl s = _
  simp only [execDraftWordUncorrectable, compares, if_true]

theorem exec_agreementTimeout_of_untested (untested : (s.ply sk pl).testPend = false) : exec (.agreementTimeout sk pl) s =
    done ((s.raise 0x0107 (20 * sk + pl) (s.spindlesOn sk pl).head?).retryPly sk pl) := by
  show execAgreementTimeout sk pl s = _
  simp only [execAgreementTimeout, compares, untested, Bool.not_false, Bool.and_self, if_true]

end

theorem plyErrorsAreRetriedBelowLimit : PlyErrorsAreRetriedBelowLimit := by
  intro sk pl s compares y limit several below retried
  have now : retried (s.retryPly sk pl) := State.retryPly_below several below
  have reported (src inst : Nat) (on : Option Nat) : retried ((s.raise src inst on).retryPly sk pl) := by
    have report := s.reports_raise src inst on
    refine State.HasRetried.of_reports report (State.retryPly_below ?_ ?_)
    · rwa [report.param]
    · rwa [report.param, report.ply]
  refine ⟨leaves_of_exec (exec_plyRetry_of_error compares (.inl rfl)) now,
    leaves_of_exec (exec_plyRetry_of_error compares (.inr rfl)) now,
    leaves_of_exec (exec_draftWordUncorrectable_of_twin compares) (reported _ _ _), fun untested =>
    ⟨leaves_of_exec (exec_agreementTimeout_of_untested compares untested) (reported _ _ _), fun g => ?_⟩⟩
  refine leaves_of_exec (exec_plyRetry_of_mismatch compares untested g) ?_
  split
  · refine State.HasRetried.of_injected (State.retryPly_below several ?_)
    rw [State.modPly_ply]
    exact below
  · exact now

/-! ### Comparator tests and loads of the draft image (R164, R165, R168, R170) -/

/-- The state once a comparator test of ply p of skein k has ended with the mask m: it is held, notice 5 is pending for the spindle that
asked, and the command that asked is answered. -/
def State.testEnded (s : State) (k p : Nat) (m : Word) : State :=
  let s1 := s.modPly k p fun y => { y with testPend := false, cmpMask := m, testFor := none, testMb := none }
  let s2 := match (s.ply k p).testFor with
    | some i => s1.modSp i fun x => { x with notice5 := some m }
    | none => s1
  match (s.ply k p).testMb with
  | some n => s2.respond (s.mbOf n) 0x42 0 [m.toNat, b2n (m == BitVec.allOnes 64)]
  | none => s2

section
variable {s : State} {k p : Nat}

theorem State.testEnded_ply (m : Word) : (s.testEnded k p m).ply k p =
    { s.ply k p with testPend := false, cmpMask := m, testFor := none, testMb := none } := by
  unfold State.testEnded
  extract_lets s1 s2
  have h2 : s2.ply k p = s1.ply k p := by
    unfold s2
    split <;> rfl
  rw [← s.modPly_ply k p fun y => { y with testPend := false, cmpMask := m, testFor := none, testMb := none }]
  split
  · rw [(s2.posts_respond _ _ _ _ _).ply, h2]
  · exact h2

/-- A comparator test has no part in where spindles are and where they move. -/
theorem State.testEnded_every {Q : Spindle → Prop} (fresh : Q {}) (pending : ∀ x p, Q x → Q { x with intPending := p })
    (notice : ∀ x w, Q x → Q { x with notice5 := w }) (h : s.Every Q) (m : Word) : (s.testEnded k p m).Every Q := by
  unfold State.testEnded
  extract_lets s1 s2
  have h2 : s2.Every Q := by
    unfold s2
    split
    · next i _ =>
      have h1 : s1.Every Q := h
      exact h1.modSp (notice _ _ (h1.sp fresh i))
    · exact h
  split
  · exact (reportClosed_every fresh pending).respond (fun _ _ _ h => h) h2 _ _ _ _ _
  · exact h2

theorem exec_comparatorTest_of_pending {sk : SkId} {pl : PlId} (up : s.skeinUp sk = true) (twin : (s.sk sk).split = false)
    (pending : (s.ply sk pl).testPend = true) (m : Word) : exec (.comparatorTest sk pl m) s =
      done (if (m == BitVec.allOnes 64) = true then s.testEnded sk pl m else (s.testEnded sk pl m).failPly sk pl (some m.toNat)) := by
  show execComparatorTest sk pl m s = _
  simp only [execComparatorTest, up, twin, pending, Bool.not_true, Bool.false_eq_true, or_self, if_false]
  rfl

/-- A powered ply that works takes the held draft image. -/
theorem exec_draftLoad_of_stale {sk : SkId} {pl : PlId} (up : s.skeinUp sk = true) (powered : (s.ply sk pl).step < 9)
    (kind : (s.ply sk pl).state < 6) (working : (s.ply sk pl).state ≠ 3) (stale : (s.ply sk pl).draftVersion ≠ s.jalif.draftVer) (ok : Bool) :
    exec (.draftLoad sk pl ok) s = done (
      if (ok && s.jalif.draftCrcOk) = true then s.modPly sk pl fun y => { y with
        draftVersion := s.jalif.draftVer, draft := s.jalif.draftCode, draftLoads := 0 }
      else if (s.ply sk pl).draftLoads = 0 then s.modPly sk pl fun y => { y with draftLoads := 1 }
      else (s.modPly sk pl fun y => { y with draftLoads := 0 }).failPly sk pl none) := by
  show execDraftLoad sk pl ok s = _
  simp only [execDraftLoad, up, Nat.not_le.mpr powered, Nat.not_le.mpr kind, working, stale, Bool.not_true, Bool.false_eq_true, or_self,
    if_false]

end

/-! ### Failures (R157, R172) -/

/-- A ply of a Loose Split skein fails. -/
theorem State.splitFail_of_loose {s : State} {k p : Nat} (up : s.skeinUp k = true) (split : (s.sk k).split = true) (loose : (s.sk k).loose = true)
    (live : (s.ply k p).state ≤ 2) : ((s.splitFail k p).ply k p).state = 3 := by
  unfold State.splitFail
  rw [if_neg (by simp only [up, split, Bool.not_true, Bool.false_eq_true, false_or]; omega)]
  extract_lets on s1 s2
  rw [if_pos loose, (State.reports_raise _ _ _ _).ply]
  exact (State.plyOff_off _ k p 3).1

theorem exec_draftWordUncorrectable_of_split {s : State} {sk : SkId} {pl : PlId} (up : s.skeinUp sk = true) (split : (s.sk sk).split = true)
    (powered : (s.ply sk pl).step < 9) :
    exec (.draftWordUncorrectable sk pl) s = done ((s.raise 0x0106 (20 * sk + pl)).splitFail sk pl) := by
  have notTwin : s.compares sk pl = false := by simp [State.compares, split]
  show execDraftWordUncorrectable sk pl s = _
  simp [execDraftWordUncorrectable, notTwin, up, split, powered]

theorem plyFailuresAreDeclared : PlyFailuresAreDeclared := by
  intro sk pl s y
  refine ⟨fun compares one idle _ => leaves_of_exec (exec_plyRetry_of_error compares (.inl rfl)) (State.retryPly_at_limit one idle),
    fun up twin pending idle free m short => ?_, fun up powered kind working stale idle _ => ⟨fun first => ?_, fun again => ?_⟩,
    fun up split loose live _ => ⟨leaves_of_exec rfl (State.splitFail_of_loose up split loose live), fun powered => ?_⟩⟩
  · refine leaves_of_exec (exec_comparatorTest_of_pending up twin pending m) ?_
    rw [if_neg (by simpa using short)]
    have idle' : (s.testEnded sk pl m).spindlesOn sk pl = [] := by
      rw [State.spindlesOn_eq_nil] at idle ⊢
      exact State.testEnded_every (fun _ h => absurd h (by simp)) (fun _ _ h => h) (fun _ _ h => h) idle m
    have free' : (s.testEnded sk pl m).targets = [] := by
      rw [State.targets_eq_nil] at free ⊢
      exact State.testEnded_every (Q := (·.target = none)) rfl (fun _ _ h => h) (fun _ _ h => h) free m
    refine ⟨(State.failPly_of_idle idle' _).1, ?_⟩
    rw [State.failPly_cmpMask idle' _ free' (by rw [State.testEnded_ply]), State.testEnded_ply]
  · refine leaves_of_exec (exec_draftLoad_of_stale up powered kind working stale false) ?_
    rw [if_neg (by simp), if_pos first]
    exact s.modPly_ply sk pl _
  · refine leaves_of_exec (exec_draftLoad_of_stale up powered kind working stale false) ?_
    rw [if_neg (by simp), if_neg again]
    exact (State.failPly_of_idle (s := s.modPly sk pl _) idle none).1
  · refine leaves_of_exec (exec_draftWordUncorrectable_of_split up split powered) ?_
    have report := s.reports_raise 0x0106 (20 * sk + pl) none
    exact State.splitFail_of_loose (by rwa [report.skeinUp]) (by rwa [report.sk]) (by rwa [report.sk]) (by rwa [report.ply])

/-- Settles O52: below the limit only the retry is recorded, and each failure ends with the ply powered off. -/
theorem plyErrorsAndFailures : Obligations.PlyErrorsAndFailures :=
  ⟨plyErrorsAreRetriedBelowLimit, plyFailuresAreDeclared⟩

end Sys2Proof.Machine

/-!
PROOFS. How a ply comes back into service: tests, draft loads, self-tests, and a prepared spare that takes over its spindle (R160, R163 to
R165, R168, R170, R480, R482).
-/

namespace Sys2Proof.Machine

/-! ### A ply aims at a step (R480, R482) -/

/-- What every change of one ply does is done to every ply or not. -/
theorem State.ply_modPly_rel (s : State) {R : Ply → Ply → Prop} (refl : ∀ y, R y y) {k p : Nat} {f : Ply → Ply}
    (h : R (s.ply k p) (f (s.ply k p))) (j q : Nat) : R (s.ply j q) ((s.modPly k p f).ply j q) := by
  rw [s.ply_of_modPly]
  split
  · next same =>
    have e : s.ply j q = s.ply k p := by
      unfold State.ply
      rw [same]
    rw [e]
    exact h
  · exact refl _

/-- x but for the step that it is bound for. -/
def Ply.Bound (x y : Ply) : Prop := ∃ w, y = { x with wantStep := w }

/-- From s to t nothing has changed but the steps that plies are bound for, the accounts of beads, and skeins. -/
structure State.Aims (s t : State) : Prop where
  rest : t = { s with cores := { s.cores with plies := t.cores.plies, skeins := t.cores.skeins }, power := t.power }
  plies : ∀ j q, (s.ply j q).Bound (t.ply j q)

namespace State.Aims

variable {s t u : State}

theorem refl (s : State) : s.Aims s := ⟨rfl, fun _ _ => ⟨_, rfl⟩⟩

theorem trans (h : s.Aims t) (g : t.Aims u) : s.Aims u where
  rest := g.rest.trans (by rw [h.rest])
  plies j q := by
    obtain ⟨_, e⟩ := h.plies j q
    obtain ⟨_, e'⟩ := g.plies j q
    exact ⟨_, by rw [e', e]⟩

theorem ite {c : Prop} [Decidable c] (ht : s.Aims t) (hu : s.Aims u) : s.Aims (if c then t else u) := by
  split
  · exact ht
  · exact hu

theorem modSk (s : State) (k : Nat) (f : Skein → Skein) : s.Aims (s.modSk k f) := ⟨rfl, (refl s).plies⟩
theorem modPower (s : State) (f : Power → Power) : s.Aims (s.modPower f) := ⟨rfl, (refl s).plies⟩
theorem modPly (s : State) {k p : Nat} {f : Ply → Ply} (h : (s.ply k p).Bound (f (s.ply k p))) : s.Aims (s.modPly k p f) :=
  ⟨rfl, s.ply_modPly_rel (fun _ => ⟨_, rfl⟩) h⟩

theorem returnBeads (s : State) (d n : Nat) : s.Aims (s.returnBeads d n) := .ite (modSk s d _) (modPower s _)
theorem askBeads (s : State) (d prio n : Nat) (what : BeadFor) : s.Aims (s.askBeads d prio n what) :=
  .ite (.refl s) (.ite (modSk s d _) (modPower s _))

theorem sp (h : s.Aims t) (i : Nat) : t.sp i = s.sp i := by rw [h.rest]; rfl
theorem home (h : s.Aims t) : t.home = s.home := by rw [h.rest]
theorem jalif (h : s.Aims t) : t.jalif = s.jalif := by rw [h.rest]
theorem faults (h : s.Aims t) : t.faults = s.faults := by rw [h.rest]
theorem state (h : s.Aims t) (j q : Nat) : (t.ply j q).state = (s.ply j q).state := by
  obtain ⟨_, e⟩ := h.plies j q
  rw [e]
theorem step (h : s.Aims t) (j q : Nat) : (t.ply j q).step = (s.ply j q).step := by
  obtain ⟨_, e⟩ := h.plies j q
  rw [e]

end State.Aims

section
variable (s : State) (k p n : Nat)

theorem State.aims_lowerPly : s.Aims (s.lowerPly k p n) := by
  unfold State.lowerPly
  extract_lets y z
  have lowered : s.Aims (s.modPly k p fun _ => z) := .modPly s ⟨_, rfl⟩
  exact .ite (.refl s) (.ite (lowered.trans (.returnBeads _ _ _)) (lowered.trans (.returnBeads _ _ _)))

theorem State.aims_aimPly : s.Aims (s.aimPly k p n) := by
  unfold State.aimPly
  extract_lets y mine s1
  have h1 : s.Aims s1 := .modSk s k _
  have bound (f : Ply → Nat) : s.Aims (s1.modPly k p fun y => { y with wantStep := f y }) := h1.trans (.modPly s1 ⟨_, rfl⟩)
  exact .ite (.refl s) (.ite (h1.trans (s1.aims_lowerPly k p n)) (.ite
    (.ite (bound _) ((bound _).trans (.askBeads _ _ _ _ _))) (h1.trans (.askBeads _ _ _ _ _))))

end

/-! ### A prepared spare takes over (R160) -/

/-- From s to t nothing has changed but the locks of ways in plies' L2s. -/
structure State.Locks (s t : State) : Prop where
  rest : t = { s with cores := { s.cores with plies := t.cores.plies } }
  plies : ∀ j q, ∃ locks, t.ply j q = { s.ply j q with l2Lock := locks }

theorem State.Locks.refl (s : State) : s.Locks s := ⟨rfl, fun _ _ => ⟨_, rfl⟩⟩

theorem State.Locks.modPly {s t : State} (h : s.Locks t) (k p : Nat) {f : Ply → Ply} (hf : ∀ y : Ply, ∃ locks, f y = { y with l2Lock := locks }) :
    s.Locks (t.modPly k p f) where
  rest := by
    rw [h.rest]
    rfl
  plies j q := by
    obtain ⟨locks, kept⟩ := h.plies j q
    rw [t.ply_of_modPly]
    split
    · obtain ⟨locks', moved⟩ := hf (t.ply j q)
      exact ⟨locks', by rw [moved, kept]⟩
    · exact ⟨locks, kept⟩

theorem State.locks_moveLocks (s : State) (i : Nat) (h d : Place) : s.Locks (s.moveLocks i h d) := by
  unfold State.moveLocks
  extract_lets part ways stays s1
  have taken : s.Locks s1 := foldS_ind s.Locks _
    (fun w t ht => ht.modPly _ _ fun y => by split <;> exact ⟨_, rfl⟩) ways s (.refl s)
  split
  · exact taken
  · exact foldS_ind s.Locks _ (fun w t ht => ht.modPly _ _ fun y => ⟨_, rfl⟩) ways s1 taken

/-- Spindle i, alone on ply pl of skein k, is about to issue on ply p of the skein, which is prepared: the ply left behind is fenced, with
its L2 clean. -/
structure State.SpareReady (s : State) (i k pl p f : Nat) : Prop where
  place : (s.sp i).host = some ⟨k, pl, 0⟩
  target : (s.sp i).target = some ⟨k, p, f⟩
  other : p ≠ pl
  moving : (s.sp i).moving = true
  ready : s.placeReady ⟨k, p, f⟩ = true
  alone : s.spindlesOn k pl = [i]
  clean : s.cleanL2 k pl = some s
  fenced : (s.fence (plyKey k pl)).st = 2
  open_ : (s.sk k).inBarrier = false
  stores : (s.sp i).stores = []
  free : (s.sp i).freezeReq = false
  unasked : (s.sp i).moveMb = none
  untested : (s.ply k pl).testMb = none

/-- The spindle as it begins to issue on the place d of its own skein. -/
def Spindle.onSpare (x : Spindle) (d : Place) : Spindle :=
  { x with host := some d, target := none, moving := false, suspended := false, notice1 := true, moveEpoch := 0, ahead := [] }

/-- Spindle i issues on the spare d, once its old ply pl is fenced and clean; a Split fibre keeps the staged state as its fasten image. -/
def State.onSpare (s : State) (i pl : Nat) (d : Place) : State :=
  let s1 := (s.modSp i fun y => y.onSpare d).modJalif fun j => { j with heldImg := terase j.heldImg i }
  let s2 := if (s.sk d.skein).split && !(s.sk d.skein).loose && !(s.sk d.skein).imgSend.contains i then
      s1.modSk d.skein fun z => { z with imgOwn := tset {} z.imgOwn i { sp := s1.sp i, epoch := (s.sp i).moveEpoch } } else s1
  let old := s.ply d.skein pl
  s2.modPly d.skein d.ply fun y => { y with
    state := 0, movedAt := s.time, movedFrom := if old.state = 3 then some (20 * d.skein + pl) else none,
    fromBas := if old.state = 3 then old.retryBas else [], stamps := [], retryBas := [] }

section
variable (s : State) (i pl : Nat) (d : Place)

theorem State.onSpare_sp : (s.onSpare i pl d).sp i = (s.sp i).onSpare d := by
  unfold State.onSpare
  extract_lets s1 s2 old
  have h1 : s1.sp i = (s.sp i).onSpare d := s.modSp_sp i fun y => y.onSpare d
  rw [State.modPly_sp, ← h1]
  unfold s2
  split <;> rfl

theorem State.onSpare_faults : (s.onSpare i pl d).faults = s.faults := by
  unfold State.onSpare
  extract_lets s1 s2 old
  rw [State.modPly_faults]
  unfold s2
  split <;> rfl

theorem State.onSpare_ply : ((s.onSpare i pl d).ply d.skein d.ply).state = 0 ∧
    ∀ q, q ≠ d.ply → (s.onSpare i pl d).ply d.skein q = s.ply d.skein q := by
  unfold State.onSpare
  extract_lets s1 s2 old
  have h2 (q : Nat) : s2.ply d.skein q = s.ply d.skein q := by
    unfold s2
    split <;> rfl
  exact ⟨by rw [State.modPly_ply], fun q hq => by rw [State.modPly_ply_of_ne _ _ _ hq, h2]⟩

end

section
variable {s : State} {i k pl p f : Nat}

theorem State.SpareReady.spareStart_eq (r : s.SpareReady i k pl p f) :
    s.spareStart i =
      let t := ((s.onSpare i pl ⟨k, p, f⟩).moveLocks i ⟨k, pl, 0⟩ ⟨k, p, f⟩).plyOff k pl (if (s.ply k pl).state = 3 then 3 else 2)
      (((t.aimPly k p (t.stepGoal k)).moveAnswered i 0).drain i).park i := by
  unfold State.spareStart
  simp only [r.place, r.target, r.moving, r.ready, r.alone, r.clean, r.fenced, r.open_, ne_eq, not_true_eq_false, decide_false, Bool.false_and, Bool.not_true,
    Bool.or_false, List.length_singleton, beq_self_eq_true, bne_self_eq_false, Bool.and_false, Bool.false_eq_true, if_false, if_true]
  rfl

/-- What the move of a spindle to the spare leaves (R160). -/
theorem State.SpareReady.spareStart (r : s.SpareReady i k pl p f) :
    (s.spareStart i).sp i = (s.sp i).onSpare ⟨k, p, f⟩ ∧ (s.spareStart i).faults = s.faults ∧ ((s.spareStart i).ply k p).state = 0 ∧
      ((s.spareStart i).ply k pl).step = 15 ∧ ((s.spareStart i).ply k pl).state = if (s.ply k pl).state = 3 then 3 else 2 := by
  rw [r.spareStart_eq]
  extract_lets t
  obtain ⟨issuing, others⟩ := s.onSpare_ply i pl ⟨k, p, f⟩
  have locks := (s.onSpare i pl ⟨k, p, f⟩).locks_moveLocks i ⟨k, pl, 0⟩ ⟨k, p, f⟩
  obtain ⟨lockedOld, old⟩ := locks.plies k pl
  obtain ⟨lockedNew, new⟩ := locks.plies k p
  set u := (s.onSpare i pl ⟨k, p, f⟩).moveLocks i ⟨k, pl, 0⟩ ⟨k, p, f⟩ with hu
  have untested : (u.ply k pl).testMb = none := by
    rw [old, others pl r.other.symm]
    exact r.untested
  have off := u.plyOff_off k pl (if (s.ply k pl).state = 3 then 3 else 2)
  obtain ⟨sp, faults, -, caches⟩ := u.plyOff_keeps untested (if (s.ply k pl).state = 3 then 3 else 2)
  have aims := t.aims_aimPly k p (t.stepGoal k)
  set v := t.aimPly k p (t.stepGoal k) with hv
  have spindle : v.sp i = (s.sp i).onSpare ⟨k, p, f⟩ := by
    rw [aims.sp, sp, locks.rest]
    exact s.onSpare_sp i pl _
  have answered : v.moveAnswered i 0 = v := by
    unfold State.moveAnswered
    rw [spindle]
    simp [Spindle.onSpare, r.unasked]
  have drained : v.drain i = v := State.drain_of_no_stores (by rw [spindle]; exact r.stores)
  have parked : v.park i = v := State.park_of_free (by rw [spindle]; exact r.free)
  rw [answered, drained, parked]
  refine ⟨spindle, ?_, ?_, ?_, ?_⟩
  · rw [aims.faults, faults, locks.rest]
    exact s.onSpare_faults i pl _
  · rw [aims.state, (caches p r.other).state, new]
    exact issuing
  · rw [aims.step]
    exact off.2
  · rw [aims.state]
    exact off.1

end

/-! ### Back in service -/

theorem exec_runtimeSelfTest_of_split {s : State} {sk : SkId} {pl : PlId} (up : s.skeinUp sk = true) (split : (s.sk sk).split = true)
    (woken : (s.ply sk pl).state = 5) (pending : (s.ply sk pl).testPend = true) :
    exec (.runtimeSelfTestComplete sk pl true) s = done (s.modPly sk pl fun y => { y with testPend := false }) := by
  show execRuntimeSelfTestComplete sk pl true s = _
  simp [execRuntimeSelfTestComplete, up, split, woken, pending]

section
variable {s : State} {sk : SkId} {pl : PlId} (up : s.skeinUp sk = true) (tested : (s.ply sk pl).state = 4)
include up tested

theorem exec_runtimeSelfTest_of_failing : exec (.runtimeSelfTestComplete sk pl false) s = done (s.plyOff sk pl 3) := by
  show execRuntimeSelfTestComplete sk pl false s = _
  simp [execRuntimeSelfTestComplete, up, tested]

theorem exec_runtimeSelfTest_of_passing (ended : (s.ply sk pl).testPend = false) : exec (.runtimeSelfTestComplete sk pl true) s =
    done (if s.param 0x0503 0 = 1 ∧ (s.ply sk pl).step < 9 then s.modPly sk pl fun y => { y with state := 1 } else s.plyOff sk pl 2) := by
  show execRuntimeSelfTestComplete sk pl true s = _
  simp [execRuntimeSelfTestComplete, up, tested, ended]

end

/-- The test of a ply for which no command waits reports nothing to the fault collector. -/
theorem State.testEnded_of_unasked {s : State} {k p : Nat} (unasked : (s.ply k p).testMb = none) (m : Word) :
    (s.testEnded k p m).faults = s.faults ∧ ∀ i, (s.ply k p).testFor = some i → ((s.testEnded k p m).sp i).notice5 = some m := by
  unfold State.testEnded
  extract_lets s1 s2
  rw [unasked]
  constructor
  · show s2.faults = s.faults
    unfold s2
    split <;> rfl
  · intro i asked
    show (s2.sp i).notice5 = some m
    simp only [s2, asked, State.modSp_sp]

theorem State.quiet_of_faults {s t : State} (h : t.faults = s.faults) (quiet : s.Quiet) : t.Quiet := by
  unfold State.Quiet
  rwa [h]

theorem exec_next_of_quiet {c : Instr} {s t : State} (h : exec c s = done t) (quiet : t.Quiet) : exec c s = .next t := by
  rw [h, done_of_quiet t quiet]

/-- Settles O8: each command's effect raises no event, so that it is the answer. -/
theorem pliesReturnToService : Obligations.PliesReturnToService := by
  intro sk pl s quiet up y
  refine ⟨fun twin pending unasked => ?_, fun powered kind working stale crc => ?_, fun split woken pending => ?_, fun tested unasked => ?_,
    fun sp p f place target other moving ready alone clean fenced open_ stores free unasked untested => ?_⟩
  · obtain ⟨faults, notice⟩ := State.testEnded_of_unasked unasked (BitVec.allOnes 64)
    have ended := exec_comparatorTest_of_pending up twin pending (BitVec.allOnes 64)
    rw [if_pos (by simp)] at ended
    refine ⟨_, exec_next_of_quiet ended (State.quiet_of_faults faults quiet), ?_⟩
    rw [State.testEnded_ply]
    exact ⟨rfl, rfl, rfl, notice⟩
  · have loaded := exec_draftLoad_of_stale up powered kind working stale true
    rw [if_pos (by rw [crc]; rfl)] at loaded
    exact ⟨_, exec_next_of_quiet loaded quiet, s.modPly_ply sk pl _⟩
  · exact ⟨_, exec_next_of_quiet (exec_runtimeSelfTest_of_split up split woken pending) quiet, s.modPly_ply sk pl _⟩
  · have offQuiet (st : Nat) : (s.plyOff sk pl st).Quiet := by
      obtain ⟨-, faults, -⟩ := s.plyOff_keeps unasked st
      exact State.quiet_of_faults faults quiet
    refine ⟨⟨_, exec_next_of_quiet (exec_runtimeSelfTest_of_failing up tested) (offQuiet 3), (s.plyOff_off sk pl 3).1⟩,
      fun ended powered warm => ?_, fun ended cold => ?_⟩
    · have passed := exec_runtimeSelfTest_of_passing up tested ended
      rw [if_pos ⟨warm, powered⟩] at passed
      exact ⟨_, exec_next_of_quiet passed quiet, s.modPly_ply sk pl _⟩
    · have passed := exec_runtimeSelfTest_of_passing up tested ended
      rw [if_neg fun h => cold h.1] at passed
      exact ⟨_, exec_next_of_quiet passed (offQuiet 2), s.plyOff_off sk pl 2⟩
  · have spare : s.SpareReady sp sk pl p f :=
      ⟨place, target, other, moving, ready, alone, clean, fenced, open_, stores, free, unasked, untested⟩
    obtain ⟨spindle, faults, issuing, off, kept⟩ := spare.spareStart
    refine ⟨_, exec_next_of_quiet (c := .spareIssueStart sp) rfl (State.quiet_of_faults faults quiet), ?_⟩
    rw [spindle]
    exact ⟨rfl, rfl, rfl, rfl, rfl, issuing, off, kept⟩

end Sys2Proof.Machine

/-!
PROOFS. A skein that is lost stays lost while the other skeins drain their stores, begin barriers, answer back-invalidate snoops and move
spindles (R145, R175, R184, R186, R197, R250, R262, R264).
-/

namespace Sys2Proof.Machine

/-- What every step over a member of the list keeps, the whole fold keeps. -/
theorem foldS_ind_mem {σ β : Type} (P : σ → Prop) (f : β → σ → σ) :
    ∀ (xs : List β) (s : σ), (∀ x ∈ xs, ∀ t, P t → P (f x t)) → P s → P (foldS xs f s)
  | [], _, _, hs => hs
  | x :: xs, s, step, hs =>
    foldS_ind_mem P f xs (f x s) (fun y hy => step y (List.mem_cons_of_mem x hy)) (step x List.mem_cons_self s hs)

/-! ### A lost skein -/

/-- Skein k is lost: its record is cleared, its plies are off, and it hosts no spindle (R197). -/
structure State.Gone (s : State) (k : Nat) : Prop where
  lost : (s.sk k).lost = true
  absent : (s.sk k).present = false
  empty : (s.sk k).lines = []
  off : ∀ p, p < 20 → (s.ply k p).step = 15
  left : ∀ i h, (s.sp i).host = some h → h.skein ≠ k

/-- From s to t no spindle changes its place, and skein k stays lost if it was. -/
structure State.Spares (s t : State) (k : Nat) : Prop where
  hosts : ∀ i, (t.sp i).host = (s.sp i).host
  gone : s.Gone k → t.Gone k

/-- What a change of a skein keeps that is neither its loss nor its lines. -/
def Skein.KeepsLoss (f : Skein → Skein) : Prop := ∀ z, (f z).lost = z.lost ∧ (f z).present = z.present ∧ (f z).lines = z.lines

namespace State.Spares

variable {s t u : State} {k : Nat}

theorem of_same (hosts : ∀ i, (t.sp i).host = (s.sp i).host)
    (skein : (t.sk k).lost = (s.sk k).lost ∧ (t.sk k).present = (s.sk k).present ∧ (t.sk k).lines = (s.sk k).lines)
    (steps : ∀ p, (t.ply k p).step = (s.ply k p).step) : s.Spares t k where
  hosts := hosts
  gone g := ⟨skein.1.trans g.lost, skein.2.1.trans g.absent, skein.2.2.trans g.empty, fun p hp => (steps p).trans (g.off p hp),
    fun i h hi => g.left i h ((hosts i).symm.trans hi)⟩

theorem refl (s : State) (k : Nat) : s.Spares s k := ⟨fun _ => rfl, id⟩
theorem trans (h : s.Spares t k) (g : t.Spares u k) : s.Spares u k := ⟨fun i => (g.hosts i).trans (h.hosts i), fun a => g.gone (h.gone a)⟩

theorem ite {c : Prop} [Decidable c] (ht : s.Spares t k) (hu : s.Spares u k) : s.Spares (if c then t else u) k := by
  split
  · exact ht
  · exact hu

theorem foldS {β : Type} (s : State) (k : Nat) (xs : List β) {f : β → State → State} (h : ∀ x (t : State), t.Spares (f x t) k) :
    s.Spares (Machine.foldS xs f s) k :=
  foldS_ind (fun t => s.Spares t k) f (fun x t ht => ht.trans (h x t)) xs s (.refl s k)

variable (h : s.Spares t k)
include h

theorem cores (same : u.cores = t.cores) : s.Spares u k := by
  have sp (i : Nat) : u.sp i = t.sp i := by
    unfold State.sp
    rw [same]
  have sk : u.sk k = t.sk k := by
    unfold State.sk
    rw [same]
  have ply (p : Nat) : u.ply k p = t.ply k p := by
    unfold State.ply
    rw [same]
  exact h.trans (of_same (fun i => by rw [sp]) (by simp [sk]) (fun p => by rw [ply]))

theorem modDir (l : Nat) (f : DirEntry → DirEntry) : s.Spares (t.modDir l f) k := h.cores rfl
theorem modHome (n : Nat) (f : HomeLog → HomeLog) : s.Spares (t.modHome n f) k := h.cores rfl
theorem modJalif (f : Jalif → Jalif) : s.Spares (t.modJalif f) k := h.cores rfl

theorem posts (g : t.Posts u) : s.Spares u k :=
  h.trans (of_same (fun i => by obtain ⟨_, e⟩ := g.sp i; rw [e]) (by simp [g.sk]) (fun p => by rw [g.ply]))

theorem raise (src inst : Nat) (spindle : Option Nat) : s.Spares (t.raise src inst spindle) k := h.posts (t.posts_raise _ _ _)

/-- What the caches of another skein do. -/
theorem work {j : Nat} (g : t.CacheWork u j) (other : j ≠ k) : s.Spares u k :=
  h.trans (of_same (fun i => by rw [g.sp]) (by simp [g.other k other.symm]) (fun p => (g.plies k p).step))

theorem modSk_other {j : Nat} {f : Skein → Skein} (other : j ≠ k) : s.Spares (t.modSk j f) k :=
  h.trans (of_same (fun _ => rfl) (by simp [t.modSk_sk_other f other.symm]) (fun _ => rfl))

theorem modSk (j : Nat) {f : Skein → Skein} (keeps : Skein.KeepsLoss f := by exact fun _ => ⟨rfl, rfl, rfl⟩) :
    s.Spares (t.modSk j f) k := by
  refine h.trans (of_same (fun _ => rfl) ?_ (fun _ => rfl))
  rw [t.sk_of_modSk]
  split
  · next same => exact same ▸ keeps _
  · exact ⟨rfl, rfl, rfl⟩

theorem modPly (j p : Nat) {f : Ply → Ply} (keeps : ∀ y, (f y).step = y.step := by exact fun _ => rfl) :
    s.Spares (t.modPly j p f) k :=
  h.trans (of_same (fun _ => rfl) ⟨rfl, rfl, rfl⟩ fun q =>
    t.ply_modPly_rel (R := fun x y => y.step = x.step) (fun _ => rfl) (keeps _) k q)

theorem modSp (i : Nat) {f : Spindle → Spindle} (keeps : ∀ x, (f x).host = x.host := by exact fun _ => rfl) :
    s.Spares (t.modSp i f) k := by
  refine h.trans (of_same (fun j => ?_) ⟨rfl, rfl, rfl⟩ (fun _ => rfl))
  by_cases hj : j = i
  · rw [hj, t.modSp_sp, keeps]
  · rw [t.modSp_sp_other f hj]

end State.Spares

section
variable (s : State) (k : Nat)

/-! ### Stores drain, and barriers begin (R145, R175, R176, R180, R205) -/

theorem State.drainOne_spares (i : Nat) : s.Spares (s.drainOne i).2 k := by
  unfold State.drainOne
  extract_lets x
  split
  · next h r rest place stores =>
    split
    · exact .refl s k
    · extract_lets l
      have wanted := s.cacheWork_wantOwned h l
      split
      · next t served =>
        rw [served] at wanted
        have work := wanted.trans (t.cacheWork_writeOwned h.skein h.ply l (applyStore r (t.skl h.skein l).val))
        have spared : s.Spares (t.writeOwned h.skein h.ply l (applyStore r (t.skl h.skein l).val)) k :=
          ⟨fun j => by rw [work.sp], fun g => ((Spares.refl s k).work work (g.left i h place)).gone g⟩
        dsimp only
        exact spared.modSp i
      · next t waits =>
        rw [waits] at wanted
        exact ⟨fun j => by rw [wanted.sp], fun g => ((Spares.refl s k).work wanted (g.left i h place)).gone g⟩
  · exact .refl s k

theorem State.drainN_spares (i : Nat) : ∀ (n : Nat) (s : State), s.Spares (State.drainN n i s) k
  | 0, s => .refl s k
  | n + 1, s => by
    have one := s.drainOne_spares k i
    unfold State.drainN
    split
    · next t drained =>
      rw [drained] at one
      exact one.trans (State.drainN_spares i n t)
    · next t waits =>
      rw [waits] at one
      exact one

theorem State.drain_spares (i : Nat) : s.Spares (s.drain i) k := State.drainN_spares k i _ s

theorem State.drainSkein_spares (j : Nat) : s.Spares (s.drainSkein j) k := .foldS s k _ fun i t => t.drain_spares k i

theorem State.enterPairing_spares (j : Nat) : s.Spares (s.enterPairing j) k :=
  .ite (((Spares.refl s k).modSk j).modSk _) (.refl s k)

theorem State.beginBarrier_spares (j : Nat) : s.Spares (s.beginBarrier j) k :=
  ((s.enterPairing_spares k j).modSk j).trans (State.drainSkein_spares _ k j)

theorem State.epochTick_spares (j : Nat) : s.Spares (s.epochTick j) k :=
  .ite (.refl s k) (.ite ((Spares.refl s k).modSk j) (s.beginBarrier_spares k j))

theorem State.requestFasten_spares (j : Nat) : s.Spares (s.requestFasten j) k :=
  .ite (.refl s k) (((Spares.refl s k).modSk j).trans (State.epochTick_spares _ k j))

/-! ### The home slices at work (R250, R252, R254) -/

theorem State.flipWrite_cores (c : Nat) (l : Option Nat) (o : Nat) : (s.flipWrite c l o).cores = s.cores := by
  unfold State.flipWrite
  extract_lets t m
  have h : t.cores = s.cores := by
    unfold t
    split <;> rfl
  split
  · exact h
  · split <;> exact h

theorem State.memWrite_cores (l : Nat) (v : LineVal) : (s.memWrite l v).cores = s.cores := by
  unfold State.memWrite
  split
  · dsimp only
    split
    · rfl
    · exact foldS_ind (fun t : State => t.cores = s.cores) _ (fun c t h => (t.flipWrite_cores _ _ _).trans h) _ _ rfl
  · split
    · rfl
    · split
      · rfl
      · dsimp only
        split <;> rfl
  · rfl

@[simp] theorem State.homeWrite_cores (l : Nat) (v : LineVal) : (s.homeWrite l v).cores = s.cores := State.memWrite_cores _ l v

theorem State.foldS_send_cores {β : Type} (xs : List β) (q : β → Packet) : (foldS xs (fun x t => t.send (q x)) s).cores = s.cores :=
  foldS_ind (fun t : State => t.cores = s.cores) _ (fun _ t h => (t.send_cores _).trans h) xs s rfl

theorem State.nack_cores (p : Packet) (reason hint : Nat) : (s.nack p reason hint).cores = s.cores := by
  unfold State.nack
  extract_lets h was s0 s1
  have h0 : s0.cores = s.cores := by
    unfold s0
    split <;> rfl
  split <;> exact h0

theorem State.serveDone_cores (t : Txn) : (s.serveDone t).cores = s.cores := by
  unfold State.serveDone
  extract_lets p l u v
  have hu : u.cores = s.cores := by
    unfold u State.askDevice State.dropHold
    extract_lets m
    split <;> split <;> rfl
  split
  · split <;> exact hu
  · exact hu
  · exact hu
  · exact hu
  · simpa using hu

theorem State.serve_cores (p : Packet) : (s.serve p).cores = s.cores := by
  unfold State.serve
  extract_lets l d owned q
  split
  extract_lets t
  split
  · exact s.serveDone_cores t
  · exact State.foldS_send_cores _ _ _

theorem State.needWay_cores (p : Packet) (waited : Bool) : (s.needWay p waited).cores = s.cores := by
  unfold State.needWay
  extract_lets
  split
  · extract_lets d m s1
    split
    · exact State.serve_cores _ p
    · refine (State.foldS_send_cores _ _ _).trans ?_
      split <;> rfl
  · split
    · rfl
    · exact s.nack_cores _ _ _

theorem State.pumpN_cores (h : Nat) : ∀ (n : Nat) (s : State), (State.pumpN h n s).cores = s.cores
  | 0, _ => rfl
  | n + 1, s => by
    unfold State.pumpN
    extract_lets q
    split
    · rfl
    · extract_lets s1
      rw [State.pumpN_cores h n]
      split
      · exact State.needWay_cores _ _ _
      · exact State.serve_cores _ _

theorem State.pumpTop_cores (h : Nat) : (s.pumpTop h).cores = s.cores := State.pumpN_cores h _ s

/-! ### Back-invalidate snoops (R184, R186, R262, R264) -/

theorem State.sendRelease_spares (j l : Nat) : s.Spares (s.sendRelease j l) k :=
  .ite ((Spares.refl s k).modSk j) (.refl s k)

theorem State.nackLine_spares {j : Nat} (other : j ≠ k) (l top : Nat) : s.Spares (s.nackLine j l top) k := by
  unfold State.nackLine
  extract_lets x z e s1
  have marked : s.Spares s1 k := (Spares.refl s k).work (s.cacheWork_modSkl j l _) other
  exact .ite marked (marked.trans (s1.requestFasten_spares k j))

variable {s k} (gone : s.Gone k)
include gone

theorem State.Gone.skl (l : Nat) : s.skl k l = {} := by
  unfold State.skl
  rw [gone.empty]
  rfl

/-- No skein that is up is the lost one. -/
theorem State.Gone.ne_of_up {j : Nat} (up : s.skeinUp j = true) : j ≠ k := by
  rintro rfl
  simp [State.skeinUp, gone.lost] at up

theorem State.Gone.ne_of_owner {l j : Nat} (owner : s.ownerOfLine l = some j) : j ≠ k := by
  unfold State.ownerOfLine at owner
  extract_lets d at owner
  split at owner
  · next owned =>
    cases owner
    exact gone.ne_of_up owned.2.2
  · cases owner

theorem State.Gone.dropCopies (l : Nat) : s.Spares (s.dropCopies l) k := by
  unfold State.dropCopies
  extract_lets ks
  have live : ∀ j ∈ ks, j ≠ k := by
    rintro j hj rfl
    have held := (List.mem_filter.mp hj).2
    rw [gone.skl] at held
    exact absurd held (by decide)
  clear_value ks
  refine State.Spares.modDir ?_ l _
  refine foldS_ind_mem (fun t => s.Spares t k) _ _ _ (fun j hj t ht => ?_) (.refl s k)
  have left := ht.work (t.cacheWork_forget j l) (live j hj)
  exact .ite (left.trans (State.sendRelease_spares _ k j l)) left

theorem State.Gone.biTry (l : Nat) (shared : Bool) :
    s.Spares (s.biTry l shared).2.2 k ∧ ∀ t, (s.biTry l shared).1 = some t → s.Spares t k := by
  unfold State.biTry
  extract_lets wait answer sh dropped
  have unchanged := State.Spares.refl s k
  have left : s.Spares dropped k := gone.dropCopies l
  split
  · exact ⟨unchanged, by simp⟩
  · split
    · refine ⟨unchanged, fun t answered => ?_⟩
      obtain rfl := Option.some.inj answered
      exact (State.Spares.ite unchanged left).cores rfl
    · next j owner =>
      have other := gone.ne_of_owner owner
      extract_lets x dirty v t
      split
      · exact ⟨s.nackLine_spares k other l 2, by simp⟩
      · split
        · refine ⟨unchanged, fun u answered => ?_⟩
          obtain rfl := Option.some.inj answered
          have written : s.Spares t k :=
            .ite ((unchanged.cores (s.homeWrite_cores l v)).trans (State.sendRelease_spares _ k j l)) unchanged
          have shared : s.Spares ((t.modSkl j l fun y => { y with fst := .clean, own := .shared, hold := 0, nacked := 0 }).modDir l fun d =>
              { d with state := 1, owner := 15, sharers := skBit j }) k :=
            (written.work (t.cacheWork_modSkl j l _) other).modDir l _
          exact (shared.trans (State.drainSkein_spares _ k j)).cores rfl
        · refine ⟨unchanged, fun u answered => ?_⟩
          obtain rfl := Option.some.inj answered
          exact (State.Spares.ite (left.cores (dropped.homeWrite_cores l v)) left).cores rfl

theorem State.Gone.biPump : s.Spares s.biPump k := by
  unfold State.biPump
  refine foldS_ind (fun t => s.Spares t k) _ (fun e t ht => ?_) _ s (.refl s k)
  obtain ⟨tried, answered⟩ := (ht.gone gone).biTry e.1 e.2.1
  split
  · next u _ _ found =>
    rw [found] at answered
    exact State.Spares.cores (t := u) (ht.trans (answered u rfl)) rfl
  · next fasten u found =>
    rw [found] at tried
    have waits := ht.trans tried
    split
    · refine State.Spares.raise ?_ _ _ _
      exact waits.cores rfl
    · exact waits

theorem State.Gone.recallEnd (h : Nat) : s.Spares (s.recallEnd h) k := by
  unfold State.recallEnd
  extract_lets x inSet late ls
  refine .ite (.refl s k) ?_
  have cleared : s.Spares (foldS ls (fun l t => t.modDir l DirEntry.clear) (s.modHome h fun x => { x with recallOn := false })) k :=
    foldS_ind (fun t => s.Spares t k) _ (fun l t ht => ht.modDir l _) _ _ ((State.Spares.refl s k).modHome h _)
  have pumped := cleared.cores (State.pumpTop_cores _ h)
  exact pumped.trans (pumped.gone gone).biPump

theorem State.Gone.lossPump : s.Spares s.lossPump k := by
  unfold State.lossPump
  refine foldS_ind (fun t => s.Spares t k) _ (fun h t ht => ?_) _ s (.refl s k)
  have pumped := ht.cores (t.pumpTop_cores h)
  have answered := pumped.trans (pumped.gone gone).biPump
  exact answered.trans ((answered.gone gone).recallEnd h)

end

/-! ### Spindles move (R159 to R162, R479) -/

section
variable (s : State) (k : Nat)

theorem State.askBeads_spares (d prio n : Nat) (what : BeadFor) : s.Spares (s.askBeads d prio n what) k :=
  .ite (.refl s k) (.ite ((Spares.refl s k).modSk d) ((Spares.refl s k).cores rfl))

theorem State.reserve_spares (i : Nat) (d : Place) : s.Spares (s.reserve i d) k := by
  unfold State.reserve
  extract_lets y s1 goal cold s2 want
  have h1 : s.Spares s1 k := (Spares.refl s k).modSp i
  have h2 : s.Spares s2 k := h1.modPly d.skein d.ply
  exact .ite h1 (.ite h2 (h2.trans (s2.askBeads_spares k _ _ _ _)))

theorem State.moveTo_spares (i : Nat) (d : Place) : s.Spares (s.moveTo i d) k := by
  unfold State.moveTo
  split
  · exact .refl s k
  · next h _ =>
    extract_lets z cross s0 s1
    have h0 : s.Spares s0 k := .ite ((Spares.refl s k).cores (s.drainKey_cores _)) (.refl s k)
    have h1 : s.Spares s1 k := (h0.trans (s0.reserve_spares k i d)).modSp i
    exact .ite (h1.trans (s1.requestFasten_spares k h.skein)) h1

theorem State.startMove_spares (i : Nat) : s.Spares (s.startMove i) k := by
  unfold State.startMove
  split
  · exact .refl s k
  · split
    · exact s.moveTo_spares k i _
    · extract_lets x s1
      have h1 : s.Spares s1 k := ((Spares.refl s k).modSp i).modJalif _
      exact (h1.raise _ _ _).posts (State.posts_spindleNotice _ _ _ _)

end

end Sys2Proof.Machine

/-!
PROOFS. The loss of a skein and its causes (R154, R162, R172, R197, R200, R201, R207).
-/

namespace Sys2Proof.Machine

/-- What a step over y brings about, and every step keeps, holds after a fold over a list with y. -/
theorem foldS_of_mem {σ β : Type} {P : σ → Prop} {f : β → σ → σ} {y : β} (made : ∀ t, P (f y t)) (kept : ∀ x t, P t → P (f x t)) :
    ∀ (xs : List β) (s : σ), y ∈ xs → P (foldS xs f s)
  | x :: xs, s, h => by
    rcases List.mem_cons.mp h with rfl | h
    · exact foldS_ind P f kept xs _ (made s)
    · exact foldS_of_mem made kept xs _ h

theorem buddyOf_ne (k : Nat) : buddyOf k ≠ k := by
  unfold buddyOf
  split <;> omega

namespace State.Spares

variable {s t : State} {k : Nat} (h : s.Spares t k)
include h

theorem send (p : Packet) : s.Spares (t.send p) k := h.cores rfl
theorem modTenant (n : Nat) (f : Tenant → Tenant) : s.Spares (t.modTenant n f) k := h.cores rfl

end State.Spares

section
variable (s : State) (k : Nat)

/-! ### What a loss does to the rest of the reel (R185, R195, R197, R198, R250) -/

theorem State.flushReleases_spares (j : Nat) : s.Spares (s.flushReleases j) k :=
  .foldS s k _ fun l t => .ite (.refl t k) (((Spares.refl t k).modSk j).modSk (buddyOf j))

theorem State.lossNet_spares (j : Nat) : s.Spares (s.lossNet j) k := by
  unfold State.lossNet
  extract_lets b gone net s1 s2
  have h1 : s.Spares s1 k := (Spares.refl s k).cores rfl
  have h2 : s.Spares s2 k := .ite h1 (h1.trans (.foldS s1 k _ fun p t =>
    .ite ((Spares.refl t k).modSk _) ((Spares.refl t k).cores (t.homeWrite_cores _ _))))
  exact h2.trans (s2.flushReleases_spares k j)

theorem State.releaseHolds_cores (j : Nat) : (s.releaseHolds j).cores = s.cores := by
  refine foldS_ind (fun t : State => t.cores = s.cores) _ (fun e t ht => ?_) _ s rfl
  have dropped : (t.dropHold e.1 j).cores = s.cores := by
    unfold State.dropHold
    split <;> exact ht
  dsimp only
  split <;> exact dropped

theorem State.lossTxns_spares (j : Nat) : s.Spares (s.lossTxns j) k := by
  unfold State.lossTxns
  extract_lets mine waits ended home s1 s2 s3
  have h1 : s.Spares s1 k := (Spares.refl s k).cores rfl
  have h2 : s.Spares s2 k := h1.trans (.foldS s1 k _ fun h t => (Spares.refl t k).modHome h _)
  have h3 : s.Spares s3 k := h2.trans <| .foldS s2 k _ fun t u => by
    extract_lets u1 u2
    have g1 : u.Spares u1 k := .foldS u k _ fun q w => .ite (.refl w k) ((Spares.refl w k).send _)
    have g2 : u.Spares u2 k := .ite (g1.modDir t.line _) g1
    exact .ite (g2.modHome _ _) (g2.cores (u2.nack_cores _ _ _))
  exact h3.cores (s3.releaseHolds_cores j)

theorem State.lossContexts_spares (j : Nat) (kind : LossKind) : s.Spares (s.lossContexts j kind) k := by
  unfold State.lossContexts
  extract_lets z done pages fastened
  refine .foldS s k _ fun pg t => ?_
  extract_lets u mp mc t1
  have h1 : t.Spares t1 k := (Spares.refl t k).modTenant pg _
  exact .ite h1 (h1.raise _ _ _)

theorem State.losePoison_cores (l : Nat) : (s.losePoison l).cores = s.cores := s.memWrite_cores l _

/-! ### Spindles that a loss leaves without a place (R143, R197, R201, R207) -/

theorem State.stopSpindle_spares (i cause seq tsbCause : Nat) : s.Spares (s.stopSpindle i cause seq tsbCause) k :=
  .ite (.refl s k) (((Spares.refl s k).modSp i).posts (State.posts_spindleNotice _ _ _ _))

theorem State.unreserve_spares (i : Nat) : s.Spares (s.unreserve i) k := by
  unfold State.unreserve
  split
  · exact .refl s k
  · next d _ =>
    extract_lets s1
    have h1 : s.Spares s1 k := (Spares.refl s k).modSp i
    exact .ite h1 (h1.modPly d.skein d.ply)

theorem State.moveAnswered_spares (i status : Nat) : s.Spares (s.moveAnswered i status) k := by
  unfold State.moveAnswered
  split
  · exact ((Spares.refl s k).modSp i).posts (State.posts_respond _ _ _ _ _ _)
  · exact .refl s k

/-- The spindle has no place after the loss, and no other spindle has changed its own. -/
theorem State.lossSpindle_host (i : Nat) (kind : LossKind) (j : Nat) :
    ((s.lossSpindle k i kind).sp j).host = if j = i then none else (s.sp j).host := by
  unfold State.lossSpindle
  extract_lets s0 s1 s2
  have h0 : (s0.sp j).host = if j = i then none else (s.sp j).host := by
    have before := (s.unreserve_spares k i).trans (State.moveAnswered_spares _ k i 0x17)
    split
    · next same =>
      rw [same]
      exact congrArg Spindle.host (State.modSp_sp _ i _)
    · next other =>
      rw [← before.hosts j]
      exact congrArg Spindle.host (State.modSp_sp_other _ _ other)
  rw [← h0]
  refine State.Spares.hosts (k := k) ?_ j
  have unchanged := Spares.refl s0 k
  have stopped (cause : Nat) : s0.Spares (s0.stopSpindle i cause 0 0) k := s0.stopSpindle_spares k i cause 0 0
  have held (kind : LossKind) : s0.Spares (match s.lossImage k i kind with
      | some m => s0.modJalif fun j => { j with heldImg := tset {} j.heldImg i m }
      | none => s0) k := by
    split
    · exact unchanged.modJalif _
    · exact unchanged
  have h1 : s0.Spares s1 k := held _
  have h2 : s0.Spares s2 k := held _
  clear_value s1 s2 s0
  cases kind
  · exact .ite h1 (h1.modJalif _)
  · exact .ite h2 (h2.modJalif _)
  · exact (Spares.ite (stopped 4) unchanged).modJalif _
  · exact .ite ((unchanged.modSp i).trans (State.stopSpindle_spares _ k i 3 0 0)) unchanged

theorem State.foldS_lossSpindle_host (kind : LossKind) (j : Nat) : ∀ (hosts : List Nat) (s : State),
    ((foldS hosts (fun i t => t.lossSpindle k i kind) s).sp j).host = if j ∈ hosts then none else (s.sp j).host
  | [], s => rfl
  | i :: hosts, s => by
    rw [foldS_cons, State.foldS_lossSpindle_host kind j hosts, State.lossSpindle_host]
    by_cases hj : j = i <;> simp [hj]

theorem State.mem_hosted_of_host {i : Nat} {h : Place} (place : (s.sp i).host = some h) : i ∈ s.hosted h.skein := by
  rcases tget_eq_default_or_mem {} s.cores.spindles i with e | e
  · rw [State.sp, e] at place
    cases place
  · exact List.mem_filterMap.mpr ⟨_, e, by rw [← State.sp, place]; simp⟩

/-! ### What the buddy takes over (R197 to R200, R526) -/

variable {k} {b : Nat} (other : b ≠ k)
include other

theorem State.promote_spares : s.Spares (s.promote k b) k := by
  unfold State.promote
  extract_lets dbl s1 dirty
  have h1 : s.Spares s1 k := .foldS s k _ fun d t => ((Spares.refl t k).work (t.cacheWork_setSkl b d.1 _) other).modDir d.1 _
  exact h1.modSk b

theorem State.becomeLoose_spares (e : Nat) : s.Spares (s.becomeLoose b e) k := by
  unfold State.becomeLoose
  split
  · exact .ite (((Spares.refl s k).modSk_other other).modSk (buddyOf b)) (.refl s k)
  · exact .refl s k

theorem State.doubleAck_spares : s.Spares (s.doubleAck b) k := by
  unfold State.doubleAck
  extract_lets z e solo lines s1 kept home s2 held s2' s3
  have h1 : s.Spares s1 k := (Spares.refl s k).modSk_other other
  have h2 : s.Spares s2' k := h1.cores rfl
  have contexts : s2'.Spares (s2'.fastenContexts b) k := .foldS s2' k _ fun pg t => by
    extract_lets u pDone cDone u1 t1
    have g1 : t.Spares t1 k := (Spares.refl t k).modTenant pg _
    exact .ite g1 (g1.modSk b)
  have h3 : s.Spares s3 k := ((h2.trans contexts).trans (State.becomeLoose_spares _ other e)).trans (State.drainSkein_spares _ k b)
  exact .ite (.refl s k) (.ite (h3.trans (s3.beginBarrier_spares k b)) h3)

theorem State.becomeSolo_spares (j : Nat) : s.Spares (s.becomeSolo b j) k := by
  unfold State.becomeSolo
  extract_lets zb protected_ s1 sent
  have h1 : s.Spares s1 k := .ite (s.doubleAck_spares other) (.refl s k)
  exact h1.modSk_other other

end

/-! ### The lost skein itself (R197, R283, R477) -/

section
variable (s : State) (k : Nat)

theorem State.testLost_spares (j p : Nat) : s.Spares (s.testLost j p) k := by
  unfold State.testLost
  split
  · exact ((Spares.refl s k).modPly j p).posts (State.posts_respond _ _ _ _ _ _)
  · exact .refl s k

theorem State.lossPlies_hosts (i : Nat) : ((s.lossPlies k).sp i).host = (s.sp i).host := by
  unfold State.lossPlies
  generalize List.range 20 = plies
  refine foldS_ind (fun t : State => (t.sp i).host = (s.sp i).host) _ (fun p t same => ?_) plies s rfl
  exact ((t.testLost_spares k k p).hosts i).trans same

theorem State.testLost_step (j p q : Nat) : ((s.testLost j p).ply j q).step = (s.ply j q).step := by
  unfold State.testLost
  split
  · rw [(State.posts_respond _ _ _ _ _ _).ply]
    exact s.ply_modPly_rel (R := fun x y => y.step = x.step) (fun _ => rfl) rfl j q
  · rfl

theorem State.lossPlies_off {p : Nat} (hp : p < 20) : ((s.lossPlies k).ply k p).step = 15 := by
  have mem : p ∈ List.range 20 := List.mem_range.mpr hp
  unfold State.lossPlies
  generalize List.range 20 = plies at mem ⊢
  refine foldS_of_mem (P := fun t : State => (t.ply k p).step = 15) (fun t => ?_) (fun q t off => ?_) _ s mem
  · rw [State.modPly_ply]
  · rw [State.ply_of_modPly]
    split
    · rfl
    · rw [State.testLost_step, off]

theorem State.returnBeads_cores {d : Nat} (hub : ¬ d < 12) (n : Nat) : (s.returnBeads d n).cores = s.cores := by
  unfold State.returnBeads State.modGranted
  rw [if_neg hub]
  rfl

theorem State.withdrawBeads_cores {d : Nat} (hub : ¬ d < 12) (what : BeadFor) : (s.withdrawBeads d what).cores = s.cores := by
  unfold State.withdrawBeads State.setWaiting
  rw [if_neg hub]
  rfl

theorem State.dropDomain_cores (n v : Nat) : (s.dropDomain n v).cores = s.cores := by
  have hub : ¬ (12 < 12) := by omega
  unfold State.dropDomain
  extract_lets holds s1
  have h1 : s1.cores = s.cores := by
    show (if _ then _ else s : State).cores = _
    split
    · exact s.returnBeads_cores hub _
    · rfl
  exact (s1.withdrawBeads_cores hub (.domain n)).trans h1

theorem State.lossBeads_cores : (s.lossBeads k).cores = s.cores := s.dropDomain_cores (360 + k) 0

theorem State.lossFences_cores : (s.lossFences k).cores = s.cores := by
  unfold State.lossFences
  generalize skeinKeys k = keys
  exact foldS_ind (fun t : State => t.cores = s.cores) (fun n t => t.setFence n {}) (fun _ _ h => h) keys s rfl

theorem State.relife_cores : s.relife.cores = s.cores := by
  unfold State.relife
  split
  · split <;> rfl
  · split <;> rfl
  · rfl

theorem State.lossRecord_host (f : Skein → Skein) (i : Nat) :
    ((((s.lossPlies k).lossBeads k).modSk k f).sp i).host = (s.sp i).host := by
  have cores := (s.lossPlies k).lossBeads_cores k
  rw [← s.lossPlies_hosts k i]
  generalize s.lossPlies k = t at cores ⊢
  generalize t.lossBeads k = u at cores ⊢
  show (u.sp i).host = _
  unfold State.sp
  rw [cores]

/-- Once no spindle is left on it, the skein whose plies are off and whose record is that of a lost one is gone. -/
theorem State.gone_of_unhosted (empty : ∀ i h, (s.sp i).host = some h → h.skein ≠ k) (why : LossCause) :
    (((s.lossPlies k).lossBeads k).modSk k fun z => z.lostRec why).Gone k := by
  have cores := (s.lossPlies k).lossBeads_cores k
  have hosts := s.lossRecord_host k fun z => z.lostRec why
  have off (p : Nat) (hp : p < 20) := s.lossPlies_off k hp
  generalize s.lossPlies k = t at cores hosts off ⊢
  generalize t.lossBeads k = u at cores hosts ⊢
  have record : ((u.modSk k fun z => z.lostRec why).sk k) = (u.sk k).lostRec why := State.modSk_sk u k _
  refine ⟨by rw [record]; rfl, by rw [record]; rfl, by rw [record]; rfl, fun p hp => ?_, fun i h place => empty i h ?_⟩
  · rw [← off p hp]
    show (u.ply k p).step = _
    unfold State.ply
    rw [cores]
  · rw [← place, hosts]

theorem State.lossSpindles_unhosted (kind : LossKind) (hosts : List Nat) (all : ∀ i h, (s.sp i).host = some h → h.skein = k → i ∈ hosts) :
    ∀ i h, ((foldS hosts (fun i t => t.lossSpindle k i kind) s).sp i).host = some h → h.skein ≠ k := by
  intro i h place same
  rw [State.foldS_lossSpindle_host] at place
  split at place
  · cases place
  · next staying => exact staying (all i h place same)

end

section
variable {s t : State} {k : Nat}

theorem State.Spares.unhosted (h : s.Spares t k) (empty : ∀ i h, (s.sp i).host = some h → h.skein ≠ k) :
    ∀ i h, (t.sp i).host = some h → h.skein ≠ k := fun i a place => empty i a ((h.hosts i).symm.trans place)

theorem State.Gone.lostSkein (gone : t.Gone k) (unhosted : ∀ i ∈ s.hosted k, (t.sp i).host = none) : s.LostSkein t k := by
  obtain ⟨lost, absent, empty, off, -⟩ := gone
  exact ⟨lost, absent, empty, off, unhosted⟩

end

section
variable (s : State) (k : Nat)

theorem State.lossJournal_cores : (s.lossJournal k).cores = s.cores := rfl

/-- The fences of the lost skein, the requests that waited for it, and the life of the reel. -/
theorem State.Gone.settle {s : State} {k : Nat} (gone : s.Gone k) : s.Spares ((s.lossFences k).lossPump).relife k := by
  have fenced : s.Spares (s.lossFences k) k := (Spares.refl s k).cores (s.lossFences_cores k)
  exact (fenced.trans (fenced.gone gone).lossPump).cores (State.relife_cores _)

/-- The buddy of a lost skein takes over what it doubled, and keeps its own epoch alone (R197, R198). -/
theorem State.Spares.alone {s t : State} {k b : Nat} (h : s.Spares t k) (other : b ≠ k) {keep double : Prop} [Decidable keep] [Decidable double]
    {f : Skein → Skein} (keeps : Skein.KeepsLoss f) :
    s.Spares (if keep then t else (if double then t.promote k b else t.modSk b f).becomeSolo b k) k :=
  .ite h (State.Spares.trans (.ite (h.trans (t.promote_spares other)) (h.modSk b keeps)) (State.becomeSolo_spares _ other k))

end

/-- The loss of a skein that is up, while the reel runs. -/
theorem State.skeinLoss_lost {s : State} {k : Nat} (up : s.skeinUp k = true) (on : s.life ≠ .off) (live : s.life ≠ .halt) (why : LossCause) :
    s.LostSkein (s.skeinLoss k why) k := by
  unfold State.skeinLoss
  extract_lets b kind hosts others moving s1 dirty s2 s3 s4 s5 s6 s7 s8 s9 s10
  rw [if_neg (by simp [up, on, live])]
  have other : b ≠ k := buddyOf_ne k
  have h1 : s.Spares s1 k := (s.lossNet_spares k k).trans (State.lossTxns_spares _ k k)
  clear_value dirty s1
  have h2 : s.Spares s2 k := (h1.cores (s1.lossJournal_cores k)).trans (State.lossContexts_spares _ k k kind)
  clear_value s2
  have all (i : Nat) (h : Place) (place : (s2.sp i).host = some h) (same : h.skein = k) : i ∈ s.hosted k := by
    rw [← same]
    exact s.mem_hosted_of_host ((h2.hosts i).symm.trans place)
  have unhosted : ∀ i h, (s3.sp i).host = some h → h.skein ≠ k := s2.lossSpindles_unhosted k kind hosts all
  have left (i : Nat) (hosted : i ∈ hosts) : (s3.sp i).host = none :=
    (s2.foldS_lossSpindle_host k kind i hosts).trans (if_pos hosted)
  clear_value s3
  have h4 : s3.Spares s4 k := .foldS s3 k _ fun i t =>
    (State.Spares.ite (t.stopSpindle_spares k i 4 0 0) (.refl t k)).modJalif _
  clear_value s4
  have h5 : s3.Spares s5 k := h4.alone other (fun _ => ⟨rfl, rfl, rfl⟩)
  clear_value s5
  have h6 : s3.Spares s6 k := h5.trans (.foldS s5 k _ fun l t => (State.Spares.refl t k).cores (t.losePoison_cores l))
  clear_value s6
  have gone7 : s7.Gone k := s6.gone_of_unhosted k (h6.unhosted unhosted) why
  have placed (i : Nat) : (s7.sp i).host = (s6.sp i).host := s6.lossRecord_host k _ i
  clear_value s7
  have h8 : s7.Spares s8 k := gone7.settle
  clear_value s8
  have h9 : s7.Spares s9 k := h8.trans (.foldS s8 k _ fun i t => ((State.Spares.refl t k).modSp i).trans (State.startMove_spares _ k i))
  clear_value s9
  have h10 : s7.Spares s10 k := h9.modJalif _
  clear_value s10 kind
  have lost (t : State) (h : s7.Spares t k) : s.LostSkein t k :=
    (h.gone gone7).lostSkein fun i hosted => by rw [h.hosts, placed, h6.hosts, left i hosted]
  cases kind <;> exact lost _ (h10.raise _ _ _)

end Sys2Proof.Machine

/-!
PROOFS. What makes a skein lost, and what a Loose skein does instead (R154, R162, R172).
-/

namespace Sys2Proof.Machine

section
variable {s t : State} {k : Nat}

theorem State.LostSkein.posts (h : s.LostSkein t k) {u : State} (g : t.Posts u) : s.LostSkein u k := by
  obtain ⟨lost, absent, empty, off, unhosted⟩ := h
  refine ⟨by rw [g.sk]; exact lost, by rw [g.sk]; exact absent, by rw [g.sk]; exact empty, fun p hp => by rw [g.ply]; exact off p hp,
    fun i hosted => ?_⟩
  obtain ⟨pending, same⟩ := g.sp i
  rw [same]
  exact unhosted i hosted

theorem State.lost_of_up (up : s.skeinUp k = true) : (s.sk k).lost = false := by
  simp only [State.skeinUp, Bool.and_eq_true, Bool.not_eq_true'] at up
  exact up.2

theorem State.Posts.stopped (h : s.Posts t) (i : Nat) : (t.sp i).stopped = (s.sp i).stopped := by
  obtain ⟨pending, same⟩ := h.sp i
  rw [same]

/-- A stopped spindle keeps its cause; one that runs gets the cause given. -/
theorem State.stopSpindle_stopped (s : State) (i cause seq tsbCause : Nat) :
    ((s.stopSpindle i cause seq tsbCause).sp i).stopped = if (s.sp i).stopped ≠ 0 then (s.sp i).stopped else cause := by
  unfold State.stopSpindle
  split
  · rfl
  · rw [(State.posts_spindleNotice _ _ _ _).stopped, State.modSp_sp]

theorem State.stopSpindle_stays {j : Nat} (stopped : (s.sp j).stopped ≠ 0) (i cause seq tsbCause : Nat) :
    ((s.stopSpindle i cause seq tsbCause).sp j).stopped ≠ 0 := by
  by_cases same : j = i
  · rw [same] at stopped ⊢
    rw [State.stopSpindle_stopped, if_pos stopped]
    exact stopped
  · unfold State.stopSpindle
    split
    · exact stopped
    · rw [(State.posts_spindleNotice _ _ _ _).stopped, State.modSp_sp_other _ _ same]
      exact stopped

theorem State.foldS_stopSpindle_stopped {i : Nat} {xs : List Nat} (mem : i ∈ xs) (cause seq tsbCause : Nat) (named : cause ≠ 0) (s : State) :
    ((foldS xs (fun i t => t.stopSpindle i cause seq tsbCause) s).sp i).stopped ≠ 0 := by
  refine foldS_of_mem (P := fun t : State => (t.sp i).stopped ≠ 0) (fun t => ?_) (fun j t stopped => t.stopSpindle_stays stopped j _ _ _) xs s mem
  rw [State.stopSpindle_stopped]
  split
  · assumption
  · exact named

theorem State.foldS_stopSpindle_sk (xs : List Nat) (cause seq tsbCause : Nat) (s : State) (k : Nat) :
    (foldS xs (fun i t => t.stopSpindle i cause seq tsbCause) s).sk k = s.sk k :=
  foldS_ind (fun t : State => t.sk k = s.sk k) _ (fun i t same => ((t.keepsSkeins_stopSpindle i _ _ _).skeins k).trans same) xs s rfl

end

/-! ### Commands -/

section
variable {s : State} {sk : SkId} {pl : PlId} (up : s.skeinUp sk = true)
include up

theorem exec_checkpointUncorrectable_of_up (r : Fin 4) (f : Fin 2) : exec (.checkpointUncorrectable sk pl r f) s = done
    (if !s.regionUsed sk pl r then s.raise 0x010A (20 * sk + pl)
    else if (s.sk sk).loose then
      (foldS (s.spindlesOn sk pl) (fun i t => t.stopSpindle i 1 0 0) s).raise 0x0104 (20 * sk + pl) (s.spindlesOn sk pl).head?
    else (s.skeinLoss sk .checkpoint).raise 0x0104 (20 * sk + pl) (s.spindlesOn sk pl).head?) := by
  show execCheckpointUncorrectable sk pl r f s = _
  unfold execCheckpointUncorrectable
  dsimp only
  rw [if_neg (by simp [up])]

theorem exec_l2CleanTimeout_of_late (failed : (s.ply sk pl).state = 3) (dirty : s.dirtyInL2 sk pl ≠ [])
    (late : (s.ply sk pl).failedAt + 100000 ≤ s.time) : exec (.l2CleanTimeout sk pl) s = done
      (let s1 := s.modPly sk pl fun y => { y with l2Failed := true }
       if (s.sk sk).loose then foldS (s.dirtyInL2 sk pl) (fun l t => t.evictPoisoned sk l) s1 else s1.skeinLoss sk .other) := by
  have waits : ¬ s.time < (s.ply sk pl).failedAt + 100000 := by omega
  show execL2CleanTimeout sk pl s = _
  unfold execL2CleanTimeout
  dsimp only
  rw [if_neg (by simp [up, failed, dirty, waits])]

/-- A ply of a Split skein that is not Loose fails: its skein is lost. -/
theorem State.splitFail_lost (on : s.life ≠ .off) (live : s.life ≠ .halt) (fastened : (s.sk sk).loose = false) (split : (s.sk sk).split = true)
    (working : (s.ply sk pl).state ≤ 2) (free : s.targets = []) : ((s.splitFail sk pl).sk sk).lost = true := by
  unfold State.splitFail
  rw [if_neg (by simp only [up, split, Bool.not_true, Bool.false_eq_true, false_or]; omega)]
  extract_lets failing s1 s2
  rw [if_neg (by simp [fastened]), (State.posts_raise _ _ _ _).sk]
  have kept : s1 = s.modPly sk pl fun y => { y with state := 3, failedAt := s.time } :=
    State.retarget_of_no_targets (s := s.modPly sk pl _) free sk pl
  rw [kept]
  exact (State.skeinLoss_lost (s := s.modPly sk pl _) up on live .other).1

theorem State.checkpoint_lost_of_loose (i : Nat) (on : List Nat) :
    let u := (foldS on (fun i t => t.stopSpindle i 1 0 0) s).raise 0x0104 i on.head?
    (u.sk sk).lost = false ∧ ∀ i ∈ on, (u.sp i).stopped ≠ 0 := by
  have posts := (foldS on (fun i t => t.stopSpindle i 1 0 0) s).posts_raise 0x0104 i on.head?
  refine ⟨?_, fun j mem => ?_⟩
  · rw [posts.sk, State.foldS_stopSpindle_sk]
    exact State.lost_of_up up
  · rw [posts.stopped]
    exact State.foldS_stopSpindle_stopped mem 1 0 0 (by decide) s

theorem State.cleanTimeout_of_loose (ls : List Nat) :
    let u := foldS ls (fun l t => t.evictPoisoned sk l) (s.modPly sk pl fun y => { y with l2Failed := true })
    (u.sk sk).lost = false ∧ (u.ply sk pl).l2Failed = true := by
  have work : (s.modPly sk pl fun y => { y with l2Failed := true }).CacheWork
      (foldS ls (fun l t => t.evictPoisoned sk l) (s.modPly sk pl fun y => { y with l2Failed := true })) sk :=
    .foldS _ sk ls fun l t => t.cacheWork_evictPoisoned sk l
  refine ⟨(work.lost sk).trans (State.lost_of_up up), (work.plies sk pl).l2Failed.trans ?_⟩
  rw [State.modPly_ply]

end

theorem skeinLossFollowsItsCauses : SkeinLossFollowsItsCauses := by
  intro sk pl s up on live
  refine ⟨fun why => leaves_of_exec rfl (State.skeinLoss_lost up on live why), fun fastened => ⟨fun split working free => ?_, fun r f used => ?_,
    fun failed dirty late => ?_⟩, fun loose => ⟨fun r f used => ?_, fun failed dirty late => ?_⟩, fun r f unused => ?_⟩
  · exact leaves_of_exec rfl (State.splitFail_lost up on live fastened split working free)
  · refine leaves_of_exec (exec_checkpointUncorrectable_of_up up r f) ?_
    rw [if_neg (by simp [used]), if_neg (by simp [fastened])]
    exact (State.skeinLoss_lost up on live .checkpoint).posts (State.posts_raise _ _ _ _)
  · refine leaves_of_exec (exec_l2CleanTimeout_of_late up failed dirty late) ?_
    rw [if_neg (by simp [fastened])]
    exact State.skeinLoss_lost (s := s.modPly sk pl _) up on live .other
  · refine leaves_of_exec (exec_checkpointUncorrectable_of_up up r f) ?_
    rw [if_neg (by simp [used]), if_pos loose]
    exact State.checkpoint_lost_of_loose up _ _
  · refine leaves_of_exec (exec_l2CleanTimeout_of_late up failed dirty late) ?_
    rw [if_pos loose]
    exact State.cleanTimeout_of_loose up _
  · refine leaves_of_exec (exec_checkpointUncorrectable_of_up up r f) ?_
    rw [if_pos (by simp [unused])]

end Sys2Proof.Machine

/-!
PROOFS. What follows the loss of a skein: its entries are swept, promoted lines become clean, spindles are placed, pairs are paired
again, and the first barriers begin (R197, R198, R202 to R205, R208).
-/

namespace Sys2Proof.Machine

/-! ### The sweep of the directory (R198) -/

theorem namesSkein_eq_false {d : DirEntry} {k : Nat} : namesSkein d k = false ↔ d.owner ≠ k ∧ d.sharers.getLsbD k = false := by
  simp [namesSkein]

theorem DirEntry.clear_unnamed (d : DirEntry) {k : Nat} (hk : k < 12) : namesSkein d.clear k = false := by
  have none : 15 ≠ k := by omega
  simp [namesSkein, DirEntry.clear, none]

theorem getLsbD_and_not_two_pow (x : BitVec 12) (j k : Nat) :
    (x &&& ~~~(BitVec.ofNat 12 (2 ^ k))).getLsbD j = (x.getLsbD j && !decide (j = k)) := by
  rcases Nat.lt_or_ge j 12 with hj | hj
  · rw [BitVec.getLsbD_and, BitVec.getLsbD_not, BitVec.getLsbD_ofNat, Nat.testBit_two_pow]
    simp [hj, eq_comm]
  · simp [BitVec.getLsbD_of_ge _ _ hj]

theorem resolveEntry_unnamed (d : DirEntry) {k : Nat} (hk : k < 12) : namesSkein (resolveEntry d k) k = false := by
  have none : 15 ≠ k := by omega
  unfold resolveEntry
  extract_lets d1 d2
  split
  · exact d2.clear_unnamed hk
  · refine namesSkein_eq_false.mpr ⟨?_, by rw [getLsbD_and_not_two_pow]; simp⟩
    show (if d.owner = k then { d with owner := 15 } else d : DirEntry).owner ≠ k
    split <;> assumption

theorem resolveEntry_keeps_unnamed {d : DirEntry} {j : Nat} (hj : j < 12) (unnamed : namesSkein d j = false) (k : Nat) :
    namesSkein (resolveEntry d k) j = false := by
  obtain ⟨owner, sharer⟩ := namesSkein_eq_false.mp unnamed
  have none : 15 ≠ j := by omega
  unfold resolveEntry
  extract_lets d1 d2
  have same : d1.sharers = d.sharers := by
    show (if d.owner = k then { d with owner := 15 } else d : DirEntry).sharers = _
    split <;> rfl
  split
  · exact d2.clear_unnamed hj
  · refine namesSkein_eq_false.mpr ⟨?_, ?_⟩
    · show (if d.owner = k then { d with owner := 15 } else d : DirEntry).owner ≠ j
      split <;> assumption
    · show (d1.sharers &&& _).getLsbD j = false
      rw [getLsbD_and_not_two_pow, same, sharer]
      rfl

section
variable (s : State) (l : Nat)

theorem State.resolveLine_unnamed {k : Nat} (hk : k < 12) (lost : (s.sk k).lost = true) : namesSkein ((s.resolveLine l).dirOf l) k = false := by
  have mem : k ∈ allSkeins.filter fun k => (s.sk k).lost := List.mem_filter.mpr ⟨List.mem_range.mpr hk, lost⟩
  unfold State.resolveLine
  refine foldS_of_mem (P := fun t : State => namesSkein (t.dirOf l) k = false) (fun t => ?_) (fun j t unnamed => ?_) _ s mem
  · rw [State.modDir_dirOf]
    exact resolveEntry_unnamed _ hk
  · rw [State.modDir_dirOf]
    exact resolveEntry_keeps_unnamed hk unnamed j

/-- The sweep of a line changes the directory alone. -/
theorem State.resolveLine_rest (h : Nat) : (s.resolveLine l).homeOf h = s.homeOf h ∧ (s.resolveLine l).mem = s.mem ∧
    (s.resolveLine l).faults = s.faults := by
  unfold State.resolveLine
  refine foldS_ind (fun t : State => t.homeOf h = s.homeOf h ∧ t.mem = s.mem ∧ t.faults = s.faults) _ (fun k t same => ?_) _ s ⟨rfl, rfl, rfl⟩
  exact same

theorem State.pumpTop_of_empty {s : State} {h : Nat} (empty : (s.homeOf h).topq = []) : s.pumpTop h = s := by
  unfold State.pumpTop
  rw [empty]
  rfl

/-- One entry is resolved, and the sweep of its slice may be over. -/
theorem State.directorySweep_eq {h : Nat} (empty : (s.homeOf h).topq = []) (sweeps : (s.homeOf h).sweep = true) (home : homeSlice l = h) :
    s.directorySweep h l = s.resolveLine l ∨ s.directorySweep h l = (s.resolveLine l).modHome h fun x => { x with sweep := false } := by
  unfold State.directorySweep
  rw [if_neg (by simp [sweeps])]
  extract_lets s1 left
  have resolved : s1 = s.resolveLine l := if_pos home
  have empty1 : (s1.homeOf h).topq = [] := by rw [resolved, (s.resolveLine_rest l h).1, empty]
  rw [← resolved]
  split
  · exact .inl (State.pumpTop_of_empty empty1)
  · exact .inr (State.pumpTop_of_empty (by rw [State.modHome_homeOf]; exact empty1))

end

theorem exec_directorySweep_of_lost {h : SliceId} {l : Nat} {k : SkId} {s : State} (quiet : s.Quiet) (empty : (s.homeOf h).topq = [])
    (sweeps : (s.homeOf h).sweep = true) (home : homeSlice l = h.val) (lost : (s.sk k).lost = true) :
    ∃ t, exec (.directorySweep h l) s = .next t ∧ (t.dirOf l).owner ≠ k.val ∧ (t.dirOf l).sharers.getLsbD k = false ∧ t.mem = s.mem := by
  obtain ⟨owner, sharer⟩ := namesSkein_eq_false.mp (s.resolveLine_unnamed l k.isLt lost)
  obtain ⟨-, mem, faults⟩ := s.resolveLine_rest l h
  have kept := State.quiet_of_faults faults quiet
  have run : exec (.directorySweep h l) s = done (s.directorySweep h l) := rfl
  rcases s.directorySweep_eq l empty sweeps home with swept | swept
  · rw [swept] at run
    exact ⟨_, exec_next_of_quiet run kept, owner, sharer, mem⟩
  · rw [swept] at run
    exact ⟨_, exec_next_of_quiet run kept, owner, sharer, mem⟩

/-! ### Promoted lines (R197 step 8) -/

/-- A promoted line that has been written to memory is clean. -/
def SkLine.written (x : SkLine) : SkLine := if x.held && x.fst == .fastenedDirty then { x with fst := .clean } else x

/-- The writeback of promoted line l of skein k, when the line is still held dirty. -/
def State.promoteBack (s : State) (k l : Nat) : State :=
  if (s.skl k l).held && (s.skl k l).fst == .fastenedDirty then
    (s.homeWrite l (s.skl k l).val).modSkl k l fun y => { y with fst := .clean }
  else s

theorem SkLine.written_written (x : SkLine) : x.written.written = x.written := by
  unfold SkLine.written
  split
  · rw [if_neg (by simp)]
  · rfl

theorem State.skl_of_cores {s t : State} (same : t.cores = s.cores) (k l : Nat) : t.skl k l = s.skl k l := by
  unfold State.skl State.sk
  rw [same]

theorem State.promoteBack_skl (s : State) (k l m : Nat) : (s.promoteBack k l).skl k m = if m = l then (s.skl k m).written else s.skl k m := by
  have lines := State.skl_of_cores (s.homeWrite_cores l (s.skl k l).val) k
  unfold State.promoteBack
  by_cases same : m = l
  · rw [if_pos same, same]
    unfold SkLine.written
    split
    · rw [State.skl_modSkl, lines]
    · rfl
  · rw [if_neg same]
    split
    · rw [State.skl_modSkl_other _ _ (.inr same), lines]
    · rfl

theorem State.foldS_promoteBack_skl (k m : Nat) : ∀ (ls : List Nat) (s : State),
    (foldS ls (fun l t => t.promoteBack k l) s).skl k m = if m ∈ ls then (s.skl k m).written else s.skl k m
  | [], s => rfl
  | l :: ls, s => by
    rw [foldS_cons, State.foldS_promoteBack_skl k m ls, State.promoteBack_skl]
    by_cases here : m = l <;> by_cases later : m ∈ ls <;> simp [here, later, SkLine.written_written]

theorem State.promotionDone_eq (s : State) (k : Nat) : s.promotionDone k =
    (foldS (s.sk k).promo (fun l t => t.promoteBack k l) s).modSk k fun z => { z with promo := [], lostDirty := [] } := rfl

theorem State.promotionDone_promo (s : State) (k : Nat) : ((s.promotionDone k).sk k).promo = [] := by
  rw [State.promotionDone_eq, State.modSk_sk]

theorem State.promotionDone_clean {s : State} {k l : Nat} (mem : l ∈ (s.sk k).promo) (held : (s.skl k l).held = true)
    (dirty : (s.skl k l).fst = .fastenedDirty) : (s.promotionDone k).skl k l = { s.skl k l with fst := .clean } := by
  rw [State.promotionDone_eq, State.skl_modSk _ rfl, State.foldS_promoteBack_skl, if_pos mem, SkLine.written, if_pos (by simp [held, dirty])]

/-! ### The placement of spindles (R202 to R204) -/

/-- Spindle x stands on place d as image m has it, and its notice 2 names the image's epoch (R203, R204). -/
structure Spindle.Restored (x : Spindle) (d : Place) (m : Image) : Prop where
  host : x.host = some d
  ba : x.ba = m.sp.ba
  regs : x.arch.g = m.sp.arch.g
  notice : x.notice2 = true
  epoch : x.saved2 = m.epoch
  placed : x.suspended = false

theorem State.reroute_sp (s : State) (i : Nat) (d : Place) : ∃ p, (s.reroute i d).sp i = { s.sp i with intPending := p } :=
  ⟨_, State.modSp_sp _ i _⟩

section
variable {s : State} {i : Nat} {d : Place} {m : Image}

/-- A restored spindle with no stores, to which the router's interrupts are raised again. -/
theorem State.restored_of_setSp (s0 : State) {x : Spindle} (restored : x.Restored d m) (calm : x.stores = []) {loose : Prop} [Decidable loose]
    (fastened : ¬ loose) (f : Jalif → Jalif) :
    let u := (if loose then ((s0.setSp i x).reroute i d).modJalif f else (s0.setSp i x).reroute i d).drain i
    (u.sp i).Restored d m ∧ u.jalif = s0.jalif := by
  dsimp only
  rw [if_neg fastened]
  obtain ⟨pending, raised⟩ := (s0.setSp i x).reroute_sp i d
  rw [State.setSp_sp] at raised
  rw [State.drain_of_no_stores (by rw [raised]; exact calm), raised]
  obtain ⟨host, ba, regs, notice, epoch, placed⟩ := restored
  exact ⟨⟨host, ba, regs, notice, epoch, placed⟩, rfl⟩

/-- A spindle that has an image, on a Fastened skein. -/
theorem State.placeAt_restored (image : s.jalif.heldImg = [(i, m)]) (fastened : (s.sk d.skein).loose = false) (calm : m.sp.stores = [])
    (fresh : Option StartRec) :
    ((s.placeAt i d fresh).sp i).Restored d m ∧ (s.placeAt i d fresh).jalif.rehost = s.jalif.rehost.filter (· != i) := by
  have jalif := (State.aims_aimPly (s.modPly d.skein d.ply fun y => { y with state := 0 }) d.skein d.ply (s.stepGoal d.skein)).jalif
  have same : (s.modPly d.skein d.ply fun y => { y with state := 0 }).jalif = s.jalif := rfl
  rw [same] at jalif
  unfold State.placeAt
  extract_lets old z s0 afresh
  have rehost : s0.jalif.rehost = s.jalif.rehost.filter (· != i) := congrArg (fun j : Jalif => j.rehost.filter (· != i)) jalif
  have held : State.placeAt.tget? s0.jalif.heldImg i = some m := by
    have images : s0.jalif.heldImg = s.jalif.heldImg := by
      rw [← jalif]
      rfl
    rw [images, image]
    simp [State.placeAt.tget?]
  clear_value s0
  rw [held, ← rehost]
  have placed {x : Spindle} (restored : x.Restored d m) (kept : x.stores = []) (f : Jalif → Jalif) :=
    State.restored_of_setSp (i := i) s0 restored kept (loose := z.loose = true) (by simp [z, fastened]) f
  refine ⟨(placed ?_ ?_ _).1, congrArg Jalif.rehost (placed ?_ ?_ _).2⟩
  · exact ⟨rfl, rfl, rfl, rfl, rfl, rfl⟩
  · exact calm
  · exact ⟨rfl, rfl, rfl, rfl, rfl, rfl⟩
  · exact calm

theorem State.tryPlace_of_image (ready : s.placeReady d = true) (image : s.jalif.heldImg = [(i, m)]) (good : m.bad = false) :
    s.tryPlace i d = s.placeAt i d none := by
  unfold State.tryPlace State.startFor
  rw [if_neg (by simp [ready]), if_neg (by simp [image, good]), if_pos (by simp [image])]

/-- The spindle's turn to be placed has come (R202). -/
theorem State.rehost_of_first (runs : s.running = true) (first : s.jalif.rehost = [i]) :
    ¬ (!s.running || !s.jalif.rehost.contains i || s.jalif.rehost.any (fun j => decide (j < i) && (s.sp j).target.isNone)) = true := by
  simp [runs, first]

theorem State.rehost_of_target (runs : s.running = true) (first : s.jalif.rehost = [i]) (target : (s.sp i).target = some d) :
    s.rehost i = s.tryPlace i d := by
  unfold State.rehost
  rw [if_neg (State.rehost_of_first runs first), target]

theorem State.rehost_of_no_place (runs : s.running = true) (first : s.jalif.rehost = [i]) (untargeted : (s.sp i).target = none)
    (nowhere : s.choosePlace = none) :
    ((s.rehost i).sp i).suspended = true ∧ (s.rehost i).jalif.rehost = [] ∧ ((s.rehost i).sp i).host = (s.sp i).host := by
  unfold State.rehost
  rw [if_neg (State.rehost_of_first runs first), untargeted, nowhere]
  dsimp only
  set t := (s.modSp i fun x => { x with suspended := true }).modJalif fun j => { j with rehost := j.rehost.filter (· != i) } with ht
  have posts := (t.posts_raise 0x0204 i (some i)).trans (State.posts_spindleNotice _ i 5 [1])
  have spindle : t.sp i = { s.sp i with suspended := true } := by rw [ht, State.modJalif_sp, State.modSp_sp]
  have rehost : t.jalif.rehost = s.jalif.rehost.filter (· != i) := rfl
  obtain ⟨pending, same⟩ := posts.sp i
  rw [same, posts.rehost, spindle, rehost, first]
  exact ⟨rfl, by simp, rfl⟩

/-- A suspended spindle whose place is ready takes it, and its notice 5 says so (R203). -/
theorem State.placeSuspended_of_target (runs : s.running = true) (suspended : (s.sp i).suspended = true) (still : (s.sp i).moving = false)
    (target : (s.sp i).target = some d) (placed : ((s.tryPlace i d).sp i).suspended = false) :
    s.placeSuspended i = (s.tryPlace i d).spindleNotice i 5 [2] := by
  unfold State.placeSuspended
  dsimp only
  rw [if_neg (by simp [runs, suspended]), if_neg (by simp [still]), target]
  dsimp only
  rw [if_neg (by simp [placed])]

end

theorem rehost_commands (sp : SpId) (s : State) (runs : s.running = true) :
    (s.jalif.rehost = [sp.val] → (s.sp sp).target = none → s.choosePlace = none →
      Leaves (.rehostPlacement sp) s fun u => (u.sp sp).suspended = true ∧ u.jalif.rehost = [] ∧ (u.sp sp).host = (s.sp sp).host) ∧
    (∀ (d : Place) (m : Image), (s.sp sp).target = some d → s.placeReady d = true → s.jalif.heldImg = [(sp.val, m)] → m.bad = false →
      (s.sk d.skein).loose = false → s.home.router = [] → m.sp.stores = [] →
      (s.jalif.rehost = [sp.val] → Leaves (.rehostPlacement sp) s fun u => (u.sp sp).host = some d ∧ (u.sp sp).ba = m.sp.ba ∧
        (u.sp sp).arch.g = m.sp.arch.g ∧ (u.sp sp).notice2 = true ∧ (u.sp sp).saved2 = m.epoch ∧ u.jalif.rehost = []) ∧
      ((s.sp sp).suspended = true → (s.sp sp).moving = false →
        Leaves (.suspendedSpindlePlace sp) s fun u => (u.sp sp).host = some d ∧ (u.sp sp).ba = m.sp.ba ∧
          (u.sp sp).suspended = false)) := by
  refine ⟨fun first untargeted nowhere => leaves_of_exec rfl (State.rehost_of_no_place runs first untargeted nowhere),
    fun d m target ready image good fastened _ calm => ?_⟩
  obtain ⟨restored, rehost⟩ := State.placeAt_restored image fastened calm none
  have tried := State.tryPlace_of_image ready image good
  refine ⟨fun first => leaves_of_exec rfl ?_, fun suspended still => leaves_of_exec rfl ?_⟩
  · rw [State.rehost_of_target runs first target, tried, rehost, first]
    obtain ⟨host, ba, regs, notice, epoch, -⟩ := restored
    exact ⟨host, ba, regs, notice, epoch, by simp⟩
  · rw [State.placeSuspended_of_target runs suspended still target (by rw [tried]; exact restored.placed), tried]
    obtain ⟨pending, same⟩ := ((s.placeAt sp d none).posts_spindleNotice sp 5 [2]).sp sp
    rw [same]
    exact ⟨restored.host, restored.ba, restored.placed⟩

/-! ### Pairs and the first barriers (R205, R208) -/

section
variable {s : State} (quiet : s.Quiet)
include quiet

theorem State.Quiet.modSk (k : Nat) (f : Skein → Skein) : (s.modSk k f).Quiet := quiet
theorem State.Quiet.modJalif (f : Jalif → Jalif) : (s.modJalif f).Quiet := quiet

end

theorem exec_repairingComplete_of_committed {k : SkId} {s : State} (quiet : s.Quiet) (mine : (s.sk k).pair = 2)
    (its : (s.sk (buddyOf k)).pair = 2) (first : (s.sk k).pairFirst = true) (itsFirst : (s.sk (buddyOf k)).pairFirst = true) :
    ∃ t, exec (.repairingComplete k) s = .next t ∧ (t.sk k).pair = 0 ∧ (t.sk (buddyOf k)).pair = 0 := by
  have other := (buddyOf_ne k).symm
  have run : exec (.repairingComplete k) s = done (s.repair k) := rfl
  unfold State.repair at run
  dsimp only at run
  rw [if_pos ⟨mine, its, first, itsFirst⟩] at run
  refine ⟨_, exec_next_of_quiet run (((quiet.modSk _ _).modSk _ _).modJalif _), ?_, ?_⟩
  · rw [State.modJalif_sk, State.modSk_sk_other _ _ other, State.modSk_sk]
  · rw [State.modJalif_sk, State.modSk_sk]

/-- The record of a skein whose barrier begins now (R175, R176). -/
def Skein.atBarrier (z : Skein) (now cycles : Nat) : Skein :=
  { z with
    inBarrier := true, barrierAt := now, epochCycles := cycles, tickHeld := false, gather := none, early := false,
    forced := if z.early || z.gather.isSome then satBits 64 (z.forced + 1) else z.forced }

/-- What a Fastened skein needs to begin a barrier at a tick (R175, R180). -/
structure State.Ticks (s : State) (k : Nat) : Prop where
  up : s.skeinUp k = true
  fastened : (s.sk k).loose = false
  between : (s.sk k).inBarrier = false
  closed : (s.sk k).closingEpoch = 0
  paired : (s.sk k).pair = 0
  calm : s.NoStoresOn k
  clean : (s.sk k).resvClean = false

section
variable {s : State} {k : Nat}

theorem State.epochTick_of_ticks (runs : s.running = true) (h : s.Ticks k) :
    s.epochTick k = s.modSk k fun z => z.atBarrier s.time (s.param 0x0600 k) := by
  unfold State.epochTick State.beginBarrier State.enterPairing
  dsimp only
  rw [if_neg (by simp [runs, h.up, h.fastened, h.between, h.clean]), if_neg (by simp [h.closed]), if_neg (by simp [h.paired])]
  exact foldS_of_fixed fun i hosted => State.drain_of_no_stores (h.calm i hosted)

theorem State.Ticks.modSk_other {j : Nat} (h : s.Ticks k) (other : k ≠ j) (f : Skein → Skein) : (s.modSk j f).Ticks k := by
  have same : (s.modSk j f).sk k = s.sk k := s.modSk_sk_other f other
  obtain ⟨up, fastened, between, closed, paired, calm, clean⟩ := h
  refine ⟨?_, by rwa [same], by rwa [same], by rwa [same], by rwa [same], calm, by rwa [same]⟩
  unfold State.skeinUp
  rwa [same]

theorem exec_reservedWayCleanComplete_of_clean {sk : SkId} (mine : (s.sk sk).resvClean = true) (empty : (s.sk sk).l3 = []) :
    exec (.reservedWayCleanComplete sk) s = done
      (let t := s.modSk sk fun z => { z with resvClean := false }
       if (s.sk (buddyOf sk)).resvClean then t else (t.epochTick sk).epochTick (buddyOf sk)) := by
  have none : s.reservedLines sk = [] := by simp [State.reservedLines, empty]
  show execReservedWayCleanComplete sk s = _
  unfold execReservedWayCleanComplete
  dsimp only
  rw [if_neg (by simp [mine]), none, ← s.modSk_sk_other (fun z => { z with resvClean := false }) (buddyOf_ne sk)]
  rfl

end

theorem firstBarriers (k : SkId) (s : State) (quiet : s.Quiet) (cleans : (s.sk k).resvClean = true) (empty : (s.sk k).l3 = []) :
    let b := buddyOf k
    let begins (n : Nat) : Prop := s.skeinUp n = true ∧ (s.sk n).loose = false ∧ (s.sk n).inBarrier = false ∧
      (s.sk n).closingEpoch = 0 ∧ (s.sk n).pair = 0 ∧ s.NoStoresOn n
    ((s.sk b).resvClean = true → ∃ t, exec (.reservedWayCleanComplete k) s = .next t ∧ t.sk k = { s.sk k with resvClean := false }) ∧
    ((s.sk b).resvClean = false → s.running = true → begins k → begins b →
      ∃ t, exec (.reservedWayCleanComplete k) s = .next t ∧ (t.sk k).resvClean = false ∧ (t.sk k).inBarrier = true ∧
        (t.sk b).inBarrier = true) := by
  intro b begins
  have other : b ≠ k := buddyOf_ne k
  have run := exec_reservedWayCleanComplete_of_clean cleans empty
  dsimp only at run
  set t := s.modSk k fun z => { z with resvClean := false } with ht
  have same : t.sk k = { s.sk k with resvClean := false } := s.modSk_sk k _
  refine ⟨fun waits => ?_, fun ready runs ⟨up, fastened, between, closed, paired, calm⟩
    ⟨up', fastened', between', closed', paired', calm'⟩ => ?_⟩
  · rw [if_pos waits] at run
    exact ⟨t, exec_next_of_quiet run quiet, same⟩
  · have mine : t.Ticks k := by
      refine ⟨?_, by rwa [same], by rwa [same], by rwa [same], by rwa [same], calm, by rw [same]⟩
      unfold State.skeinUp
      rwa [same]
    have its : t.Ticks b := (State.Ticks.mk up' fastened' between' closed' paired' calm' ready).modSk_other other _
    rw [if_neg (by rw [show buddyOf k = b from rfl]; simp [ready]), State.epochTick_of_ticks (s := t) runs mine,
      State.epochTick_of_ticks (s := t.modSk k _) runs (its.modSk_other other _)] at run
    refine ⟨_, exec_next_of_quiet run (((quiet.modSk _ _).modSk _ _).modSk _ _), ?_⟩
    rw [State.modSk_sk_other _ _ other.symm, State.modSk_sk, State.modSk_sk]
    exact ⟨rfl, rfl, by rw [State.modSk_sk]; rfl⟩

theorem recoveryAfterSkeinLoss : RecoveryAfterSkeinLoss :=
  ⟨fun _ _ _ _ quiet empty sweeps home lost => exec_directorySweep_of_lost quiet empty sweeps home lost,
    fun k s => leaves_of_exec rfl ⟨s.promotionDone_promo k, fun _ mem held dirty => State.promotionDone_clean mem held dirty⟩,
    rehost_commands,
    fun _ _ quiet mine its first itsFirst => exec_repairingComplete_of_committed quiet mine its first itsFirst,
    firstBarriers⟩

/-- Settles O55: a lost skein is gone whatever else its loss does, and each step of the recovery has its effect. -/
theorem skeinLossAndRecovery : Obligations.SkeinLossAndRecovery := ⟨skeinLossFollowsItsCauses, recoveryAfterSkeinLoss⟩

end Sys2Proof.Machine
